-- ==== Sys2Proof/Word.lean ====
section
/-! DEFINITION. The words of the part: what the spec numbers bit by bit (R5: bit 0 is least significant,
multi-byte fields are little-endian). -/
namespace Sys2Proof

/-- One byte. -/
abbrev Byte := BitVec 8

/-- One 64-bit register or memory word (R435). -/
abbrev Word := BitVec 64

/-- An end-point ID: part ID in bits 15:4, local index in bits 3:0 (R20). -/
abbrev Eid := BitVec 16

/-- A 32-byte slot of a frame (the frame section of the switch-core chapter). -/
abbrev Slot := BitVec 256

/-- A 64-byte descriptor (R69). -/
abbrev Descriptor := BitVec 512

/-- A 128-bit register of an array cell (R205). -/
abbrev Vec := BitVec 128

/-- A 24-bit stream sequence (R92). -/
abbrev Seq := BitVec 24

/-- A finite map with a default: pairs with strictly rising keys and no entry equal to the default. -/
abbrev Tbl (α : Type) := List (Nat × α)

end Sys2Proof
end

