-- ==== Sys2Proof/Syntax.lean ====
section
/-! DEFINITION. The commands of the part: one constructor of `Instr` per row of spec/opcode_table.json, with the
operands each command carries from outside the part. -/
namespace Sys2Proof

/-- Who accesses BAR0: the host over CXL, or the tray controller over the side band (R380). -/
inductive Side where
  | host | sideband
  deriving DecidableEq, Repr

/-- The kind of an access a translation is asked for (R28, R32): load, store, atomic, collective. -/
inductive Access where
  | r | w | a | c
  deriving DecidableEq, Repr

/-- The seal of an encrypted frame (R353), held symbolically: the install epoch of the key used, the COPY byte of
the IV, and whether the tag verifies under that key. -/
structure Seal where
  epoch : BitVec 32
  copy : Byte
  ok : Bool
  deriving DecidableEq, Repr

/-- A frame: the header fields of R91, R256 and R299, the multicast slot, the data slots and the trailer.
`crcOk` says whether HDR_CRC (R300) agrees with the header. -/
structure Frame where
  dst : Eid
  src : Eid
  ty : BitVec 6
  cls : BitVec 3
  vc : Bool
  len : BitVec 7
  flagged : Bool
  strict : Bool
  mcast : Bool
  detour : Bool
  enc : Bool
  colour : BitVec 2
  part : Byte
  keyGen : Byte
  stream : BitVec 16
  seq : Seq
  off : BitVec 48
  be : Byte
  hop : BitVec 6
  age : BitVec 14
  swRsp : Bool
  turn : BitVec 32
  mslot : Slot
  data : List Slot
  sealed : Option Seal
  crcOk : Bool
  deriving DecidableEq, Repr

/-- Which requester owns a request: the porter that serves a queue, or an HDM window of the host bridge (R92). -/
inductive Requester where
  | queue (q : Fin 512)
  | window (w : Fin 4)
  deriving DecidableEq, Repr

/-- One step of a chunk of a collective: the chunk, the stage code of R156 and the round of R158. -/
structure CollStep where
  chunk : Nat
  stage : Nat
  anchor : Bool
  deriving DecidableEq, Repr

/-- The transport of a key delivery message (R342). -/
inductive Transport where
  | doe | mctp
  deriving DecidableEq, Repr

/-- A sealed message of a key session (R343): the session it names, its message counter, whether its tag verifies. -/
structure Envelope where
  session : Fin 4
  counter : Word
  tagOk : Bool
  deriving DecidableEq, Repr

/-- The body of INSTALL (R342, R345): partition, memory key, frame master key, and the manifest's bytes. -/
structure InstallMsg where
  partition : Byte
  memKey : BitVec 512
  frameKey : BitVec 256
  manifest : List Byte
  deriving DecidableEq, Repr

/-- An enrolment certificate as the keeper judges it (R362). -/
structure EnrolCert where
  wellFormed : Bool
  sigOk : Bool
  deviceId : Word
  partId : BitVec 12
  deriving DecidableEq, Repr

/-- An equalisation table (R309): the board it serves, its CLASSES and RATES, its entries by number. -/
structure EqTable where
  board : BitVec 16
  classes : Nat
  rates : Nat
  entries : Tbl (BitVec 128)
  deriving DecidableEq, Repr

/-- What the signed configuration image gives (R406): the values of the fields marked img, by register; DET_STRICT
(R197); the port groups of its TORUS ports (R18); BOARD_ID of the tray it serves and the equalisation tables (R309); the
lease-expired cap (R383); the I3C static address (R375); the minimum VERSION of each component (R395). -/
structure Image where
  regs : Tbl Word
  detStrict : Bool
  groups : Tbl Nat
  board : BitVec 16
  eqTables : List EqTable
  leaseCap : Nat
  staticAddr : BitVec 7
  minVersions : Tbl Nat
  deriving DecidableEq, Repr

/-- A program image as R395 judges it: its signature, INDEX and VERSION, the digest it is measured by (R340), and what
the part takes from it: the values of a configuration image (component 6), the library's bytes by their offset in the
library area (component 7). -/
structure FirmwareImage where
  sigOk : Bool
  index : Byte
  version : BitVec 32
  digest : BitVec 384
  config : Option Image
  library : List (Nat × Byte)
  deriving DecidableEq, Repr

/-- Why a domain is reset (R388). A RESET command is a message of the side band with its INSTANCE byte (R376), or a
write to KPR_RESET; `malformed` is such a message whose DOMAIN or INSTANCE is not one. -/
inductive ResetCause where
  | powerApplied | brownout | thermalTrip | command (inst : Option Byte) | watchdog | heartbeat | uncorrectable
  | lostRetrain | stackRetrain | malformed (inst : Byte)
  deriving DecidableEq, Repr

/-- The units whose 1 ms heartbeat the keeper watches (R388). -/
inductive Beating where
  | endPoint | caravan | porterProcessor | routeScheduler | port (n : Fin 36) | stack (n : Fin 6)
  deriving DecidableEq, Repr

/-- How a bring-up stage ends (R401, R403). -/
inductive StageResult where
  | done
  | slotFails (component : Fin 8)
  | bothSlotsFail (component : Fin 8)
  | sramFail
  | stackFail (stack : Fin 6)
  | pageFail (page : Fin 184)
  | regionFail
  | cellFail
  deriving DecidableEq, Repr

/-- The four stamps of one time exchange (R418). -/
structure TimeStamps where
  t1 : Word
  t2 : Word
  t3 : Word
  t4 : Word
  deriving DecidableEq, Repr

/-- An alignment block as a lane delivers it while the port deskews (R293, R294): the lane it came on, its 32 bytes, and
when it came, in ns. -/
structure AlignRx where
  lane : Fin 8
  block : Slot
  at_ : Nat
  deriving DecidableEq, Repr

/-- A codeword that blocks of a flit lay in (R291): its lane, how many of its symbols are wrong, and whether it is counted
with this flit (a codeword that reaches into several flits is counted with the first). -/
structure CodewordRx where
  lane : Fin 8
  wrong : Nat
  counted : Bool
  deriving DecidableEq, Repr

/-- A lane whose checker lost its pattern (R314), and how many bits differed on it between synchronising and the 64 in a row. -/
structure LaneErrors where
  lane : Fin 8
  errors : Nat
  deriving DecidableEq, Repr

/-- What the rope port of a shadow part receives (R201): of a run its image, its argument block with what else starts it,
the words each cell's array reads, and of a collective step the bytes its run reads (log entry 32). -/
inductive RopeInput where
  | routeImage | argumentBlock | arrayBytes (cell : Fin 4096) | stepBytes
  deriving DecidableEq, Repr

/-- The commands, in the order of the opcode table, those without operands last. A register write carries the side it comes from. -/
inductive Instr where
  /-- REGISTER_WRITE (R6, R33, R41, R44, R59, R60, R63, R177, R234, R235, R322, R373, R379, R381, R388, R433, R435, R436, R437, R438, R439, R442) -/
  | registerWrite (side : Side) (off : BitVec 32) (full : Bool) (val collide : Word)
  /-- XLT_WALK (R25, R26, R27, R28, R29, R30, R31, R32, R33, R34, R35, R38, R39, R42, R58, R82, R85, R108) -/
  | xltWalk (q : Fin 512) (fva : Word) (kind : Access) (ahead : Bool)
  /-- FAULT_GATHER_EXPIRY (R39) -/
  | faultGatherExpiry (tag : BitVec 16)
  /-- FAULT_RING_ENABLE (R42) -/
  | faultRingEnable (side : Side) (val : Word)
  /-- RETRY (R35, R43, R44, R52, R82, R83) -/
  | retry (side : Side) (tag : BitVec 16)
  /-- ABORT (R43, R44, R81, R82) -/
  | abort (side : Side) (tag : BitVec 16)
  /-- SETTLE_RING_ENABLE (R141) -/
  | settleRingEnable (side : Side) (val : Word)
  /-- QCFG_WRITE (R58, R59, R60, R61, R62) -/
  | qcfgWrite (side : Side) (q : Fin 512) (val : Word)
  /-- FENCE (R64, R82, R83, R85, R86, R443) -/
  | fence (side : Side) (q : Fin 512)
  /-- QUEUE_FENCED (R82, R86) -/
  | queueFenced (q : Fin 512)
  /-- RESTART (R64, R82, R83, R86, R443) -/
  | restart (side : Side) (q : Fin 512)
  /-- RESET_PTRS (R64) -/
  | resetPtrs (side : Side) (q : Fin 512)
  /-- DOORBELL_WRITE (R65, R66, R82, R83, R88, R387, R434) -/
  | doorbellWrite (q : Fin 512) (full : Bool) (val : Word)
  /-- CMPL_HEAD_WRITE (R65, R80) -/
  | cmplHeadWrite (q : Fin 512) (full : Bool) (val : Word)
  /-- MEMORY_DOORBELL_POLL (R66, R67) -/
  | memoryDoorbellPoll (q : Fin 512)
  /-- DESCRIPTOR_FETCH (R84, R111) -/
  | descriptorFetch (q : Fin 512) (host : List (BitVec 512))
  /-- NOP (R69, R70) -/
  | nop (q : Fin 512)
  /-- COPY (R25, R69, R70, R71, R72) -/
  | copy (q : Fin 512)
  /-- GATHER (R69, R70, R73) -/
  | gather (q : Fin 512)
  /-- SCATTER (R69, R70, R73) -/
  | scatter (q : Fin 512)
  /-- FILL (R25, R69, R70, R71) -/
  | fill (q : Fin 512)
  /-- SIGNAL (R25, R69, R70, R71, R72) -/
  | signal (q : Fin 512)
  /-- WAIT (R69, R70, R76) -/
  | wait (q : Fin 512)
  /-- WAIT_POLL (R76) -/
  | waitPoll (q : Fin 512)
  /-- WAIT_TIMEOUT (R76) -/
  | waitTimeout (q : Fin 512)
  /-- PREFETCH (R53, R69, R70, R74) -/
  | prefetch (q : Fin 512)
  /-- MIGRATE (R47, R52, R54, R69, R70, R75) -/
  | migrate (q : Fin 512)
  /-- MIGRATE_WITHDRAW_DONE (R54) -/
  | migrateWithdrawDone (q : Fin 512)
  /-- MIGRATE_COPY_DONE (R54) -/
  | migrateCopyDone (q : Fin 512)
  /-- ADVISE (R55, R69, R70, R74) -/
  | advise (q : Fin 512)
  /-- REKEY (R69, R70, R75, R357) -/
  | rekey (q : Fin 512)
  /-- UNMAP (R46, R47, R48, R52, R57, R69, R70, R74, R85, R252, R253) -/
  | unmap (q : Fin 512)
  /-- XLT_INVAL_DONE (R50) -/
  | xltInvalDone (f : Frame)
  /-- UNMAP_COMPLETE (R49) -/
  | unmapComplete (q : Fin 512)
  /-- UNMAP_TIMEOUT (R50) -/
  | unmapTimeout (q : Fin 512)
  /-- COLL_START (R69, R70, R77, R89, R145, R146, R147, R148, R149, R153, R199, R201) -/
  | collStart (q : Fin 512)
  /-- ROUTE_RUN (R69, R70, R78, R89, R196, R199, R201, R229, R237, R245, R246, R247, R248) -/
  | routeRun (q : Fin 512)
  /-- ROUTE_PRELOAD (R69, R70, R78, R237, R248, R251) -/
  | routePreload (q : Fin 512)
  /-- DESCRIPTOR_COMPLETE (R79, R80, R81, R82, R84, R369) -/
  | descriptorComplete (q : Fin 512)
  /-- REQUEST_ISSUE (R48, R88, R91, R92, R93, R104, R107, R111, R133, R135, R136, R352, R353, R354) -/
  | requestIssue (who : Requester)
  /-- FLAGGED_STORE_RELEASE (R72, R105) -/
  | flaggedStoreRelease (who : Requester)
  /-- LOAD (R23, R24, R94, R96, R98, R100, R101, R102, R319, R320, R321, R322, R325, R329, R335, R351, R355, R356) -/
  | load (port : Fin 8) (f : Frame)
  /-- STORE (R23, R24, R94, R95, R96, R97, R99, R101, R102, R103, R127, R128, R129, R130, R131, R142, R329, R351, R355, R356) -/
  | store (port : Fin 8) (f : Frame)
  /-- STORE_FLAGGED (R96, R129, R130) -/
  | storeFlagged (port : Fin 8) (f : Frame)
  /-- BULK_DATA (R90, R129, R130) -/
  | bulkData (port : Fin 8) (f : Frame)
  /-- ATOMIC (R23, R24, R96, R101, R102, R120, R121, R122, R123, R124, R127, R128, R129, R130, R131, R132, R142, R199, R355, R356) -/
  | atomic (port : Fin 8) (f : Frame)
  /-- COMBINE_APPLY (R97, R98, R99, R114, R116, R321, R323, R324, R331, R336) -/
  | combineApply (line : BitVec 40)
  /-- ATOMIC_APPLY (R114, R122, R123, R124, R125, R126, R182, R185, R321) -/
  | atomicApply (line : BitVec 40)
  /-- LOAD_RSP (R108, R134, R355, R441) -/
  | loadRsp (f : Frame)
  /-- STORE_ACK (R106, R108, R134, R165, R169, R171, R174, R176, R355, R441) -/
  | storeAck (f : Frame)
  /-- BULK_ACK (R90) -/
  | bulkAck (f : Frame)
  /-- ATOMIC_RSP (R106, R108, R134, R355, R441) -/
  | atomicRsp (f : Frame)
  /-- CXL_MEM_READ (R24, R36, R37, R112, R113, R371, R372) -/
  | cxlMemRead (hpa : Word)
  /-- CXL_MEM_WRITE (R24, R36, R37, R94, R112, R113, R371, R372) -/
  | cxlMemWrite (hpa : Word) (data : BitVec 512) (mask : BitVec 64)
  /-- REQUEST_RETRY_TIMEOUT (R133) -/
  | requestRetryTimeout (who : Requester) (seq : BitVec 24)
  /-- REQUEST_FINAL_TIMEOUT (R106, R108, R133, R134, R137) -/
  | requestFinalTimeout (who : Requester) (seq : BitVec 24)
  /-- RETRY_BUSY_BACKOFF (R134) -/
  | retryBusyBackoff (who : Requester) (seq : BitVec 24)
  /-- FENCE_REQUEST_DEADLINE (R134, R137) -/
  | fenceRequestDeadline (who : Requester) (seq : BitVec 24)
  /-- STATUS_QUERY (R128, R131, R138, R142) -/
  | statusQuery (f : Frame)
  /-- STATUS_QUERY_RETRY (R137) -/
  | statusQueryRetry (who : Requester) (seq : BitVec 24)
  /-- STATUS_RSP (R139) -/
  | statusRsp (f : Frame)
  /-- SETTLEMENT_DEADLINE (R139) -/
  | settlementDeadline (who : Requester) (seq : BitVec 24)
  /-- LEDGER_RETENTION_EXPIRY (R127, R132) -/
  | ledgerRetentionExpiry (src sid : BitVec 16)
  /-- COLLECTIVE_START (R153) -/
  | collectiveStart (g : Fin 256)
  /-- ADMIT_TIMEOUT (R163, R176) -/
  | admitTimeout (g : Fin 256) (epoch : BitVec 8)
  /-- SEND_OFFER (R156, R160, R161) -/
  | sendOffer (g : Fin 256) (epoch : BitVec 8) (st : CollStep)
  /-- OFFER (R154) -/
  | offer (f : Frame)
  /-- SEND_INVITE (R156, R158, R161, R162, R164, R221) -/
  | sendInvite (g : Fin 256) (epoch : BitVec 8) (st : CollStep)
  /-- INVITE (R160, R164, R166) -/
  | invite (f : Frame)
  /-- COLL_DATA (R160, R166, R223, R224, R229) -/
  | collData (f : Frame)
  /-- INVITE_REPEAT_TIMEOUT (R166) -/
  | inviteRepeatTimeout (g : Fin 256) (epoch : BitVec 8) (st : CollStep) (input : BitVec 16)
  /-- STEP_RESULT_STAGED (R156, R158, R165, R167) -/
  | stepResultStaged (g : Fin 256) (epoch : BitVec 8) (st : CollStep)
  /-- COLL_RESULT (R178) -/
  | collResult (f : Frame)
  /-- CHUNK_READBACK_DONE (R167, R168, R170, R173, R175) -/
  | chunkReadbackDone (g : Fin 256) (epoch : BitVec 8) (chunk : Nat) (clean : Bool)
  /-- SEAL (R168, R169, R173) -/
  | seal (f : Frame)
  /-- SEAL_SIGNAL (R169, R174) -/
  | sealSignal (g : Fin 256) (epoch : BitVec 8) (chunk : Nat)
  /-- SEAL_WAIT_TIMEOUT (R169) -/
  | sealWaitTimeout (g : Fin 256) (epoch : BitVec 8) (chunk : Nat)
  /-- SEAL_REPEAT_TIMEOUT (R171) -/
  | sealRepeatTimeout (g : Fin 256) (epoch : BitVec 8) (chunk : Nat) (eid : BitVec 16)
  /-- VOID (R165, R168, R170, R173, R176) -/
  | void (f : Frame)
  /-- GROUP_WRITE (R150, R152) -/
  | groupWrite (side : Side) (g : Fin 256) (word : Fin 3) (val : Word)
  /-- QUOTA_WRITE (R162) -/
  | quotaWrite (side : Side) (n : Fin 64) (val : Word)
  /-- MODE_WRITE (R197) -/
  | modeWrite (side : Side) (val : Word)
  /-- ROPE_CFG_WRITE (R200) -/
  | ropeCfgWrite (side : Side) (val : Word)
  /-- ROPE_PAIR_FORM (R200) -/
  | ropePairForm (peer : Word) (peerConsents : Bool)
  /-- ROPE_CRC_COMPARE (R201, R202) -/
  | ropeCrcCompare (crc : Word)
  /-- ROPE_CAPTURE_DONE (R202, R203, R204) -/
  | ropeCaptureDone (sigs : List (BitVec 32))
  /-- RELEASE (R203) -/
  | release (side : Side)
  /-- REARM (R203) -/
  | rearm (side : Side)
  /-- ROOM_LOAD_DONE (R229, R246) -/
  | roomLoadDone (q : Fin 512)
  /-- ROOM_SAVE_DONE (R246) -/
  | roomSaveDone (q : Fin 512)
  /-- CELL_NOP (R209) -/
  | cellNop (cell : Fin 4096)
  /-- MOV (R209, R210, R222, R225) -/
  | mov (cell : Fin 4096)
  /-- OPLUS (R182, R185, R186, R187, R209) -/
  | oplus (cell : Fin 4096)
  /-- OTIMES (R187, R209) -/
  | otimes (cell : Fin 4096)
  /-- MAC (R182, R187, R209) -/
  | mac (cell : Fin 4096)
  /-- DOT (R182, R209) -/
  | dot (cell : Fin 4096)
  /-- SUB (R182, R209) -/
  | sub (cell : Fin 4096)
  /-- CMPSEL (R185, R209) -/
  | cmpsel (cell : Fin 4096)
  /-- LOGIC (R209) -/
  | logic (cell : Fin 4096)
  /-- SHIFT (R209) -/
  | shift (cell : Fin 4096)
  /-- CMP (R185, R209) -/
  | cmp (cell : Fin 4096)
  /-- SEL (R209) -/
  | sel (cell : Fin 4096)
  /-- PERM (R209) -/
  | perm (cell : Fin 4096)
  /-- CVT (R183, R184, R195, R209) -/
  | cvt (cell : Fin 4096)
  /-- ANCHOR (R189, R209) -/
  | anchor (cell : Fin 4096)
  /-- TOFIX (R190, R209) -/
  | tofix (cell : Fin 4096)
  /-- FROMFIX (R191, R209) -/
  | fromfix (cell : Fin 4096)
  /-- SCALE (R209) -/
  | scale (cell : Fin 4096)
  /-- RAND (R193, R209) -/
  | rand (cell : Fin 4096)
  /-- SETIDX (R209) -/
  | setidx (cell : Fin 4096)
  /-- LDI (R209) -/
  | ldi (cell : Fin 4096)
  /-- HRED (R182, R209) -/
  | hred (cell : Fin 4096)
  /-- FRAME_INGRESS (R9, R10, R21, R257, R258, R264, R265, R266, R270, R275, R284, R285, R287, R391, R424) -/
  | frameIngress (input : Fin 48) (f : Frame)
  /-- FRAME_DEPART (R9, R115, R175, R198, R256, R257, R262, R267, R268, R270, R272, R273, R274, R276, R277, R286, R288, R300, R301, R352) -/
  | frameDepart (output : Fin 48)
  /-- FRAME_AGE_EXPIRY (R115, R274, R278, R279) -/
  | frameAgeExpiry (pos : Nat)
  /-- SNAP (R289) -/
  | snap (side : Side)
  /-- SNAP_CLEAR (R289) -/
  | snapClear (side : Side)
  /-- CLASS_CFG_WRITE (R260, R261) -/
  | classCfgWrite (side : Side) (c : Fin 8) (val : Word)
  /-- METER_WRITE (R275) -/
  | meterWrite (side : Side) (n : Fin 128) (burst : Bool) (val : Word)
  /-- RED_WRITE (R276) -/
  | redWrite (side : Side) (k : Fin 3) (val : Word)
  /-- LOCK (R6) -/
  | lock (side : Side)
  /-- ROUTE_ENTRY_WRITE (R281, R282, R287) -/
  | routeEntryWrite (side : Side) (p : BitVec 12) (val : Word)
  /-- FLIT_RECEIVE (R262, R266, R291, R296, R297, R298, R301, R302, R303, R306, R310, R417, R422) -/
  | flitReceive (p : Fin 36) (ctl : BitVec 256) (slots : List (BitVec 256)) (words : List CodewordRx)
  /-- REPLAY_TIMEOUT (R303, R306) -/
  | replayTimeout (p : Fin 36)
  /-- SIGNAL_DETECT (R305) -/
  | signalDetect (p : Fin 36) (lanes : BitVec 8)
  /-- CALIBRATE_DONE (R305, R309) -/
  | calibrateDone (p : Fin 36)
  /-- ALIGN_DONE (R294, R305) -/
  | alignDone (p : Fin 36)
  /-- FEC_LOCK_DONE (R305) -/
  | fecLockDone (p : Fin 36)
  /-- DESKEW_DONE (R294, R305) -/
  | deskewDone (p : Fin 36) (blocks : List AlignRx)
  /-- INIT_RECORD (R262, R304, R305, R307, R315, R419) -/
  | initRecord (p : Fin 36) (record : BitVec 256) (credits : BitVec 96) (acked : Bool)
  /-- TRAINING_TIMEOUT (R305, R315) -/
  | trainingTimeout (p : Fin 36)
  /-- LANE_FAIL (R204, R306) -/
  | laneFail (p : Fin 36) (lane : Fin 8)
  /-- PORT_LOST (R204, R266, R269, R285, R308, R419, R422) -/
  | portLost (p : Fin 36)
  /-- IDLE_ENTRY (R310) -/
  | idleEntry (p : Fin 36)
  /-- WAKE (R311) -/
  | wake (p : Fin 36)
  /-- WAKE_RECEIVE (R311) -/
  | wakeReceive (p : Fin 36)
  /-- WAKE_TIMEOUT (R312) -/
  | wakeTimeout (p : Fin 36)
  /-- PORT_CFG_WRITE (R16, R269, R305) -/
  | portCfgWrite (side : Side) (p : Fin 36) (val : Word)
  /-- PORT_RETRAIN (R306, R312) -/
  | portRetrain (side : Side) (p : Fin 36)
  /-- DOWN (R313) -/
  | down (side : Side) (p : Fin 36)
  /-- CLEAR_COUNTS (R314) -/
  | clearCounts (side : Side) (p : Fin 36)
  /-- PORT_TEST_WRITE (R313) -/
  | portTestWrite (side : Side) (p : Fin 36) (val : Word)
  /-- SCRUB_READ (R320, R321, R322, R330, R331, R335) -/
  | scrubRead (k : Fin 6)
  /-- REFRESH (R332) -/
  | refresh (k : Fin 6)
  /-- STACK_TEMP_SAMPLE (R333) -/
  | stackTempSample (k : Fin 6) (temp : BitVec 8)
  /-- STACK_RETRAIN_REQUEST (R333) -/
  | stackRetrainRequest (side : Side) (k : Fin 6)
  /-- STACK_RETRAIN_DONE (R333) -/
  | stackRetrainDone (k : Fin 6)
  /-- STACK_RETRAIN_TIMEOUT (R334, R388) -/
  | stackRetrainTimeout (k : Fin 6)
  /-- MEM_CLEAR (R329) -/
  | memClear (side : Side) (val : Word)
  /-- CLEAR_DONE (R327, R328) -/
  | clearDone (page : Fin 184)
  /-- MEM_INJECT_WRITE (R336) -/
  | memInjectWrite (side : Side) (k : Fin 6) (val : Word)
  /-- GET_CERTS (R338, R342) -/
  | getCerts (tr : Transport)
  /-- GET_REPORT (R341, R342) -/
  | getReport (tr : Transport) (nonce : BitVec 256) (partition : BitVec 8)
  /-- KEY_EXCHANGE (R342, R343) -/
  | keyExchange (tr : Transport) (pub : List Byte) (nonce : BitVec 256)
  /-- INSTALL (R342, R343, R344, R345, R346, R348, R359) -/
  | install (env : Envelope) (msg : InstallMsg)
  /-- PERMIT (R342, R357) -/
  | permit (env : Envelope) (rec : BitVec 192)
  /-- REVOKE (R342, R357) -/
  | revoke (env : Envelope) (number : BitVec 16) (mac : BitVec 128)
  /-- END (R342) -/
  | endSession (env : Envelope)
  /-- SESSION_TIMEOUT (R343) -/
  | sessionTimeout (sess : Fin 4)
  /-- BIND (R346, R347, R350, R391) -/
  | bind (side : Side) (slot : Fin 64) (partition gen : BitVec 8)
  /-- OPEN (R350, R391) -/
  | openSlot (side : Side) (slot : Fin 64)
  /-- GRANT (R350, R351) -/
  | grant (side : Side) (slot : Fin 64) (first count : BitVec 8)
  /-- GRANT_SHARED (R350) -/
  | grantShared (side : Side) (slot : Fin 64) (first count : BitVec 8)
  /-- RELEASE_PAGES (R335, R350, R351) -/
  | releasePages (side : Side) (slot : Fin 64) (first count : BitVec 8)
  /-- STAGE (R348, R349, R350, R363) -/
  | stage (side : Side) (slot : Fin 64)
  /-- SWITCH (R349, R350, R354, R363) -/
  | switch (side : Side) (slot : Fin 64)
  /-- ROTATION_ANSWER (R363) -/
  | rotationAnswer (f : Frame)
  /-- ROTATION_WINDOW_EXPIRY (R349) -/
  | rotationWindowExpiry (slot : Fin 64)
  /-- CLOSE (R83, R176, R252, R253, R346, R350, R357, R358, R359, R443) -/
  | close (side : Side) (slot : Fin 64)
  /-- CLOSE_DRAIN_DONE (R346, R347, R358, R363) -/
  | closeDrainDone (slot : Fin 64)
  /-- CLEARING_DONE (R346, R358) -/
  | clearingDone (slot : Fin 64)
  /-- ENROL (R362, R376) -/
  | enrol (inst : Byte) (cert : EnrolCert)
  /-- HDM_DECODER_COMMIT (R37, R370) -/
  | hdmDecoderCommit (w : Fin 4) (base size : Word)
  /-- HST_WIN_WRITE (R370) -/
  | hstWinWrite (side : Side) (w : Fin 4) (val : Word)
  /-- CXL_CACHE_COMPLETION (R365) -/
  | cxlCacheCompletion (data : BitVec 512)
  /-- SNOOP (R365) -/
  | snoop (addr : Word)
  /-- DOE_DISCOVERY (R368) -/
  | doeDiscovery (index : Byte)
  /-- CDAT_TABLE_ACCESS (R368) -/
  | cdatTableAccess (handle : BitVec 16)
  /-- IDE_KM (R368) -/
  | ideKm (env : Envelope) (body : List Byte)
  /-- ENTDAA (R375) -/
  | entdaa (addr : BitVec 7)
  /-- SETDASA (R375) -/
  | setdasa (static addr : BitVec 7)
  /-- SET_ENDPOINT_ID (R375) -/
  | setEndpointId (eid : Byte)
  /-- GET_MCTP_VERSION_SUPPORT (R375) -/
  | getMctpVersionSupport (msgType : Byte)
  /-- GET_VENDOR_DEFINED_MESSAGE_SUPPORT (R375) -/
  | getVendorDefinedMessageSupport (selector : Byte)
  /-- REG_READ (R376, R377, R436) -/
  | regRead (inst : Byte) (off : BitVec 32) (count : Byte)
  /-- REG_WRITE (R376, R377, R381, R436) -/
  | regWrite (inst : Byte) (off : BitVec 32) (count : Byte) (words : List Word)
  /-- OWNER_GET (R376) -/
  | ownerGet (inst : Byte)
  /-- OWNER_SET (R376, R380, R382) -/
  | ownerSet (inst : Byte) (mask : BitVec 16)
  /-- CAP_SET (R376, R377, R383, R384, R393) -/
  | capSet (inst : Byte) (cap : BitVec 16)
  /-- CAP_GET (R376) -/
  | capGet (inst : Byte)
  /-- SNAPSHOT (R376, R428) -/
  | snapshot (inst : Byte)
  /-- SNAP_READ (R376, R377, R429) -/
  | snapRead (inst : Byte) (number off : BitVec 32) (length : BitVec 16)
  /-- CAPTURE (R428) -/
  | capture (side : Side)
  /-- SENSOR_POLL (R378) -/
  | sensorPoll (sensor : Byte)
  /-- SENSOR_UPDATE (R378, R408) -/
  | sensorUpdate (power voltage current : BitVec 16)
  /-- REQUEST_FIRMWARE_DATA (R378) -/
  | requestFirmwareData (comp : Fin 8) (offset : BitVec 32) (data : List Byte)
  /-- ACTIVATE_FIRMWARE (R378, R395, R396, R403) -/
  | activateFirmware (comp : Fin 8) (img : FirmwareImage)
  /-- PWR_RESET (R8, R16, R92, R197, R254, R385, R389, R399, R406) -/
  | pwrReset (cause : ResetCause)
  /-- KPR_RESET (R8, R376, R380, R385, R389, R390, R397, R399, R438) -/
  | kprReset (cause : ResetCause)
  /-- EPT_RESET (R8, R45, R385, R386, R389, R390, R399) -/
  | eptReset (cause : ResetCause)
  /-- ARY_RESET (R8, R87, R236, R385, R386, R387, R389, R390, R397, R399) -/
  | aryReset (cause : ResetCause)
  /-- PRT_RESET (R8, R385, R389, R390, R397, R399) -/
  | prtReset (p : Fin 36) (cause : ResetCause)
  /-- PRT_RESET_END (R385) -/
  | prtResetEnd (p : Fin 36)
  /-- STK_RESET (R8, R385, R389, R390, R397, R399) -/
  | stkReset (k : Fin 6) (cause : ResetCause)
  /-- STK_RESET_END (R385) -/
  | stkResetEnd (k : Fin 6)
  /-- HEARTBEAT_TIMEOUT (R388) -/
  | heartbeatTimeout (unit : Beating)
  /-- LOST_RETRAIN_TIMEOUT (R388) -/
  | lostRetrainTimeout (p : Fin 36)
  /-- PORTS (R391) -/
  | ports (side : Side) (val collide : Word)
  /-- THERMAL_SAMPLE (R232, R379, R392, R397, R405) -/
  | thermalSample (temp : BitVec 8)
  /-- BRINGUP_STAGE_DONE (R254, R337, R340, R373, R401, R402, R403, R406) -/
  | bringupStageDone (result : StageResult)
  /-- MEASURE (R418, R419) -/
  | measure (side : Side)
  /-- TIM_CFG_WRITE (R419, R422) -/
  | timCfgWrite (side : Side) (val : Word)
  /-- TIME_QUERY (R417, R424) -/
  | timeQuery (port : Fin 8) (f : Frame)
  /-- LATCH (R426) -/
  | latch (side : Side)
  /-- PROF_SEL_WRITE (R427) -/
  | profSelWrite (side : Side) (b : Fin 14) (k : Fin 64) (val : Word)
  /-- CHECKER_SYNC (R314) -/
  | checkerSync (p : Fin 36) (lane : Fin 8)
  /-- CHECKER_SYNC_LOST (R314) -/
  | checkerSyncLost (p : Fin 36) (lane : LaneErrors)
  /-- COLUMN_BUS_TRANSFER (R213, R225, R247) -/
  | columnBusTransfer (cell : Fin 4096) (inward : Bool)
  /-- ROPE_INPUT_RECEIVE (R201) -/
  | ropeInputReceive (kind : RopeInput) (bytes : List Byte)
  /-- PLDM_BASE_COMMAND (R378) -/
  | pldmBaseCommand (command : Byte)
  /-- FAULT_RECORD_POST (R40, R41, R42, R44, R369) -/
  | faultRecordPost
  /-- PENDING_FAULT_CREATE (R42) -/
  | pendingFaultCreate
  /-- SETTLEMENT_RECORD_POST (R140, R141) -/
  | settlementRecordPost
  /-- QUARANTINE_END (R142) -/
  | quarantineEnd
  /-- COLLECTIVE_ADMIT (R163) -/
  | collectiveAdmit
  /-- ROOM_GRANT (R221, R243, R246) -/
  | roomGrant
  /-- RUN_START (R11, R196, R201, R213, R218, R219, R223, R230, R231, R232, R235, R243, R248, R249, R252, R408) -/
  | runStart
  /-- RUN_END (R78, R218, R227, R228, R246) -/
  | runEnd
  /-- RUN_LIMIT_EXPIRY (R227) -/
  | runLimitExpiry
  /-- SHADOW_LOAD_START (R231, R241, R249) -/
  | shadowLoadStart
  /-- SHADOW_LOAD_DONE (R208, R215, R216, R226, R239, R241, R249, R252) -/
  | shadowLoadDone
  /-- INSTRUCTION_RESULT_WRITE (R210, R211, R212, R215, R216, R222) -/
  | instructionResultWrite
  /-- BUFFER_AUDIT (R280) -/
  | bufferAudit
  /-- CMAP_SAMPLE (R288) -/
  | cmapSample
  /-- CMAP_SNAPSHOT_TAKE (R289) -/
  | cmapSnapshotTake
  /-- DRAINED (R287) -/
  | drained
  /-- OPEN_DIGEST_DONE (R346, R356) -/
  | openDigestDone
  /-- ROTATION_ANSWER_TIMEOUT (R363) -/
  | rotationAnswerTimeout
  /-- PERST_ASSERT (R374) -/
  | perstAssert
  /-- PERST_DEASSERT (R373, R405) -/
  | perstDeassert
  /-- HOT_RESET (R374) -/
  | hotReset
  /-- CXL_LINK_DOWN (R374) -/
  | cxlLinkDown
  /-- CXL_LINK_UP (R374) -/
  | cxlLinkUp
  /-- DOE_ABORT (R368) -/
  | doeAbort
  /-- GET_ENDPOINT_ID (R375) -/
  | getEndpointId
  /-- GET_MESSAGE_TYPE_SUPPORT (R375) -/
  | getMessageTypeSupport
  /-- CAP_APPLIED (R383) -/
  | capApplied
  /-- LEASE_EXPIRY (R384) -/
  | leaseExpiry
  /-- CAIRN_DONE (R428, R429) -/
  | cairnDone
  /-- FIRMWARE_SWAP_DONE (R338, R340, R396, R397, R399) -/
  | firmwareSwapDone
  /-- KPR_RESET_END (R385) -/
  | kprResetEnd
  /-- EPT_RESET_END (R142, R385) -/
  | eptResetEnd
  /-- ARY_RESET_END (R82, R87, R385, R386, R387) -/
  | aryResetEnd
  /-- RESET_COUNT_EXPIRY (R390) -/
  | resetCountExpiry
  /-- KEEPER_WATCHDOG_EXPIRY (R388) -/
  | keeperWatchdogExpiry
  /-- CLOCK_STEP_UP (R233, R392) -/
  | clockStepUp
  /-- CLOCK_STEP_DOWN (R233, R392) -/
  | clockStepDown
  /-- PWR_WARN_ASSERT (R232, R393, R405, R413) -/
  | pwrWarnAssert
  /-- PWR_WARN_DEASSERT (R393, R397, R405, R413) -/
  | pwrWarnDeassert
  /-- SB_RST (R375, R405) -/
  | sbRst
  /-- POWER_APPLIED (R400) -/
  | powerApplied
  /-- INPUT_QUALIFIED (R388, R394, R400) -/
  | inputQualified
  /-- BROWNOUT (R394, R400, R405, R410) -/
  | brownout
  /-- OVERVOLTAGE (R410) -/
  | overvoltage
  /-- MEASURE_EXCHANGE (R418, R419): its stamps are carried by the flits of both parts, so the command has none to give -/
  | measureExchange (stamps : Unit)
  /-- MEASURE_DONE (R418) -/
  | measureDone
  /-- LOCK_EXCHANGE (R421): its stamps and the parent's ROOT are carried by flits, so the command has none to give -/
  | lockExchange (stamps rooted : Unit)
  /-- TIME_SYNC_PULSE (R423) -/
  | timeSyncPulse
  /-- TIME_SYNC_EDGE (R423) -/
  | timeSyncEdge
  /-- COUNTER_LATCH_TAKE (R426) -/
  | counterLatchTake
  deriving DecidableEq, Repr

end Sys2Proof
end

