-- ==== Sys2Proof/Config.lean ====
section
/-! DEFINITION. What the spec leaves open as a value, and the functions whose bits it takes from published
standards: constants without a body, so that nothing can be proved of their values. -/
namespace Sys2Proof.Config

/-- A value the spec does not state (log entry 5): the n-th one a run asks for. -/
opaque freeValue : Nat → Word

/-- SHA-384 of some bytes (R340, R356), symbolic: the standard's function, not modelled bit by bit (log entry 9). -/
opaque sha384 : List Byte → BitVec 384

/-- One block of AES-256 (R323, R324, R353), symbolic: the standard's function, of a key and 16 bytes (log entry 9). -/
opaque aes256 : BitVec 256 → List Byte → List Byte

/-- The device identity certificate in the non-volatile store, of DEVICE_ID (R338). -/
opaque deviceCertificate : Word → List Byte

/-- The alias certificate, signed with the DIK, of the keeper's digest the AK was derived from (R337, R338). -/
opaque aliasCertificate : BitVec 384 → List Byte

/-- An ECDSA signature with the AK derived from a keeper's digest (R337, R341, R342). -/
opaque attestSign : BitVec 384 → List Byte → List Byte

/-- The keeper's n-th ephemeral public key and nonce (R342). -/
opaque ephemeralKey : Nat → List Byte
opaque keeperNonce : Nat → BitVec 256

/-- The ECDH secret of the keeper's n-th ephemeral key and a requester's public key (R343). -/
opaque ecdhSecret : Nat → List Byte → List Byte

/-- The device identity key's public half, 97 bytes (R337, R339): this die's own. -/
opaque dikPublicKey : List Byte

/-- Cohowick's PCI vendor ID, which configuration space reports (R368, R376). -/
opaque vendorId : BitVec 16

/-- The length of a cairn section whose records have no stated size (R430): its type and its records' figures. -/
opaque cairnLength : Nat → List (List Nat) → Nat

/-- A byte of a cairn's section, whose records R430 gives no layout: its type, its records' figures, the byte's offset. -/
opaque cairnByte : Nat → List (List Nat) → Nat → Byte

end Sys2Proof.Config
end

