-- ==== Sys2Proof/Machine/Bits.lean ====
section
/-! DEFINITION. Helpers over plain data: tables with a default, byte order, bit fields, CRCs, list updates. -/
namespace Sys2Proof.Machine

/-! ### Tables with a default -/

/-- The entry of a key: the default where the table lists none. -/
def tblGet {α : Type} (d : α) : Tbl α → Nat → α
  | [], _ => d
  | (k, v) :: t, i => if k = i then v else tblGet d t i

/-- Puts an entry before the first larger key. -/
def tblInsert {α : Type} (i : Nat) (v : α) : Tbl α → Tbl α
  | [] => [(i, v)]
  | (k, w) :: t => if i < k then (i, v) :: (k, w) :: t else (k, w) :: tblInsert i v t

/-- Takes every entry of a key out. -/
def tblErase {α : Type} (i : Nat) : Tbl α → Tbl α
  | [] => []
  | (k, w) :: t => if k = i then tblErase i t else (k, w) :: tblErase i t

/-- Sets the entry of a key; an entry equal to the default is not listed. -/
def tblSet {α : Type} [DecidableEq α] (d : α) (t : Tbl α) (i : Nat) (v : α) : Tbl α :=
  if v = d then tblErase i t else tblInsert i v (tblErase i t)

/-- Keys strictly rising from `lo` and no entry equal to the default: the canonical form. -/
def tblWfFrom {α : Type} [DecidableEq α] (d : α) (lo : Nat) : Tbl α → Bool
  | [] => true
  | (k, v) :: t => decide (lo ≤ k) && !(decide (v = d)) && tblWfFrom d (k + 1) t

/-- The canonical form of a table. -/
def tblWf {α : Type} [DecidableEq α] (d : α) (t : Tbl α) : Bool := tblWfFrom d 0 t

/-- Takes out every entry whose key fails a test. -/
def tblKeep {α : Type} (p : Nat → Bool) : Tbl α → Tbl α
  | [] => []
  | (k, v) :: t => if p k then (k, v) :: tblKeep p t else tblKeep p t

/-! ### Bytes and bit fields -/

/-- The low `n` bytes of a number, least significant first (R5). -/
def bytesOfNat : Nat → Nat → List Byte
  | 0, _ => []
  | n + 1, v => BitVec.ofNat 8 v :: bytesOfNat n (v / 256)

/-- The number some bytes spell, least significant first (R5). -/
def natOfBytes : List Byte → Nat
  | [] => 0
  | b :: t => b.toNat + 256 * natOfBytes t

/-- Bits `hi` down to `lo` of a number. -/
def field (v hi lo : Nat) : Nat := (v / 2 ^ lo) % 2 ^ (hi + 1 - lo)

/-- Bits `hi` down to `lo` of a word. -/
def wfield (v : Word) (hi lo : Nat) : Nat := field v.toNat hi lo

/-- One bit of a word as 0 or 1. -/
def wbit (v : Word) (i : Nat) : Bool := v.getLsbD i

/-- A word with bits `hi` down to `lo` all ones. -/
def maskOf (hi lo : Nat) : Word := BitVec.ofNat 64 ((2 ^ (hi + 1 - lo) - 1) * 2 ^ lo)

/-- A word with one field replaced. -/
def setField (v : Word) (hi lo x : Nat) : Word :=
  (v &&& ~~~(maskOf hi lo)) ||| (BitVec.ofNat 64 ((x % 2 ^ (hi + 1 - lo)) * 2 ^ lo))

/-- A field placed in a word. -/
def place (hi lo x : Nat) : Word := BitVec.ofNat 64 ((x % 2 ^ (hi + 1 - lo)) * 2 ^ lo)

/-- A flag placed in a word. -/
def placeBit (i : Nat) (b : Bool) : Word := if b then BitVec.ofNat 64 (2 ^ i) else 0

/-- One byte of a slot. -/
def slotByte (v : Slot) (i : Nat) : Byte := BitVec.ofNat 8 (v.toNat / 2 ^ (8 * i))

/-- The 32 bytes of a slot. -/
def slotBytes (v : Slot) : List Byte := bytesOfNat 32 v.toNat

/-- The slot of some bytes. -/
def slotOf (b : List Byte) : Slot := BitVec.ofNat 256 (natOfBytes b)

/-- Cuts bytes into slots, the last one filled with zeros. -/
def slotsOfBytes : Nat → List Byte → List Slot
  | 0, _ => []
  | n + 1, b => slotOf (b.take 32) :: slotsOfBytes n (b.drop 32)

/-- `b` as 0 or 1. -/
def bit1 (b : Bool) : Nat := if b then 1 else 0

/-- The quotient rounded up. -/
def ceilDiv (a b : Nat) : Nat := (a + b - 1) / b

/-- Adds to a count that stops at `top`. -/
def satAdd (top a b : Nat) : Nat := min top (a + b)

/-- Number of the first element that passes a test. -/
def indexOf? {α : Type} (p : α → Bool) : List α → Option Nat
  | [] => none
  | a :: t => if p a then some 0 else (indexOf? p t).map (· + 1)

/-- Replaces the first element that passes a test. -/
def updFirst {α : Type} (p : α → Bool) (f : α → α) : List α → List α
  | [] => []
  | a :: t => if p a then f a :: t else a :: updFirst p f t

/-- Takes the first element that passes a test out. -/
def eraseFirst {α : Type} (p : α → Bool) : List α → List α
  | [] => []
  | a :: t => if p a then t else a :: eraseFirst p t

/-- Maps the elements that pass a test. -/
def updAll {α : Type} (p : α → Bool) (f : α → α) (l : List α) : List α :=
  l.map (fun a => if p a then f a else a)

/-- The first number from `n` on, coming round at `m`, that a list does not hold, looking at most `fuel` places. -/
def nextFree (l : List Nat) (m : Nat) : Nat → Nat → Nat
  | 0, n => n
  | k + 1, n => if l.contains n then nextFree l m k ((n + 1) % m) else n

/-- Adds a number without repeating it. -/
def insertNew (n : Nat) (l : List Nat) : List Nat := if l.contains n then l else l ++ [n]

/-- Puts an element into a list in rising order of a key, after those of the same key. -/
def insertBy {α : Type} (key : α → Nat) (a : α) : List α → List α
  | [] => [a]
  | b :: t => if key b ≤ key a then b :: insertBy key a t else a :: b :: t

/-- A list in rising order of a key. -/
def sortBy {α : Type} (key : α → Nat) (l : List α) : List α := l.foldl (fun acc a => insertBy key a acc) []

/-! ### Check values -/

/-- One byte of a CRC of `w` bits, most significant bit first, without reflection. -/
def crcBits (w poly : Nat) : Nat → Nat → Nat → Nat
  | 0, _, r => r
  | n + 1, b, r =>
    let top := (r / 2 ^ (w - 1)) % 2
    let inBit := (b / 2 ^ n) % 2
    let sh := (r * 2) % 2 ^ w
    crcBits w poly n b (if top = inBit then sh else Nat.xor sh poly)

/-- A CRC of `w` bits over bytes, from the register `r`. -/
def crcGo (w poly : Nat) : List Byte → Nat → Nat
  | [], r => r
  | b :: t, r => crcGo w poly t (crcBits w poly 8 b.toNat r)

/-- The flit and header CRC-32: polynomial 0x1EDC_6F41, initial value and final XOR all ones (R297, R300). -/
def crcFlit (b : List Byte) : Nat := Nat.xor (crcGo 32 0x1EDC6F41 b (2 ^ 32 - 1)) (2 ^ 32 - 1)

/-- The cell signature's CRC-32 as it runs: polynomial 0x04C1_1DB7, the register before the final XOR (R201). -/
def crcCell (b : List Byte) (r : Nat) : Nat := crcGo 32 0x04C11DB7 b r

/-- The chunk CRC-64: the ECMA-182 polynomial, initial value 0 and final XOR 0 (R166). -/
def crcChunk (b : List Byte) : Nat := crcGo 64 0x42F0E1EBA9EA3693 b 0

end Sys2Proof.Machine
end

