-- ==== Sys2Proof/Machine/RegNames.lean ====
section
/-! DEFINITION. BAR0 offsets of the registers, block by block (R433). -/
namespace Sys2Proof.Machine

/-! ### KPR (owner bit 0) -/
abbrev rKprStatus : Nat := 0x00
abbrev rKprPartId : Nat := 0x08
abbrev rKprMode : Nat := 0x18
abbrev rKprOwn : Nat := 0x40
abbrev rKprAttn : Nat := 0x48
abbrev rKprPcap : Nat := 0x50
abbrev rKprReset : Nat := 0x58
abbrev rKprEsc : Nat := 0x60
abbrev rKprPrtRetired : Nat := 0x68
abbrev rKprSlots : Nat := 0x70
abbrev rKprLogHead : Nat := 0x78
abbrev rKprLog : Nat := 0x1000
/-! ### HST (1) -/
abbrev rHstStatus : Nat := 0x110000
abbrev rHstErrA : Nat := 0x110008
abbrev rHstErrB : Nat := 0x110010
abbrev rHstWin (w : Nat) : Nat := 0x110100 + 0x10 * w
abbrev rHstMsix : Nat := 0x120000
abbrev rHstPba : Nat := 0x128000
/-! ### SEC (2) -/
abbrev rSecStatus : Nat := 0x200000
abbrev rSecCmd : Nat := 0x200008
abbrev rSecCmdStatus : Nat := 0x200010
abbrev rSecDeviceId : Nat := 0x200018
abbrev rSecSlot (n : Nat) : Nat := 0x201000 + 8 * n
/-! ### TIM (3) -/
abbrev rTimNow : Nat := 0x300000
abbrev rTimCfg : Nat := 0x300008
abbrev rTimCtl : Nat := 0x300010
abbrev rTimStatus : Nat := 0x300018
abbrev rTimOffset : Nat := 0x300020
abbrev rTimRate : Nat := 0x300028
abbrev rTimMeasTime : Nat := 0x300030
abbrev rTimPulse : Nat := 0x300038
/-! ### SWC (4) -/
abbrev rSwcStatus : Nat := 0x400000
abbrev rSwcLeakAudit : Nat := 0x400008
abbrev rSwcCut : Nat := 0x400010
abbrev rSwcCmapCtl : Nat := 0x400018
abbrev rSwcClassCfg (c : Nat) : Nat := 0x400100 + 8 * c
abbrev rSwcRed (k : Nat) : Nat := 0x400200 + 8 * k
abbrev rSwcMeter (n : Nat) : Nat := 0x401000 + 16 * n
abbrev rSwcCmap (o : Nat) : Nat := 0x410000 + 0x400 * o
/-! ### RTE (5) -/
abbrev rRteSelf : Nat := 0x500000
abbrev rRteStatus : Nat := 0x500008
abbrev rRteLocal (i : Nat) : Nat := 0x501000 + 8 * i
abbrev rRteEntry (p : Nat) : Nat := 0x510000 + 8 * p
/-- The 64-bit register that holds the four coordinate entries 4*j to 4*j + 3 (R272, R435). -/
abbrev rRteCoord (j : Nat) : Nat := 0x520000 + 8 * j
/-! ### PRT (6) -/
abbrev rPrt (p : Nat) : Nat := 0x1000000 + 0x10000 * p
abbrev rPrtCfg (p : Nat) : Nat := rPrt p
abbrev rPrtCtl (p : Nat) : Nat := rPrt p + 0x08
abbrev rPrtStatus (p : Nat) : Nat := rPrt p + 0x10
abbrev rPrtTest (p : Nat) : Nat := rPrt p + 0x20
abbrev rPrtTestBits (p : Nat) : Nat := rPrt p + 0x28
abbrev rPrtLaneTest (p l : Nat) : Nat := rPrt p + 0x30 + 8 * l
/-! ### EPT (7) -/
abbrev rXltRoot (n : Nat) : Nat := 0x1401000 + 8 * n
abbrev rFaultRing : Nat := 0x1402000
abbrev rFaultPtrs : Nat := 0x1402008
abbrev rResume : Nat := 0x1402010
abbrev rXltStatus : Nat := 0x1402018
abbrev rLedgerStatus : Nat := 0x1403000
abbrev rSettleRing : Nat := 0x1403008
abbrev rSettlePtrs : Nat := 0x1403010
abbrev rPageOwn (i : Nat) : Nat := 0x1404000 + 8 * i
/-! ### POR (8) -/
abbrev rEngStatus (i : Nat) : Nat := 0x1500000 + 0x10000 * i
abbrev rQueue (q : Nat) : Nat := 0x1580000 + 0x40 * q
abbrev rQcfg (q : Nat) : Nat := rQueue q
abbrev rQring (q : Nat) : Nat := rQueue q + 0x08
abbrev rQcmpl (q : Nat) : Nat := rQueue q + 0x10
abbrev rQstate (q : Nat) : Nat := rQueue q + 0x18
abbrev rQptrs (q : Nat) : Nat := rQueue q + 0x20
abbrev rQprog (q : Nat) : Nat := rQueue q + 0x28
abbrev rQctl (q : Nat) : Nat := rQueue q + 0x30
abbrev rQmemdb (q : Nat) : Nat := rQueue q + 0x38
/-! ### CVN (9) -/
abbrev rCvnStatus : Nat := 0x1600000
abbrev rRoomQuota (n : Nat) : Nat := 0x1601000 + 8 * n
abbrev rGroup (g : Nat) : Nat := 0x1610000 + 0x20 * g
/-! ### ARY (10) -/
abbrev rAryStatus : Nat := 0x1700000
abbrev rArySched : Nat := 0x1700008
abbrev rAryPlanes : Nat := 0x1700010
/-! ### MEM (11) -/
abbrev rMem (k : Nat) : Nat := 0x1800000 + 0x10000 * k
abbrev rMemStatus (k : Nat) : Nat := rMem k
abbrev rMemErrA (k : Nat) : Nat := rMem k + 0x08
abbrev rMemErrB (k : Nat) : Nat := rMem k + 0x10
abbrev rMemScrub (k : Nat) : Nat := rMem k + 0x18
abbrev rMemCtl (k : Nat) : Nat := rMem k + 0x20
abbrev rMemInject (k : Nat) : Nat := rMem k + 0x28
abbrev rMemClearCmd : Nat := 0x1860000
abbrev rMemClearStatus : Nat := 0x1860008
abbrev rMemRetired (k : Nat) : Nat := 0x1860010 + 8 * k
/-! ### CNT (12) -/
abbrev rCntCtl : Nat := 0x1900000
abbrev rBlockEvents (b : Nat) : Nat := 0x1900100 + 8 * b
abbrev rCntBase : Nat := 0x1910000
abbrev rProfSel (b i : Nat) : Nat := 0x1970000 + 0x400 * b + 8 * i
abbrev rProfCount (b i : Nat) : Nat := 0x1970200 + 0x400 * b + 8 * i
/-! ### DBG (13) -/
abbrev rCairnCtl : Nat := 0x1A00000
abbrev rCairnReq : Nat := 0x1A00008
abbrev rRopeCfg : Nat := 0x1A10000
abbrev rRopeStatus : Nat := 0x1A10008
abbrev rRopeCtl : Nat := 0x1A10010
abbrev rRopeRecord : Nat := 0x1A11000

end Sys2Proof.Machine
end

