-- ==== Sys2Proof/Machine/State.lean ====
section
/-! DEFINITION. The state of the part as plain data, and the state right after a PWR reset. -/
namespace Sys2Proof.Machine

/-- No command of this part ends in a fault of the model: every refusal the spec gives is a status code, a flag or a
count in the state. The type is empty (safe: nothing stops). -/
inductive Fault where
  deriving DecidableEq, Repr

/-- Why a command has no meaning. `notModelled` is raised by the arms of `exec` that are not written yet (safe: the
machine stops). -/
inductive Refusal where
  | notModelled (mnemonic : String)
  deriving DecidableEq, Repr

/-- The reset domains (R7). -/
inductive Dom where
  | pwr | kpr | ept | ary | prt (n : Nat) | stk (n : Nat)
  deriving DecidableEq, Repr

/-- A number for each domain, the key of `State.resets` and of the reset counts. -/
def Dom.code : Dom → Nat
  | .pwr => 0
  | .kpr => 1
  | .ept => 2
  | .ary => 3
  | .prt n => 16 + n
  | .stk n => 64 + n

/-! ### Translation (R26 to R55) -/

/-- A leaf held in the translation cache (R34): the partition, the 1 GiB or 32 GiB page, the leaf, whether
READ_MOSTLY pinned it (R55). -/
structure CacheEntry where
  part : Byte
  big : Bool
  page : Nat
  leaf : Word
  pinned : Bool
  deriving DecidableEq, Repr

/-- An open or pending fault (R39, R42). A pending fault has no tag yet. `gathered` says its record has been made;
`silent` is the WITHDRAWN fault of a page under MIGRATE (R54). -/
structure XltFault where
  tag : BitVec 16
  part : Byte
  page : Nat
  reason : Nat
  level : Nat
  access : BitVec 4
  waiters : List (Fin 512)
  openedAt : Nat
  gathered : Bool
  silent : Bool
  deriving DecidableEq, Repr

/-- A hint given by ADVISE for a range of pages (R55), newest first in the state. -/
structure Advice where
  part : Byte
  first : Nat
  count : Nat
  hint : Nat
  deriving DecidableEq, Repr

/-- What a collective has in flight under a member's translation: the reading of its contribution to a chunk, or the
delivery and signalling of the chunk to it (R47 to R49). -/
structure CollUse where
  group : Nat
  epoch : Nat
  chunk : Nat
  li : Nat
  read : Bool
  deriving DecidableEq, Repr

/-- A withdrawal: an UNMAP, or a MIGRATE with its withdrawal, its copy from `oldFa` and its new leaf (R46 to R54).
`waiting` are the local indices whose XLT_INVAL_DONE is missing, `inFlight` the requests issued under the old
translation, by issue order, `uses` what collectives had in flight under it, `quietUntil` when no copy of one that ended
in OUTCOME_UNKNOWN can exist. -/
structure Withdraw where
  queue : Fin 512
  index : BitVec 32
  part : Byte
  first : Nat
  count : Nat
  tag : BitVec 16
  waiting : List Nat
  badStatus : Option Byte
  startedAt : Nat
  inFlight : List Nat
  uses : List CollUse
  quietUntil : Nat
  migrate : Bool
  copying : Bool
  started : Bool
  oldFa : Nat
  leafAt : Nat
  deriving DecidableEq, Repr

/-! ### Queues (R58 to R89) -/

/-- The states of a queue (R62, R82). -/
inductive QState where
  | idle | running | parked | fenced | error
  deriving DecidableEq, Repr

/-- A fetched descriptor (R69, R80 to R87): its free-running count, its bytes, whether its command has started and
whether it has issued a write. `status` is its final status where the command gives one; `failed` the status its first
failed request left, and `failStore` the earliest failed store or atomic in issue order (R106). `issued` and `landed`
count bytes whose stores were sent and landed; `buf` is read data from byte `issued` on. `readWait` says a read is
out, `readSkip`, `readLen` what of its bytes is wanted, `readList` that it reads a list entry. `listPos`, `entryFva`
and `entryLeft` stand in the list of a GATHER or SCATTER. -/
structure DescEx where
  index : BitVec 32
  raw : Descriptor
  started : Bool
  wrote : Bool
  status : Option Byte
  failed : Option Byte
  failStore : Option (Nat × Byte)
  result : Word
  issued : Nat
  landed : Nat
  listPos : Nat
  entryFva : Nat
  entryLeft : Nat
  buf : List Byte
  readWait : Bool
  readList : Bool
  readSkip : Nat
  readLen : Nat
  beganAt : Nat
  lastPoll : Option Nat
  deriving DecidableEq, Repr

/-- One command queue: what its registers show live or held (R62 to R66) and its engine's work on it. `turns` counts the
turns it has had in its porter's round (R88), `parkedOn` is the descriptor in hand whose walk parked the queue (R38, R43),
`dbTimes` are the producer counts accepted since the consumer count and when, for R229. -/
structure Queue where
  st : QState
  producer : BitVec 32
  consumer : BitVec 32
  cmplCount : BitVec 32
  cmplHead : BitVec 32
  refusedDb : List (BitVec 32)
  lastPoll : Option Nat
  porter : Option Nat
  fetched : List DescEx
  aheadPages : List Nat
  turns : Nat
  parkedOn : Option (BitVec 32)
  fencing : Option Nat
  dbTimes : List (BitVec 32 × Nat)
  deriving DecidableEq, Repr

/-! ### Requests (R90 to R113, R133 to R141) -/

/-- What a request is, for the rules that tell loads, stores and atomics apart. -/
inductive ReqKind where
  | load | store | flagged | atomic
  deriving DecidableEq, Repr

/-- A request without a final outcome: its requester and descriptor, its frame, and its timeline (R133, R134).
`order` is its place in issue order, `keySlot` the slot whose install seals it (R352), `bytes` how many bytes a store lands, `hpa` the host address a window access
answers. `sentAt` is none while it waits at its queue (R104, R105, R107). `copies` counts copies sent, `counted`
those that count toward the four of R133, `busy` the RETRY_BUSY answers, `lost` the switch-made ones with the last
one's status. `fencedAt` is when its queue or partition was fenced; `earlier` the earliest failure ahead of a held
flagged request (R106). `detached` says that an array reset has taken its descriptor away (R87). -/
structure Request where
  order : Nat
  who : Requester
  desc : Option (BitVec 32)
  kind : ReqKind
  frame : Frame
  keySlot : Option Nat
  page : Option (Byte × Nat)
  bytes : Nat
  hpa : Option Word
  sentAt : Option Nat
  lastSent : Nat
  copies : Nat
  counted : Nat
  busy : Nat
  busyUntil : Option Nat
  lost : Nat
  lastSwitch : Byte
  fencedAt : Option Nat
  earlier : Option (Nat × Byte)
  detached : Bool
  deriving DecidableEq, Repr

/-- A request that completed with OUTCOME_UNKNOWN and is being settled (R137, R139). -/
structure Settlement where
  who : Requester
  descIndex : BitVec 16
  frame : Frame
  t0 : Nat
  lastQuery : Nat
  deriving DecidableEq, Repr

/-- What the host was answered: data, poison, or a completed store (R112, R371). -/
structure HostAnswer where
  hpa : Word
  write : Bool
  data : List Slot
  poisoned : Bool
  deriving DecidableEq, Repr

/-! ### The target (R97 to R103, R120 to R132) -/

/-- A request the target has accepted and not yet answered: the lines still waiting and what a load has read. -/
structure TargetReq where
  id : Nat
  port : Nat
  frame : Frame
  arrived : Nat
  left : Nat
  got : List (Nat × List Byte)
  status : Byte
  result : Nat
  deriving DecidableEq, Repr

/-- An entry of a combining queue, with the end-point port it came by (R97, R114). -/
structure CombEntry where
  id : Nat
  port : Nat
  line : Nat
  kind : ReqKind
  arrived : Nat
  deriving DecidableEq, Repr

/-- The state of a sequence number (R127), with APPLIED told apart for stores and atomics (R138). -/
inductive SeqState where
  | none | pending | appliedStore | appliedAtomic | barred
  deriving DecidableEq, Repr

/-- A stream record of the ledger (R127). -/
structure StreamRec where
  src : Eid
  sid : BitVec 16
  top : Seq
  states : Tbl SeqState
  lastArrival : Nat
  deriving DecidableEq, Repr

/-- A recorded result of an atomic (R127, R132). -/
structure LedgerResult where
  src : Eid
  sid : BitVec 16
  seq : Seq
  value : Nat
  deriving DecidableEq, Repr

/-! ### The switch core (R256 to R289) -/

/-- A frame that waits at a core input: its input, when its header slot was accepted there, by the model's clock and by
the time base (R277, R424), and whether the credits it used are to be returned (R262). -/
structure CoreFrame where
  input : Nat
  at_ : Nat
  tb : Word
  paid : Bool
  frame : Frame
  deriving DecidableEq, Repr

/-- A frame, or one copy of a replicated frame, in the frame buffer: its input, its output (none while held at entry,
R287), the route group it was given, when its header was accepted by the clock and by the time base, its cells, the
number that all copies of one frame share, whether its input's credits are to be returned (R262), whether it is a copy of
a replicated frame, and the VC and detour flag it arrived with. -/
structure Buffered where
  input : Nat
  output : Option Nat
  group : Nat
  dest : Eid
  frame : Frame
  at_ : Nat
  tb : Word
  cells : List Nat
  uid : Nat
  paid : Bool
  copy : Bool
  vcIn : Bool
  detourIn : Bool
  deriving DecidableEq, Repr

/-- One cell of the frame buffer: its free flag, its reference count, and whether the last audit found it neither
free nor referenced (R280). -/
structure BufCell where
  free : Bool
  refs : Nat
  orphan : Bool
  deriving DecidableEq, Repr

/-- The two buckets of a BULK meter (R275): how far each stands below full, in thousandths of a byte, and when they
were last filled. -/
structure Buckets where
  dc : Nat
  dp : Nat
  last : Nat
  deriving DecidableEq, Repr

/-- One live congestion map of an (output, class) (R288, R289). -/
structure Cmap where
  bins : List Nat
  marks : Nat
  samples : Nat
  peak : Nat
  deriving DecidableEq, Repr

/-- A SNAP or SNAP_CLEAR waiting for the next 10 µs boundary (R289). -/
inductive SnapWait where
  | no | snap | snapClear
  deriving DecidableEq, Repr

/-! ### Links (R290 to R316) -/

/-- The states of a port, in the order of the codes 0 to 11 of R305. -/
inductive PortState where
  | down | detect | calibrate | align | fecLock | deskew | linkInit | active | idle | retrain | degraded | lost
  deriving DecidableEq, Repr

/-- A flit held for replay: its control slot and slots as last sent, how often it was sent (R301, R303), and the frames
that end in it, each by its number with the parts it is bound for (R287). -/
structure HeldFlit where
  ctl : Slot
  slots : List Slot
  sends : Nat
  frames : List (Nat × List Nat)
  deriving DecidableEq, Repr

/-- One port's link: its training, its replay, its receiver and its idle directions (R301 to R313). `laneIds` gives each
lane that passed its last training and the number its partner calls it, `active` the lanes in use (R292, R307), `half`
that the training under way is to end at one half again (R307), `eq` the entries applied to the lanes (R309), `beganAt`
when training began (R293), `inited` that LINK_INIT has completed (R302), `initTx` the last flit sent with INIT (R304),
`ackDue` that flits were accepted and not yet acknowledged: 1 for bare ones, 2 where one carried slots, credits or a
time-sync field. `inFrame` holds the slots of the frame in progress, `headAt` and `headTb` when its header slot was
accepted, `cut` the output it is cut through to and `cutUid` the frame's number, `swallow` that an output was lost under
it, and `cutFrom` the input that is cut through to this port (R266). -/
structure Link where
  st : PortState
  sub : PortState
  held : Bool
  rate160 : Bool
  alignFails : Nat
  fails : Nat
  stageAt : Nat
  width : Nat
  laneOk : Byte
  laneIds : List (Nat × Nat)
  active : Byte
  half : Bool
  eq : List (BitVec 128)
  beganAt : Nat
  lanes : Byte
  partnerEp : Bool
  partnerPart : BitVec 12
  partnerPort : BitVec 6
  partnerRx : Byte
  initGot : Bool
  initAcked : Bool
  inited : Bool
  initTx : Option (Slot × List Slot)
  resume : Option (BitVec 12)
  fseq : BitVec 12
  replay : List HeldFlit
  ackAt : Nat
  lastRx : BitVec 12
  nak : Bool
  ackDue : Nat
  inFrame : List Slot
  headAt : Nat
  headTb : Word
  cut : Option Nat
  cutUid : Nat
  swallow : Bool
  cutFrom : Option Nat
  txIdle : Bool
  rxIdle : Bool
  quietSince : Nat
  signalAt : Option Nat
  wokeAt : Option Nat
  lostRetrainAt : Option Nat
  sync : Byte
  deriving DecidableEq, Repr

/-! ### A route run (R218 to R249) -/

/-- Where a ROUTE_RUN stands (R246). -/
inductive RunPhase where
  | rooms | filling | ready | running | saving
  deriving DecidableEq, Repr

/-- A ROUTE_RUN taken up (R229, R243 to R248): its image by address, FA and IMAGE_CRC, its arguments, its passes, its
rooms in the order of the room image, the addresses its queue names for its streams and room images, its seed and stream,
the status a check or an error has given it, whether that error ends it at the end of its pass, and its RESULT while its
rooms are saved. -/
structure RunRec where
  queue : Fin 512
  index : BitVec 32
  phase : RunPhase
  part : Byte
  admitted : Nat
  image : Nat
  fa : Nat
  crc : Nat
  args : List Vec
  passes : Nat
  stripes : Nat
  loadIn : Bool
  saveOut : Bool
  roomSrc : Nat
  roomDst : Nat
  rooms : List Nat
  inAt : Nat
  outAt : Nat
  seeded : Bool
  seed : Nat
  stream : Nat
  status : Byte
  early : Bool
  result : Nat
  deriving DecidableEq, Repr

/-! ### Rope pairs (R200 to R204) -/

/-- A mismatch capture in progress (R202): the run and chunk, both CRCs, the route, whether this part's signatures were
sent, and whether the exchange can no longer complete (R204). -/
structure RopeCapture where
  run : Nat
  chunk : Nat
  localCrc : Word
  partnerCrc : Word
  routeId : BitVec 32
  sent : Bool
  lost : Bool
  beganAt : Nat
  deriving DecidableEq, Repr

/-- A chunk of array output whose CRC awaits comparison (R201): the run, its place in it, its route, its CRC. -/
structure RopeChunk where
  run : Nat
  chunk : Nat
  route : Nat
  crc : Word
  deriving DecidableEq, Repr

/-- What a part of a rope pair sends its partner (R201, R202): a primary its array's inputs, both their chunk CRCs and cell
signatures. -/
inductive RopeOut where
  | input (k : RopeInput)
  | chunkCrc
  | signatures
  deriving DecidableEq, Repr

/-- The rope pair as DBG_ROPE_STATUS shows it (R203), the chunk CRCs not yet compared, the capture in progress, the
mismatch record, what a shadow has received from its primary and not used, what the part has sent, the shadow's run and
what that has put out (R201). `armed` allows the next capture. -/
structure Rope where
  paired : Bool
  held : Bool
  recordValid : Bool
  armed : Bool
  compared : Nat
  runNo : Nat
  chunkNo : Nat
  crcs : List RopeChunk
  capture : Option RopeCapture
  record : List Byte
  shadowBytes : List (RopeInput × List Byte)
  sent : List (RopeOut × List Byte)
  run : Option RunRec
  shadowOut : List Byte
  deriving DecidableEq, Repr

/-! ### The array (R205 to R255) -/

/-- What the array runs: a ROUTE_RUN of a queue, a step of a collective, or a shadow's copy of its primary's run. -/
inductive RunId where
  | route (q : Fin 512) (index : BitVec 32)
  | step (g epoch chunk stage : Nat) (anchor : Bool)
  | rope
  deriving DecidableEq, Repr

/-- A configuration plane (R217, R231, R239): the image it holds, by FA and IMAGE_CRC, its header's figures, the
partition that caused the load and the pages it named the image in (the first and how many), whether a fence or an UNMAP
retired it (R253), the highest STAGE, the active cells, and the cells' slots (by 32 × cell + slot) and switch blocks. -/
structure Plane where
  loaded : Bool
  fa : Nat
  crc : Nat
  routeId : Nat
  loop : Nat
  orderDep : Bool
  part : Byte
  pages : Option (Nat × Nat)
  retired : Bool
  maxStage : Nat
  active : Nat
  slots : Tbl Word
  switch : Tbl (BitVec 512)
  deriving DecidableEq, Repr

/-- A result on its way (R211): the cell and slot that issued it, its destination code and, for a room or scratch word,
the logical address; the cycle of its issue and the one at whose end it is written. -/
structure Pending where
  cell : Nat
  slot : Nat
  dst : Nat
  addr : Nat
  value : Vec
  issued : Nat
  due : Nat
  deriving DecidableEq, Repr

/-- A preload target (R231, R251): the partition, the address it named, and the image's FA and IMAGE_CRC. -/
structure Preload where
  part : Byte
  image : Nat
  fa : Nat
  crc : Nat
  deriving DecidableEq, Repr

/-- The array and its scheduler. `shadow` is 0 EMPTY, 1 LOADING, 2 READY; `limitMs` and `runAt` time the run under way;
`pass`, `slot`, `cycle` say where its loop stands and `issued` which cells have issued in this cycle. `latches` is by
4 × cell + direction, `slices` by 2,560 × cell + word, `bus` by row; `busNext` holds words driven and not yet readable.
`inNext` and `outNext` count the words of IN fetched and of OUT collected (R225). `badRegs`, `badScratch` and `badSlices`
are the words in which the 144/128 code finds an error it cannot correct (R205, R227; log entry 59). `rooms` gives each
granted room one more than its slot, 65 for partition 0. -/
structure ArrayState where
  planeA : Plane
  planeB : Plane
  activeB : Bool
  shadow : Nat
  preload : Option Preload
  runs : List RunRec
  current : Option RunId
  batch : Nat
  batchFa : Nat
  runAt : Nat
  limitMs : Nat
  pass : Nat
  slot : Nat
  cycle : Nat
  issued : List Nat
  regs : Tbl Vec
  latches : Tbl Vec
  bus : Tbl Vec
  busNext : List (Nat × Nat × Vec)
  scratch : Tbl Vec
  slices : Tbl Vec
  idx : Tbl Nat
  sigs : Tbl Nat
  inFifo : Tbl (List Vec)
  outQ : Tbl (List Vec)
  inNext : Nat
  outNext : Nat
  badRegs : List Nat
  badScratch : List Nat
  badSlices : List Nat
  pipe : List Pending
  rooms : Tbl Nat
  lastRow : Nat
  deriving DecidableEq, Repr

/-! ### Collectives (R145 to R178) -/

/-- The fields of a COLL_START that every member gives alike (R153). -/
structure CollCall where
  op : Nat
  operator : Nat
  format : Nat
  root : Nat
  count : Nat
  rooms : Nat
  deriving DecidableEq, Repr

/-- A local member of a collective: its local index, its descriptor, its buffers' FVAs, how many of its chunks were
signalled, its ADMIT_TIMEOUT in ns, and its final status. -/
structure CollMember where
  li : Nat
  queue : Fin 512
  index : BitVec 32
  send : Nat
  recv : Nat
  signal : Nat
  signalled : Nat
  timeout : Nat
  status : Option Byte
  deriving DecidableEq, Repr

/-- A COLL_START that waits for the other local members of its group (R153). -/
structure CollWaiting where
  group : Nat
  call : CollCall
  member : CollMember
  deriving DecidableEq, Repr

/-- One input of a step: its source, the bytes of the form it covers, the rooms it has, whether it was offered, when its
INVITE was sent, what that asked for (offset in the input, bytes, SOURCE_FA; one INVITE for each page), its repeats, the
ranges landed, the checks received (offset, bytes, value), and once verified its place in the order of arrival (R154, R160
to R166). -/
structure CollIn where
  src : Eid
  lo : Nat
  len : Nat
  rooms : List Nat
  offered : Bool
  invitedAt : Option Nat
  asked : List (Nat × Nat × Nat)
  repeats : Nat
  got : List (Nat × Nat)
  checks : List (Nat × Nat × Word)
  arrived : Option Nat
  deriving DecidableEq, Repr

/-- One combining step of a chunk at this part (R156 to R165): its inputs, the round of R163 it is in, what the array
gave for that round, how many bytes are staged, whether the array could not read its rooms (R227), and whether it is done
and its OFFER sent. -/
structure CollStepSt where
  stage : Nat
  anchor : Bool
  inputs : List CollIn
  round : Nat
  ran : Option (List Byte)
  staged : Nat
  bad : Bool
  done : Bool
  offered : Bool
  deriving DecidableEq, Repr

/-- A SEAL awaiting its answer from a member or a part: when last sent, how often repeated or sent after a resend, and
whether OK came. -/
structure SealWait where
  eid : Eid
  sentAt : Nat
  repeats : Nat
  ok : Bool
  deriving DecidableEq, Repr

/-- A chunk in work, whose bytes lie in the staging buffers of its place in the window (R159, R163): its attempt, the
attempts voided, its steps in the order of the plan, whether the block anchors are global and the result exists, with the
CRC taken as it left the array, the ranges of both received in SPREAD and those served to others, the pieces of the result
that wait for a member's page (local index, byte, length), whether the owner's read-back was clean and its SEAL is held
back (log entry 43), the SEAL received, how often this part refused one, and the SEALs sent. -/
structure CollChunk where
  number : Nat
  place : Nat
  attempt : Nat
  voided : Nat
  steps : List CollStepSt
  anchors : Bool
  anchorGot : List (Nat × Nat)
  result : Bool
  got : List (Nat × Nat)
  served : List (Nat × Nat)
  owed : List (Nat × Nat × Nat)
  crc : Word
  readback : Bool
  sealHeld : Bool
  sealFrom : Option Frame
  refused : Nat
  seals : List SealWait
  deriving DecidableEq, Repr

/-- A collective at this part (R153, R163): `staging` are the first buffers of its staging places, 4 for each chunk in the
window. -/
structure Coll where
  group : Nat
  epoch : Nat
  startedAt : Nat
  call : CollCall
  members : List CollMember
  admitted : Option Nat
  depth : Nat
  grant : Nat
  staging : List Nat
  next : Nat
  chunks : List CollChunk
  deriving DecidableEq, Repr

/-- What this part's end-point keeps as a member (R169, R174, R178): the bytes of a chunk's attempt landed in its memory,
the highest attempt voided, the SEALs not yet answered with their times, and whether the chunk was signalled. -/
structure Landed where
  tag : BitVec 16
  epoch : Nat
  chunk : Nat
  attempt : Nat
  ranges : List (Nat × Nat)
  voided : Nat
  seals : List (Frame × Nat)
  signalled : Bool
  deriving DecidableEq, Repr

/-- The caravan: COLL_STARTs waiting for other members, collectives in the order in which they started, collective
frames that came before theirs had started or their chunk was in the window, what the end-point keeps as a member, and how
many inputs were verified. -/
structure CaravanState where
  waiting : List CollWaiting
  colls : List Coll
  early : List Frame
  landed : List Landed
  arrivals : Nat
  deriving DecidableEq, Repr

/-! ### Tenants and keys (R337 to R363) -/

/-- The states of a key slot, in the order of the codes 0 to 5 of R346. -/
inductive SlotState where
  | empty | bound | keyed | active | fenced | clearing
  deriving DecidableEq, Repr

/-- One key slot: its state, rotation, bound partition, generation, install epoch (R346 to R349) and what INSTALL
delivered (R342, R345). `windowEnd` is when the old install stops being accepted. -/
structure KeySlot where
  st : SlotState
  rotation : Nat
  partition : Byte
  generation : Byte
  epoch : BitVec 32
  installed : Bool
  memKey : BitVec 512
  frameKey : BitVec 256
  manifest : List Byte
  windowEnd : Option Nat
  deriving DecidableEq, Repr

/-- A command of SEC_CMD that runs on (R350): its OP and slot, when it began, the end-points that have not answered,
the first status other than OK received. -/
structure SecRun where
  op : Nat
  slot : Nat
  beganAt : Nat
  tag : BitVec 16
  waiting : List Nat
  badStatus : Option Byte
  deriving DecidableEq, Repr

/-- One key session (R343): its transport, the keys and IV salts of both directions, the next message counters, the last
message's time. -/
structure Session where
  via : Transport
  rxKey : BitVec 256
  txKey : BitVec 256
  rxSalt : BitVec 32
  txSalt : BitVec 32
  rx : Nat
  tx : Nat
  last : Nat
  deriving DecidableEq, Repr

/-- A permit held (R357). -/
structure Permit where
  number : BitVec 16
  kind : Byte
  grantor : Byte
  grantee : Byte
  first : Nat
  count : Nat
  deriving DecidableEq, Repr

/-- Tenants, keys and attestation. `lastGen` is one more than the generation a CLOSE last left, by partition (R347);
`sentIv` counts frames sent by their IV fields without COPY (R353); `ivHeld` are frames held at their source, and
`collsUsed` counts by group the collectives started under the present install (R354);
`updates` counts swaps per component (R340); `akDigest` is the keeper's digest the AK was derived from (R337). The enrolment certificate lies
in the non-volatile store (R362). -/
structure TenantState where
  slots : Tbl KeySlot
  lastGen : Tbl Nat
  run : Option SecRun
  heldCmd : Option Word
  sessions : Tbl (Option Session)
  permits : List Permit
  enrolled : Option EnrolCert
  sentIv : Tbl Nat
  ivHeld : List Frame
  collsUsed : Tbl Nat
  updates : Tbl Nat
  identity : Bool
  akDigest : BitVec 384
  deriving DecidableEq, Repr

/-! ### Memory stacks (R317 to R336) -/

/-- The states of a stack, in the order of MEM_STATUS.STATE (codes 0 to 3). -/
inductive StackMode where
  | training | online | fenced | failed
  deriving DecidableEq, Repr

/-- One stack: its state, temperatures, when its fence began and whether the retrain is the repeat (R333, R334), a
retrain that waits, when it was last retrained, and the local line patrol scrub reads next (R330). -/
structure Stack where
  st : StackMode
  temp : Nat
  trainTemp : Nat
  fencedAt : Nat
  repeated : Bool
  wanted : Bool
  lastTrain : Option Nat
  scrubNext : Nat
  deriving DecidableEq, Repr

/-- What a line's tag binds (R324): nothing for a cleared line, the part's own key, or a slot's key under a
generation. The MAC itself is symbolic (log entry 11). -/
inductive LineTag where
  | cleared
  | own
  | tenant (slot : Nat) (generation : Byte)
  deriving DecidableEq, Repr

/-- A line that had an uncorrectable error: when last, and whether it was rewritten whole since (R335). -/
structure BadLine where
  line : Nat
  at_ : Nat
  rewritten : Bool
  deriving DecidableEq, Repr

/-- The memory stacks beside the bytes they hold: erroneous nibbles by codeword number, line tags, the pages of the
running register clear (R329), the pages retired (R335, non-volatile), the lines found bad. -/
structure MemState where
  stackTbl : Tbl Stack
  errs : Tbl Nat
  tags : Tbl LineTag
  regClear : List Nat
  retired : List Nat
  bad : List BadLine
  deriving DecidableEq, Repr

/-! ### Host port, side band, resets, power, time, observation -/

/-- One HDM decoder: base, size, committed, Error Not Committed (R370). -/
structure Decoder where
  base : Word
  size : Word
  committed : Bool
  notCommitted : Bool
  deriving DecidableEq, Repr

/-- Where an answer of the part goes. -/
inductive Channel where
  | sideband | doe | mctp | i3c | pldm | host
  deriving DecidableEq, Repr

/-- An answer the part has given: its channel, the INSTANCE it copies, its status code and body (R376, R342). -/
structure Answer where
  via : Channel
  tag : Byte
  status : Byte
  body : List Byte
  deriving DecidableEq, Repr

/-- The host port (R364 to R374). `cacheReads` are the host lines being read over CXL.cache, each for the target's
request of that number. -/
structure HostPort where
  perst : Bool
  configured : Bool
  linkUp : Bool
  decoders : Tbl Decoder
  vectors : List Nat
  cacheReads : List (Nat × Nat)
  doeBusy : Bool
  deriving DecidableEq, Repr

/-- The side band (R375 to R377): addresses, CAP_SETs not yet applied with their INSTANCE, how many IBIs were raised,
and the answers given on every channel. -/
structure SideBand where
  dynAddr : Option (BitVec 7)
  eid : Byte
  capWaiting : List (Byte × BitVec 16)
  ibis : Nat
  answers : List Answer
  deriving DecidableEq, Repr

/-- The 48 V input (R394, R400, R410). -/
inductive Supply where
  | off | standby (since : Nat) | qualified | above (since : Nat)
  deriving DecidableEq, Repr

/-- Power, bring-up, thermal state and the lease (R383, R384, R392 to R405). `throttle` is how far the part holds work
back to keep the cap: 0 not at all, 1 the array's issue, 2 the porters' too (R408). -/
structure PowerState where
  supply : Supply
  stage : Nat
  failStage : Nat
  failedComps : List Nat
  oos : Bool
  oosCause : Nat
  tripped : Bool
  warn : Bool
  temp : Nat
  clockStep : Nat
  stepAt : Nat
  aboveHot : Bool
  belowCool : Bool
  thermHold : Bool
  cap : Nat
  throttle : Nat
  leaseEnd : Option Nat
  source : Nat
  watts : Nat
  volts : Nat
  amps : Nat
  deriving DecidableEq, Repr

/-- A program image as its slot holds it (R340, R395): VERSION, digest, whether it was verified, how many bytes
RequestFirmwareData has put there, and the values or the library it carries. -/
structure SlotImage where
  version : BitVec 32
  digest : BitVec 384
  verified : Bool
  bytes : Nat
  config : Option Image
  library : List Host.Cell
  deriving DecidableEq, Repr

/-- An activation in progress (R395 to R397): the component, when it began or last swapped a stack, the queues fenced for
it, and the ports or stacks that already run the new image. -/
structure Activation where
  component : Nat
  beganAt : Nat
  fencedQueues : List Nat
  swapped : List Nat
  deriving DecidableEq, Repr

/-- The keeper's service state: reset times per domain (R390), ports retired alone, slots (R396), the event log
(R399), and the total of resets. -/
structure Service where
  resetTimes : Tbl (List Nat)
  totalResets : Nat
  activeB : Byte
  slots : Tbl SlotImage
  activation : Option Activation
  updateFailed : Bool
  log : Tbl (BitVec 256)
  logTotal : Nat
  logNext : Nat
  deriving DecidableEq, Repr

/-- One offset and delay sample of a measurement, in ps, with the local time of t4 (R418). -/
structure Sample where
  at_ : Nat
  offset : Int
  delay : Int
  deriving DecidableEq, Repr

/-- The time block (R417 to R424): a measurement in progress with its exchanges and unanswered ones in a row, the
rate correction in 10^-12, when the counter last strayed more than 2 ns from the parent's, LOCKED, HOLDOVER, the last
TIME_SYNC edge, whether the part has measured since the PWR reset, and the arrival of the last STAMP or ROOT on each port
with whether it was ROOT. `sentAt` is t1 of an exchange under way with the parent, `echo` its t2, `back` its t3 and t4 and
whether the parent sent ROOT, `forMeasure` that it is one of a measurement's; `lastLock` is when the last one of locked
time began. -/
structure TimeState where
  measuring : Bool
  exchanges : Nat
  samples : List Sample
  missed : Nat
  rate : Int
  strayed : Nat
  locked : Bool
  holdover : Bool
  lastEdge : Option Nat
  pulseUntil : Option Nat
  autoDone : Bool
  stamps : Tbl (Word × Bool)
  lastExchange : Nat
  lastLock : Nat
  sentAt : Option Word
  echo : Option Word
  back : Option (Word × Word × Bool)
  forMeasure : Bool
  deriving DecidableEq, Repr

/-- The records of a cairn's section: of each, the figures it gives (R430). -/
abbrev CairnRecs := List (List Nat)

/-- A section of a cairn: its type, flags, offset, length and records (R430). -/
structure CairnSection where
  ty : Nat
  flags : Nat
  offset : Nat
  length : Nat
  records : CairnRecs
  deriving DecidableEq, Repr

/-- A cairn held (R428, R429). -/
structure Cairn where
  number : Nat
  start : Nat
  endTime : Nat
  sections : List CairnSection
  deriving DecidableEq, Repr

/-- Latches, profiling and cairns (R426 to R430). -/
structure ObserveState where
  latchWaiting : Bool
  cairns : List Cairn
  capture : Option (Nat × Nat)
  deriving DecidableEq, Repr

/-! ### The groups of the state -/

/-- Translation and its faults. The pass counts are those of R42; `nextInvalTag` numbers the TAGs of the MGMT frames of
R57 and R363. -/
structure XltState where
  cache : List CacheEntry
  advice : List Advice
  faults : List XltFault
  waitingFaults : List XltFault
  records : List XltFault
  faultPass : Nat
  nextTag : Nat
  withdraws : List Withdraw
  nextInvalTag : BitVec 16
  deriving DecidableEq, Repr

/-- The requesters of the part: requests without a final outcome in issue order, how many requests each stream has
sent (R92) and had sent when a slot's install began (R354, by 1024 × slot + stream), requests being settled,
settlement records waiting for the ring (R141), those held while 4,096 wait, and the host's answers. -/
structure ReqState where
  reqs : List Request
  nextOrder : Nat
  seqs : Tbl Nat
  installFirst : Tbl Nat
  settling : List Settlement
  records : List (BitVec 256)
  settlePass : Nat
  held : List Settlement
  hostAnswers : List HostAnswer
  deriving DecidableEq, Repr

/-- The target side of the end-point: combining queues (R97), requests being applied, frames delivered to an
internal end-point port and not yet taken, the ledger (R127) with copies waiting on a PENDING sequence, and the end
of the quarantine (R142). `queries` keeps when the header of each TIME_QUERY delivered was accepted (R424). -/
structure TargetState where
  arrived : List (Nat × Frame)
  reqs : List TargetReq
  comb : List CombEntry
  nextId : Nat
  lastApply : Tbl Nat
  streams : List StreamRec
  results : List LedgerResult
  waiting : List Frame
  queries : List (Frame × Word)
  quarantineEnd : Option Nat
  deriving DecidableEq, Repr

/-- The switch core: frames its own sources handed over, the frame buffer with its cells, meters, PRBS31 registers,
round-robin places and congestion maps. `lent` counts credits lent from the shared pool (R262), `nextUid` numbers the
frames, `detoured` are the destinations that use their detour group (R281); `draining` says that IN_FLIGHT has been above
zero since DRAINED was last set (R287). -/
structure SwitchState where
  coreIn : List CoreFrame
  buf : List Buffered
  cells : Tbl BufCell
  lent : Tbl Nat
  buckets : Tbl Buckets
  prbs : Tbl Nat
  lastInput : Tbl Nat
  lastClass : Tbl Nat
  turns : Tbl Nat
  cmaps : Tbl Cmap
  cmapRead : Tbl Cmap
  snap : SnapWait
  draining : Bool
  nextUid : Nat
  detoured : List Nat
  deriving DecidableEq, Repr

/-- The part. -/
structure State where
  /-- The commands waiting, first in first out: the model's own. -/
  pending : List Instr
  /-- 48 V is present and the part is not held off (R7, R392). -/
  powered : Bool
  /-- Nanoseconds since the model's start, against which deadlines are measured: the model's own. -/
  clock : Nat
  /-- The time base of R13 and the fraction its rate correction has gathered (R421). -/
  timeBase : Word
  timeFrac : Nat
  /-- How many free values have been taken: the model's own. -/
  freeCtr : Nat
  /-- Every register field that holds a value, by BAR0 offset. -/
  regs : Tbl Word
  /-- Domains in reset, with one more than the time their reset ends (R385). -/
  resets : Tbl Nat
  img : Image
  mem : List Host.Cell
  memory : MemState
  xlt : XltState
  queues : Tbl Queue
  req : ReqState
  tgt : TargetState
  sw : SwitchState
  links : Tbl Link
  /-- Credits this part holds as a sender, and credits it owes its partners, by 16*port + VC (R262). -/
  credit : Tbl Nat
  owed : Tbl Nat
  /-- The always-on counters and their latched copies, by BAR0 offset (R425, R426). -/
  counters : Tbl Nat
  latched : Tbl Nat
  array : ArrayState
  caravan : CaravanState
  rope : Rope
  tenant : TenantState
  host : HostPort
  side : SideBand
  power : PowerState
  service : Service
  time : TimeState
  observe : ObserveState
  /-- What the part has written into host memory over CXL.cache, by host physical address (R365). -/
  hostMem : List Host.Cell
  deriving DecidableEq, Repr

/-! ### Defaults of the tables -/

/-- A queue after a PWR reset (R8, R82). -/
def queue0 : Queue :=
  { st := .idle, producer := 0, consumer := 0, cmplCount := 0, cmplHead := 0, refusedDb := [],
    lastPoll := none, porter := none, fetched := [], aheadPages := [], turns := 0, parkedOn := none, fencing := none,
    dbTimes := [] }

/-- A key slot that is EMPTY. -/
def keySlot0 : KeySlot :=
  { st := .empty, rotation := 0, partition := 0, generation := 0, epoch := 0, installed := false, memKey := 0,
    frameKey := 0, manifest := [], windowEnd := none }

/-- A buffer cell that is free. -/
def bufCell0 : BufCell := { free := true, refs := 0, orphan := false }

/-- A meter's buckets when full. -/
def buckets0 : Buckets := { dc := 0, dp := 0, last := 0 }

/-- A congestion map with nothing counted. -/
def cmap0 : Cmap := { bins := List.replicate 16 0, marks := 0, samples := 0, peak := 0 }

/-- A link in DOWN after a port reset. FSEQ starts at 0 and the receiver expects 0 first (log entry 21). -/
def link0 : Link :=
  { st := .down, sub := .down, held := false, rate160 := false, alignFails := 0, fails := 0, stageAt := 0, width := 0,
    laneOk := 0, laneIds := [], active := 0, half := false, eq := [], beganAt := 0, lanes := 0, partnerEp := false, partnerPart := 0,
    partnerPort := 0, partnerRx := 0, initGot := false, initAcked := false, inited := false, initTx := none,
    resume := none, fseq := 0, replay := [], ackAt := 0, lastRx := 0xFFF, nak := false, ackDue := 0, inFrame := [],
    headAt := 0, headTb := 0, cut := none, cutUid := 0, swallow := false, cutFrom := none, txIdle := false,
    rxIdle := false, quietSince := 0, signalAt := none, wokeAt := none, lostRetrainAt := none, sync := 0 }

/-- A stack after a stack reset: in training (R317, R333). -/
def stack0 : Stack :=
  { st := .training, temp := 0, trainTemp := 0, fencedAt := 0, repeated := false, wanted := false, lastTrain := none,
    scrubNext := 0 }

/-- An empty plane. -/
def plane0 : Plane :=
  { loaded := false, fa := 0, crc := 0, routeId := 0, loop := 0, orderDep := false, part := 0, pages := none,
    retired := false, maxStage := 0, active := 0, slots := [], switch := [] }

/-- The array with both planes empty and nothing held. -/
def array0 : ArrayState :=
  { planeA := plane0, planeB := plane0, activeB := false, shadow := 0, preload := none, runs := [], current := none,
    batch := 0, batchFa := 0, runAt := 0, limitMs := 0, pass := 0, slot := 0, cycle := 0, issued := [], regs := [],
    latches := [], bus := [], busNext := [], scratch := [], slices := [], idx := [], sigs := [], inFifo := [],
    outQ := [], inNext := 0, outNext := 0, badRegs := [], badScratch := [], badSlices := [], pipe := [], rooms := [],
    lastRow := 63 }

/-- The caravan with nothing in flight. -/
def caravan0 : CaravanState := { waiting := [], colls := [], early := [], landed := [], arrivals := 0 }

/-- A decoder that is not committed. -/
def decoder0 : Decoder := { base := 0, size := 0, committed := false, notCommitted := false }

/-- A program image slot that holds nothing. -/
def slotImage0 : SlotImage :=
  { version := 0, digest := 0, verified := false, bytes := 0, config := none, library := [] }

/-! ### The image of State.reset (log entry 3) -/

/-- The route entry toward part `p` of part 0 of the reference rack, 3 × 3 × 2 with part `x + 3y + 9z` at (x, y, z)
(R19, R281): the first axis of X, Y, Z that differs, its shorter way, DATELINE where the hop wraps, no detour. -/
def rackEntry (p : Nat) : Word :=
  let go := fun (plus v : Nat) => if v = 1 then plus else plus + 9
  let primary :=
    if p % 3 ≠ 0 then go 1 (p % 3) else if p / 3 % 3 ≠ 0 then go 3 (p / 3 % 3) else if p / 9 ≠ 0 then 5 else 0
  BitVec.ofNat 64 (0x8700 + primary)

/-- The part at coordinates (x, y, z) of the reference rack as its 16-bit map entry (R272). -/
def rackCoord (k : Nat) : Nat :=
  let x := k % 12
  let y := k / 12 % 12
  let z := k / 144
  if x < 3 ∧ y < 3 ∧ z < 2 then 0x8000 + (x + 3 * y + 9 * z) else 0

/-- Four coordinate entries as one register. -/
def rackCoordWord (j : Nat) : Word :=
  BitVec.ofNat 64 (rackCoord (4 * j) + rackCoord (4 * j + 1) * 2 ^ 16 + rackCoord (4 * j + 2) * 2 ^ 32 +
    rackCoord (4 * j + 3) * 2 ^ 48)

/-- PRT_CFG of the reference tray (R16, R18): ENABLE, 320 Gb/s only, the role, no idle, IDLE_TIME 50. -/
def trayPort (p : Nat) : Word :=
  let role := if p < 16 then 1 else if p < 34 then 2 else 3
  BitVec.ofNat 64 (2 ^ 63 + 2 ^ 61 + role * 2 ^ 56 + 50 * 2 ^ 32)

/-- RTE_LOCAL of the reference tray: four accelerators at four ports each, two ingest end-points. -/
def trayLocal (i : Nat) : Word :=
  BitVec.ofNat 64 (2 ^ 63 + (if i < 5 then 15 * 2 ^ (4 * (i - 1)) else 2 ^ (29 + i)))

/-- The registers of the reset image that hold a value, in rising order. -/
def resetRegs0 : Tbl Word :=
  [(rKprAttn, 0x3F00000000)] ++
  [(rTimCfg, 0x8000000000000000), (rSwcCut, 0xFFFFFFFFF)] ++
  (List.range 8).map (fun c => (rSwcClassCfg c, (0x1FFF02000020 : Word))) ++
  [(rSwcRed 0, (0x20002000000800 : Word)), (rSwcRed 1, 0x40001000000400), (rSwcRed 2, 0x80000400000100)] ++
  (List.range 128).map (fun n => (rSwcMeter n + 8, (0x84000000840 : Word))) ++
  [(rRteSelf, 0x332000000)] ++
  (List.range 6).map (fun i => (rRteLocal (i + 1), trayLocal (i + 1))) ++
  (List.range 18).map (fun p => (rRteEntry p, rackEntry p)) ++
  ([0, 3, 6, 36, 39, 42].map (fun j => (rRteCoord j, rackCoordWord j))) ++
  (List.range 36).map (fun p => (rPrtCfg p, trayPort p)) ++
  (List.range 6).map (fun k => (rMemScrub k, (12 : Word)))

/-- The configuration image of `State.reset`: the reference tray of R18 as part 0 of the reference rack of R19, with
the defaults the spec states (log entry 3). -/
def imageDefault : Image :=
  { regs := resetRegs0, detStrict := false,
    groups := (List.range 18).map (fun i => (16 + i, i / 3 + 1)),
    board := 0, eqTables := [⟨0, 7, 2, []⟩], leaseCap := 600, staticAddr := 0x08, minVersions := [] }

/-- The program images of `State.reset`: VERSION 1 of each in slot A. -/
def imagesDefault : Tbl SlotImage :=
  (List.range 8).map (fun c => (2 * c, ({ slotImage0 with
    version := 1, verified := true, config := if c = 6 then some imageDefault else none } : SlotImage)))

/-! ### The machine right after a PWR reset -/

/-- Every part of the machine that a PWR reset returns to its reset value (R385), under an image. -/
def baseState (img : Image) (regs : Tbl Word) : State :=
  { pending := [], powered := true, clock := 0, timeBase := 0, timeFrac := 0, freeCtr := 0, regs := regs,
    resets := [(Dom.ept.code, 1), (Dom.ary.code, 1)], img := img, mem := [],
    memory := { stackTbl := [], errs := [], tags := [], regClear := [], retired := [], bad := [] },
    xlt := { cache := [], advice := [], faults := [], waitingFaults := [], records := [], faultPass := 0, nextTag := 0,
             withdraws := [], nextInvalTag := 0 },
    queues := [],
    req := { reqs := [], nextOrder := 0, seqs := [], installFirst := [], settling := [], records := [],
             settlePass := 0, held := [], hostAnswers := [] },
    tgt := { arrived := [], reqs := [], comb := [], nextId := 0, lastApply := [], streams := [], results := [],
             waiting := [], queries := [], quarantineEnd := none },
    sw := { coreIn := [], buf := [], cells := [], lent := [], buckets := [], prbs := [], lastInput := [],
            lastClass := [], turns := [], cmaps := [], cmapRead := [], snap := .no, draining := false, nextUid := 0,
            detoured := [] },
    links := [], credit := [], owed := [], counters := [], latched := [], array := array0, caravan := caravan0,
    rope := { paired := false, held := false, recordValid := false, armed := true, compared := 0, runNo := 0,
              chunkNo := 0, crcs := [], capture := none, record := [], shadowBytes := [], sent := [], run := none,
              shadowOut := [] },
    tenant := { slots := [], lastGen := [], run := none, heldCmd := none, sessions := [], permits := [], enrolled := none, sentIv := [],
                ivHeld := [], collsUsed := [], updates := [], identity := false, akDigest := 0 },
    host := { perst := true, configured := false, linkUp := false, decoders := [], vectors := [], cacheReads := [],
              doeBusy := false },
    side := { dynAddr := none, eid := 0, capWaiting := [], ibis := 0, answers := [] },
    power := { supply := .qualified, stage := 1, failStage := 0, failedComps := [], oos := false, oosCause := 0, tripped := false,
               warn := false, temp := 0, clockStep := 0, stepAt := 0,
               aboveHot := false, belowCool := false, thermHold := false, cap := img.leaseCap, throttle := 0, leaseEnd := none,
               source := 2, watts := 0, volts := 0, amps := 0 },
    service := { resetTimes := [], totalResets := 0, activeB := 0, slots := [], activation := none,
                 updateFailed := false, log := [], logTotal := 0, logNext := 0 },
    time := { measuring := false, exchanges := 0, samples := [], missed := 0, rate := 0, strayed := 0, locked := false,
              holdover := false, lastEdge := none, pulseUntil := none, autoDone := false, stamps := [],
              lastExchange := 0, lastLock := 0, sentAt := none, echo := none, back := none, forMeasure := false },
    observe := { latchWaiting := false, cairns := [], capture := none }, hostMem := [] }

/-- The machine right after the PWR reset that ends the input's qualification (R394, R400): the keeper is out of reset in
stage 0x01, the end-point and array domains are in reset until bring-up takes them out, nothing is in memory
(log entry 3). -/
def State.reset : State :=
  let s := baseState imageDefault resetRegs0
  { s with service.slots := imagesDefault }

end Sys2Proof.Machine
end

