-- ==== Sys2Proof/Machine/Crypto.lean ====
section
/-! DEFINITION. The published algorithms the part's keys, tags and seals are made with, over SHA-384 and one block of
AES-256: HMAC and HKDF (R343, R348, R357), XTS and CMAC (R323, R324), GCM (R343, R353). The machine keeps seals and tags as
what they bind (log entries 10 and 11); these are the bytes. -/
namespace Sys2Proof.Machine

/-! ### HMAC and HKDF with SHA-384 -/

/-- The digest of some bytes, byte 0 first. -/
def digest (m : List Byte) : List Byte := bytesOfNat 48 (Config.sha384 m).toNat

/-- A key padded to the hash's block of 128 bytes, each combined with a byte. -/
def keyPad (key : List Byte) (v : Byte) : List Byte := (List.range 128).map (fun i => key.getD i 0 ^^^ v)

/-- HMAC-SHA-384. -/
def hmac384 (key msg : List Byte) : List Byte :=
  let k := if 128 < key.length then digest key else key
  digest (keyPad k 0x5C ++ digest (keyPad k 0x36 ++ msg))

/-- The blocks of HKDF's expansion, from block `i`. -/
def hkdfBlocks (prk info : List Byte) : Nat → Nat → List Byte → List Byte
  | 0, _, _ => []
  | k + 1, i, prev =>
    let t := hmac384 prk (prev ++ info ++ [BitVec.ofNat 8 i])
    t ++ hkdfBlocks prk info k (i + 1) t

/-- HKDF-SHA-384 (RFC 5869): `n` bytes. -/
def hkdf384 (salt ikm info : List Byte) (n : Nat) : List Byte :=
  (hkdfBlocks (hmac384 salt ikm) info (ceilDiv n 48) 1 []).take n

/-- "ZF36-" in ASCII. -/
def zf36 : List Byte := [0x5A, 0x46, 0x33, 0x36, 0x2D]

/-- The frame key of an install (R348): "ZF36-FRAME", the partition, its generation and the install. -/
def frameKeyOf (master : BitVec 256) (p gen : Byte) (e : BitVec 32) : BitVec 256 :=
  BitVec.ofNat 256 (natOfBytes (hkdf384 (List.replicate 48 0) (bytesOfNat 32 master.toNat)
    (zf36 ++ [0x46, 0x52, 0x41, 0x4D, 0x45] ++ [p, gen] ++ bytesOfNat 4 e.toNat) 32))

/-- A session from its ECDH secret and both nonces (R343): HKDF under "ZF36-SESSION". The order of what it derives, the
requester's direction first, keys before salts, is the model's (log entry 80). -/
def newSession (tr : Transport) (secret : List Byte) (theirs ours : BitVec 256) (t : Nat) : Session :=
  let k := hkdf384 (bytesOfNat 32 theirs.toNat ++ bytesOfNat 32 ours.toNat) secret
    (zf36 ++ [0x53, 0x45, 0x53, 0x53, 0x49, 0x4F, 0x4E]) 72
  let part := fun (lo n : Nat) => natOfBytes ((k.drop lo).take n)
  { via := tr, rxKey := BitVec.ofNat 256 (part 0 32), txKey := BitVec.ofNat 256 (part 32 32),
    rxSalt := BitVec.ofNat 32 (part 64 4), txSalt := BitVec.ofNat 32 (part 68 4), rx := 0, tx := 0, last := t }

/-- The MAC of a permit record or of a permit's number under the grantor's frame master key (R357). -/
def permitMac (master : BitVec 256) (msg : List Byte) : List Byte := (hmac384 (bytesOfNat 32 master.toNat) msg).take 16

/-! ### AES-256 in XTS and CMAC (R323, R324) -/

/-- Two byte strings combined byte by byte. -/
def xorBytes (a b : List Byte) : List Byte := a.zipWith (fun x y => x ^^^ y) b

/-- A number of 128 bits doubled in GF(2^128). -/
def double128 (v : Nat) : Nat := if 2 ^ 127 ≤ v then Nat.xor (2 * v % 2 ^ 128) 0x87 else 2 * v

/-- `n` blocks of 16 bytes. -/
def blocks16 (n : Nat) (bs : List Byte) : List (List Byte) := (List.range n).map (fun i => (bs.drop (16 * i)).take 16)

/-- XTS over blocks, from the tweak of the first, a little-endian number. -/
def xtsBlocks (key : BitVec 256) : List (List Byte) → Nat → List Byte
  | [], _ => []
  | b :: t, tweak =>
    let w := bytesOfNat 16 tweak
    xorBytes (Config.aes256 key (xorBytes b w)) w ++ xtsBlocks key t (double128 tweak)

/-- The first and the second XTS key of a memory key. -/
def xtsKey (mem : BitVec 512) : BitVec 256 := mem.setWidth 256
def tweakKey (mem : BitVec 512) : BitVec 256 := (mem >>> (256 : Nat)).setWidth 256

/-- The ciphertext of a line's 256 bytes at an FA: the tweak is FA[63:8] (R323). -/
def lineCipher (mem : BitVec 512) (fa : Nat) (bs : List Byte) : List Byte :=
  xtsBlocks (xtsKey mem) (blocks16 16 bs) (natOfBytes (Config.aes256 (tweakKey mem) (bytesOfNat 16 (fa / 256))))

/-- A big-endian number. -/
def natOfBig (bs : List Byte) : Nat := natOfBytes bs.reverse
def bigBytes (n v : Nat) : List Byte := (bytesOfNat n v).reverse

/-- CMAC (SP 800-38B) of a message. -/
def cmac (key : BitVec 256) (msg : List Byte) : List Byte :=
  let k1 := double128 (natOfBig (Config.aes256 key (List.replicate 16 0)))
  let n := max 1 (ceilDiv msg.length 16)
  let tail := msg.drop (16 * (n - 1))
  let last := if tail.length = 16 then xorBytes tail (bigBytes 16 k1)
    else xorBytes (tail ++ 0x80 :: List.replicate (15 - tail.length) 0) (bigBytes 16 (double128 k1))
  Config.aes256 key (xorBytes
    ((blocks16 (n - 1) msg).foldl (fun c b => Config.aes256 key (xorBytes c b)) (List.replicate 16 0)) last)

/-- The CMAC key of a memory key (R324). -/
def cmacKey (mem : BitVec 512) : BitVec 256 :=
  BitVec.ofNat 256 (natOfBytes (Config.aes256 (xtsKey mem) (List.replicate 16 0x4D) ++
    Config.aes256 (xtsKey mem) (List.replicate 16 0x41)))

/-- The cleared tag (R324). -/
abbrev clearedTag : Nat := 2 ^ 64 - 1

/-- The tag of a line (R324): the first 64 bits of the MAC over its ciphertext, FA, key generation and slot, which is 0xFF
under the part's own key; the cleared tag is never one. -/
def lineTagWord (mem : BitVec 512) (fa : Nat) (gen slot : Byte) (cipher : List Byte) : Nat :=
  let m := natOfBytes ((cmac (cmacKey mem) (cipher ++ bytesOfNat 8 fa ++ [gen, slot])).take 8)
  if m = clearedTag then clearedTag - 1 else m

/-! ### AES-256-GCM (R343, R353) -/

/-- A product in GCM's field: numbers whose most significant bit is the first. -/
def gcmMul (x y : Nat) : Nat :=
  ((List.range 128).foldl (fun (z : Nat × Nat) i =>
    let acc := if x / 2 ^ (127 - i) % 2 = 1 then Nat.xor z.1 z.2 else z.1
    let v := if z.2 % 2 = 1 then Nat.xor (z.2 / 2) (0xE1 * 2 ^ 120) else z.2 / 2
    (acc, v)) (0, y)).1

/-- Bytes filled up with zeros to whole blocks. -/
def padBlocks (bs : List Byte) : List Byte := bs ++ List.replicate ((16 - bs.length % 16) % 16) 0

/-- GHASH of whole blocks under a hash key. -/
def ghash (h : Nat) (bs : List Byte) : Nat :=
  (blocks16 (bs.length / 16) bs).foldl (fun y b => gcmMul (Nat.xor y (natOfBig b)) h) 0

/-- The counter block after another: its low 32 bits count. -/
def inc32 (c : Nat) : Nat := c / 2 ^ 32 * 2 ^ 32 + (c + 1) % 2 ^ 32

/-- The first counter block of an IV: 12 bytes with a 1, any other length by GHASH (SP 800-38D). -/
def gcmStart (h : Nat) (iv : List Byte) : Nat :=
  if iv.length = 12 then natOfBig iv * 2 ^ 32 + 1
  else ghash h (padBlocks iv ++ bigBytes 16 (8 * iv.length))

/-- The key stream's blocks over a text. -/
def gcmStream (key : BitVec 256) : List (List Byte) → Nat → List Byte
  | [], _ => []
  | b :: t, c => xorBytes b (Config.aes256 key (bigBytes 16 c)) ++ gcmStream key t (inc32 c)

/-- A sealed text and its tag. -/
def gcmSeal (key : BitVec 256) (iv aad plain : List Byte) : List Byte × List Byte :=
  let h := natOfBig (Config.aes256 key (List.replicate 16 0))
  let j := gcmStart h iv
  let cipher := gcmStream key (blocks16 (ceilDiv plain.length 16) plain) (inc32 j)
  let s := ghash h (padBlocks aad ++ padBlocks cipher ++ bigBytes 8 (8 * aad.length) ++ bigBytes 8 (8 * cipher.length))
  (cipher, xorBytes (bigBytes 16 s) (Config.aes256 key (bigBytes 16 j)))

/-- The IV of a session's message: its direction's salt and its counter (R343; the counter's byte order is the model's,
log entry 80). -/
def sessionIv (salt : BitVec 32) (counter : Nat) : List Byte := bytesOfNat 4 salt.toNat ++ bytesOfNat 8 counter

/-- The IV of a frame (R353). -/
def frameIv (f : Frame) (copy : Byte) (e : BitVec 32) : List Byte :=
  bytesOfNat 2 f.src.toNat ++ bytesOfNat 2 f.dst.toNat ++ bytesOfNat 2 f.stream.toNat ++ bytesOfNat 3 f.seq.toNat ++
    [f.ty.setWidth 8, f.be, copy] ++ bytesOfNat 6 f.off.toNat ++ bytesOfNat 4 e.toNat

end Sys2Proof.Machine
end

