-- ==== Sys2Proof/Machine/RegTable.lean ====
section
/-! DEFINITION. The field tables of the BAR0 registers: for each decoded offset its block, its reset domain and its
fields with their access types and reset forms (R6, R8, R433). -/
namespace Sys2Proof.Machine

/-- The access types of R6. -/
inductive Acc where
  | ro | rw | wo | w1c | w1s | rws | rwl
  deriving DecidableEq, Repr

/-- The forms of a Reset column (R8). A field with a number always has the number 0 here: the part's only other ones,
KPR_PART_ID's and KPR_PCAP.SOURCE's, are computed on a read. -/
inductive Rst where
  | zero | img | live | held
  deriving DecidableEq, Repr

/-- One field of a register table. -/
structure FieldDesc where
  hi : Nat
  lo : Nat
  acc : Acc
  rst : Rst
  deriving DecidableEq, Repr

/-- One register: its block's owner bit, its reset domain, its fields without the reserved ones. -/
structure RegDesc where
  blk : Nat
  dom : Dom
  fields : List FieldDesc
  deriving DecidableEq, Repr

/-- `n` one-bit flags of type W1C from bit 0. -/
def w1cFlags (n : Nat) : List FieldDesc := [⟨n - 1, 0, .w1c, .zero⟩]

/-- KPR registers (R397, R399, R404, and the tables of chapters 14 and 15). -/
def kprDesc (o : Nat) : Option RegDesc :=
  if o = rKprStatus then some ⟨0, .pwr, [⟨63, 0, .ro, .live⟩]⟩
  else if o = rKprPartId then some ⟨0, .pwr, [⟨63, 0, .ro, .live⟩]⟩
  else if o = rKprMode then some ⟨0, .kpr, [⟨0, 0, .rws, .held⟩]⟩
  else if o = rKprOwn then some ⟨0, .kpr, [⟨13, 0, .ro, .img⟩]⟩
  else if o = rKprAttn then some ⟨0, .kpr, [⟨37, 32, .rw, .img⟩, ⟨5, 0, .w1c, .zero⟩]⟩
  else if o = rKprPcap then some ⟨0, .kpr, [⟨63, 0, .ro, .live⟩]⟩
  else if o = rKprReset then some ⟨0, .kpr, [⟨16, 8, .wo, .zero⟩, ⟨2, 0, .wo, .zero⟩]⟩
  else if o = rKprEsc then some ⟨0, .pwr, [⟨63, 0, .ro, .live⟩]⟩
  else if o = rKprPrtRetired then some ⟨0, .pwr, [⟨35, 0, .w1c, .zero⟩]⟩
  else if o = rKprSlots then some ⟨0, .pwr, [⟨63, 0, .ro, .live⟩]⟩
  else if o = rKprLogHead then some ⟨0, .pwr, [⟨63, 0, .ro, .live⟩]⟩
  else if rKprLog ≤ o ∧ o < 0x3000 then some ⟨0, .pwr, [⟨63, 0, .ro, .live⟩]⟩
  else none

/-- HST registers (R367, R369 to R372). -/
def hstDesc (o : Nat) : Option RegDesc :=
  if o < 0x110000 then some ⟨1, .ept, [⟨63, 0, .ro, .live⟩]⟩
  else if o = rHstStatus then some ⟨1, .ept, [⟨63, 32, .ro, .zero⟩, ⟨5, 0, .w1c, .zero⟩]⟩
  else if o = rHstErrA then
    some ⟨1, .ept, [⟨63, 63, .w1c, .zero⟩, ⟨62, 61, .ro, .zero⟩, ⟨57, 48, .ro, .zero⟩, ⟨23, 0, .ro, .zero⟩]⟩
  else if o = rHstErrB then some ⟨1, .ept, [⟨63, 0, .ro, .zero⟩]⟩
  else if 0x110100 ≤ o ∧ o < 0x110140 ∧ o % 16 = 0 then
    some ⟨1, .ept, [⟨63, 63, .rw, .zero⟩, ⟨55, 48, .rw, .zero⟩, ⟨33, 0, .rw, .zero⟩]⟩
  else if rHstMsix ≤ o ∧ o < rHstPba then some ⟨1, .ept, [⟨63, 0, .rw, .zero⟩]⟩
  else if rHstPba ≤ o ∧ o < 0x128100 then some ⟨1, .ept, [⟨63, 0, .ro, .zero⟩]⟩
  else none

/-- SEC registers (R339, R346, R350). -/
def secDesc (o : Nat) : Option RegDesc :=
  if o = rSecStatus then some ⟨2, .pwr, [⟨63, 63, .ro, .live⟩, ⟨58, 56, .ro, .live⟩, ⟨6, 0, .w1c, .zero⟩]⟩
  else if o = rSecCmd then some ⟨2, .pwr, [⟨63, 22, .wo, .zero⟩]⟩
  else if o = rSecCmdStatus then some ⟨2, .pwr, [⟨63, 63, .ro, .live⟩, ⟨55, 44, .ro, .zero⟩]⟩
  else if o = rSecDeviceId then some ⟨2, .pwr, [⟨63, 0, .ro, .live⟩]⟩
  else if rSecSlot 0 ≤ o ∧ o < rSecSlot 64 then
    some ⟨2, .pwr, [⟨63, 61, .ro, .live⟩, ⟨60, 60, .rw, .zero⟩, ⟨58, 57, .ro, .live⟩, ⟨55, 0, .ro, .live⟩]⟩
  else none

/-- TIM registers (chapter 17). -/
def timDesc (o : Nat) : Option RegDesc :=
  if o = rTimNow then some ⟨3, .pwr, [⟨63, 0, .ro, .live⟩]⟩
  else if o = rTimCfg then some ⟨3, .pwr, [⟨63, 61, .rw, .img⟩, ⟨53, 48, .rw, .img⟩]⟩
  else if o = rTimCtl then some ⟨3, .pwr, [⟨1, 0, .wo, .zero⟩]⟩
  else if o = rTimStatus then some ⟨3, .pwr, [⟨63, 61, .ro, .live⟩, ⟨3, 0, .w1c, .zero⟩]⟩
  else if o = rTimOffset ∨ o = rTimRate ∨ o = rTimMeasTime ∨ o = rTimPulse then
    some ⟨3, .pwr, [⟨63, 0, .ro, .zero⟩]⟩
  else none

/-- SWC registers (R260, R266, R275, R276, R280, R289). -/
def swcDesc (o : Nat) : Option RegDesc :=
  if o = rSwcStatus then some ⟨4, .pwr, [⟨63, 63, .w1s, .zero⟩, ⟨7, 0, .w1c, .zero⟩]⟩
  else if o = rSwcLeakAudit then some ⟨4, .pwr, [⟨63, 0, .ro, .zero⟩]⟩
  else if o = rSwcCut then some ⟨4, .pwr, [⟨35, 0, .rwl, .img⟩]⟩
  else if o = rSwcCmapCtl then some ⟨4, .pwr, [⟨63, 32, .ro, .zero⟩, ⟨1, 0, .wo, .zero⟩]⟩
  else if rSwcClassCfg 0 ≤ o ∧ o < rSwcClassCfg 8 then
    some ⟨4, .pwr, [⟨47, 16, .rwl, .img⟩, ⟨7, 0, .rwl, .img⟩]⟩
  else if rSwcRed 0 ≤ o ∧ o < rSwcRed 3 then
    some ⟨4, .pwr, [⟨55, 48, .rw, .img⟩, ⟨43, 24, .rw, .img⟩, ⟨19, 0, .rw, .img⟩]⟩
  else if rSwcMeter 0 ≤ o ∧ o < rSwcMeter 128 then
    if o % 16 = 0 then some ⟨4, .pwr, [⟨63, 16, .rw, .img⟩, ⟨0, 0, .rw, .img⟩]⟩
    else some ⟨4, .pwr, [⟨63, 0, .rw, .img⟩]⟩
  else if rSwcCmap 0 ≤ o ∧ o < rSwcCmap 48 then some ⟨4, .pwr, [⟨63, 0, .ro, .live⟩]⟩
  else none

/-- RTE registers (R272, R281 to R283, R287). -/
def rteDesc (o : Nat) : Option RegDesc :=
  if o = rRteSelf then some ⟨5, .pwr, [⟨59, 24, .rwl, .img⟩]⟩
  else if o = rRteStatus then some ⟨5, .pwr, [⟨63, 16, .ro, .live⟩, ⟨2, 0, .w1c, .zero⟩]⟩
  else if rRteLocal 0 ≤ o ∧ o < rRteLocal 16 then
    some ⟨5, .pwr, [⟨63, 63, .rwl, .img⟩, ⟨62, 62, .ro, .live⟩, ⟨35, 0, .rwl, .img⟩]⟩
  else if rRteEntry 0 ≤ o ∧ o < rRteEntry 4096 then
    some ⟨5, .pwr, [⟨16, 16, .rw, .zero⟩, ⟨15, 15, .rw, .img⟩, ⟨11, 8, .rw, .img⟩, ⟨3, 0, .rw, .img⟩]⟩
  else if rRteCoord 0 ≤ o ∧ o < rRteCoord 432 then
    some ⟨5, .pwr, [⟨63, 63, .rwl, .img⟩, ⟨59, 47, .rwl, .img⟩, ⟨43, 31, .rwl, .img⟩, ⟨27, 15, .rwl, .img⟩,
      ⟨11, 0, .rwl, .img⟩]⟩
  else none

/-- PRT registers of one port (R305 to R315). -/
def prtDesc (o : Nat) : Option RegDesc :=
  let p := (o - 0x1000000) / 0x10000
  let r := (o - 0x1000000) % 0x10000
  if 36 ≤ p then none
  else if r = 0 then
    some ⟨6, .prt p, [⟨63, 58, .rw, .img⟩, ⟨57, 56, .ro, .img⟩, ⟨55, 55, .rw, .img⟩, ⟨47, 32, .rw, .img⟩]⟩
  else if r = 0x08 then some ⟨6, .prt p, [⟨2, 0, .wo, .zero⟩]⟩
  else if r = 0x10 then some ⟨6, .prt p, [⟨63, 46, .ro, .live⟩, ⟨43, 32, .ro, .live⟩, ⟨29, 24, .ro, .live⟩,
      ⟨5, 0, .w1c, .zero⟩]⟩
  else if r = 0x20 then some ⟨6, .prt p, [⟨63, 58, .rw, .zero⟩, ⟨55, 48, .rw, .zero⟩]⟩
  else if r = 0x28 then some ⟨6, .prt p, [⟨63, 0, .ro, .zero⟩]⟩
  else if 0x30 ≤ r ∧ r < 0x70 then
    some ⟨6, .prt p, [⟨63, 63, .ro, .live⟩, ⟨62, 62, .w1c, .zero⟩, ⟨47, 0, .ro, .zero⟩]⟩
  else none

/-- EPT registers (R33, R41 to R44, R140, R141, R351). -/
def eptDesc (o : Nat) : Option RegDesc :=
  if rXltRoot 0 ≤ o ∧ o < rXltRoot 64 then some ⟨7, .ept, [⟨47, 18, .rw, .zero⟩, ⟨0, 0, .rw, .zero⟩]⟩
  else if o = rFaultRing ∨ o = rSettleRing then
    some ⟨7, .ept, [⟨63, 63, .rw, .zero⟩, ⟨51, 12, .rw, .zero⟩, ⟨7, 4, .rw, .zero⟩, ⟨0, 0, .rw, .zero⟩]⟩
  else if o = rFaultPtrs ∨ o = rSettlePtrs then
    some ⟨7, .ept, [⟨43, 32, .rw, .zero⟩, ⟨11, 0, .ro, .zero⟩]⟩
  else if o = rResume then some ⟨7, .ept, [⟨17, 0, .wo, .zero⟩]⟩
  else if o = rXltStatus then
    some ⟨7, .ept, [⟨47, 32, .ro, .live⟩, ⟨31, 16, .ro, .zero⟩, ⟨3, 0, .w1c, .zero⟩]⟩
  else if o = rLedgerStatus then
    some ⟨7, .ept, [⟨63, 31, .ro, .live⟩, ⟨7, 7, .ro, .live⟩, ⟨3, 0, .w1c, .zero⟩]⟩
  else if rPageOwn 0 ≤ o ∧ o < rPageOwn 184 then
    some ⟨7, .pwr, [⟨63, 60, .ro, .zero⟩, ⟨55, 48, .ro, .zero⟩, ⟨45, 40, .ro, .zero⟩]⟩
  else none

/-- POR registers (R59 to R64 and the engine status of chapter 18). -/
def porDesc (o : Nat) : Option RegDesc :=
  if o < 0x1580000 then
    if (o - 0x1500000) % 0x10000 = 0 then
      some ⟨8, .ary, [⟨63, 63, .ro, .live⟩, ⟨57, 48, .ro, .live⟩, ⟨31, 0, .ro, .zero⟩]⟩
    else none
  else if o < 0x1588000 then
    let r := (o - 0x1580000) % 0x40
    if r = 0 then some ⟨8, .ary, [⟨63, 63, .rws, .held⟩, ⟨55, 32, .rws, .held⟩, ⟨26, 16, .rws, .held⟩]⟩
    else if r = 0x08 ∨ r = 0x10 then
      some ⟨8, .ary, [⟨63, 63, .rws, .held⟩, ⟨51, 12, .rws, .held⟩, ⟨3, 0, .rws, .held⟩]⟩
    else if r = 0x18 then some ⟨8, .ary, [⟨63, 61, .ro, .live⟩, ⟨58, 56, .w1c, .zero⟩, ⟨55, 48, .ro, .zero⟩,
      ⟨31, 0, .ro, .live⟩]⟩
    else if r = 0x20 then some ⟨8, .ary, [⟨63, 0, .ro, .live⟩]⟩
    else if r = 0x28 then some ⟨8, .ary, [⟨39, 0, .ro, .live⟩]⟩
    else if r = 0x30 then some ⟨8, .ary, [⟨2, 0, .wo, .zero⟩]⟩
    else some ⟨8, .ary, [⟨55, 52, .rws, .held⟩, ⟨47, 3, .rws, .held⟩]⟩
  else none

/-- CVN registers (R150, R162, R177). -/
def cvnDesc (o : Nat) : Option RegDesc :=
  if o = rCvnStatus then some ⟨9, .ary, [⟨55, 32, .ro, .live⟩, ⟨6, 0, .w1c, .zero⟩]⟩
  else if rRoomQuota 0 ≤ o ∧ o < rRoomQuota 64 then
    some ⟨9, .ary, [⟨44, 32, .ro, .live⟩, ⟨28, 16, .rws, .held⟩, ⟨12, 0, .rws, .held⟩]⟩
  else if rGroup 0 ≤ o ∧ o < rGroup 256 then
    let r := o % 0x20
    if r = 0 then some ⟨9, .ary, [⟨63, 62, .rws, .held⟩, ⟨55, 32, .rws, .held⟩, ⟨26, 24, .rws, .held⟩,
      ⟨14, 0, .rws, .held⟩]⟩
    else if r = 8 then some ⟨9, .ary, [⟨59, 36, .rws, .held⟩]⟩
    else if r = 0x10 then some ⟨9, .ary, [⟨7, 0, .ro, .held⟩]⟩
    else some ⟨9, .ary, []⟩
  else none

/-- ARY registers (R234 to R236). -/
def aryDesc (o : Nat) : Option RegDesc :=
  if o = rAryStatus then some ⟨10, .ary, [⟨63, 48, .ro, .live⟩, ⟨4, 0, .w1c, .zero⟩]⟩
  else if o = rArySched then some ⟨10, .ary, [⟨23, 0, .rws, .held⟩]⟩
  else if o = rAryPlanes then some ⟨10, .ary, [⟨63, 0, .ro, .live⟩]⟩
  else none

/-- MEM registers (R329 to R336). -/
def memDesc (o : Nat) : Option RegDesc :=
  let k := (o - 0x1800000) / 0x10000
  let r := (o - 0x1800000) % 0x10000
  if k < 6 then
    if r = 0 then some ⟨11, .stk k, [⟨63, 54, .ro, .live⟩, ⟨47, 40, .ro, .live⟩, ⟨6, 0, .w1c, .zero⟩]⟩
    else if r = 8 then some ⟨11, .stk k, [⟨63, 63, .w1c, .zero⟩, ⟨62, 52, .ro, .zero⟩, ⟨47, 32, .ro, .zero⟩]⟩
    else if r = 0x10 then some ⟨11, .stk k, [⟨47, 0, .ro, .zero⟩]⟩
    else if r = 0x18 then some ⟨11, .stk k, [⟨63, 32, .ro, .zero⟩, ⟨7, 0, .rw, .img⟩]⟩
    else if r = 0x20 then some ⟨11, .stk k, [⟨0, 0, .wo, .zero⟩]⟩
    else if r = 0x28 then some ⟨11, .stk k, [⟨63, 50, .rw, .zero⟩, ⟨47, 4, .rw, .zero⟩]⟩
    else none
  else if o = rMemClearCmd then some ⟨11, .ept, [⟨16, 0, .wo, .zero⟩]⟩
  else if o = rMemClearStatus then
    some ⟨11, .ept, [⟨63, 63, .ro, .live⟩, ⟨47, 40, .ro, .live⟩, ⟨1, 0, .w1c, .zero⟩]⟩
  else if rMemRetired 0 ≤ o ∧ o < rMemRetired 3 then some ⟨11, .pwr, [⟨63, 0, .ro, .live⟩]⟩
  else none

/-- Whether an offset from 0x0191_0000 to 0x0196_FFFF names an always-on counter (R425). -/
def isCounter (o : Nat) : Bool :=
  if 0x1910000 ≤ o ∧ o < 0x1912400 then
    let r := (o - 0x1910000) % 0x100
    decide (r ≤ 0x20 ∨ (0x40 ≤ r ∧ r < 0xC0))
  else if 0x1920000 ≤ o ∧ o < 0x1920200 then decide ((o - 0x1920000) % 0x40 ≤ 0x10)
  else if o = 0x1921000 ∨ o = 0x1921008 then true
  else if 0x1930000 ≤ o ∧ o ≤ 0x1930028 then true
  else if 0x1940000 ≤ o ∧ o < 0x1940180 then decide ((o - 0x1940000) % 0x40 ≤ 0x20)
  else if 0x1950000 ≤ o ∧ o ≤ 0x1950038 then true
  else decide (0x1960000 ≤ o ∧ o ≤ 0x1960010)

/-- Whether an offset names a profiling selection (R427). -/
def isProfSel (o : Nat) : Bool :=
  decide (rProfSel 0 0 ≤ o ∧ o < rProfSel 14 0 ∧ (o - rProfSel 0 0) % 0x400 < 0x200)

/-- Whether an offset names a profiling count (R427). -/
def isProfCount (o : Nat) : Bool :=
  decide (rProfSel 0 0 ≤ o ∧ o < rProfSel 14 0 ∧ 0x200 ≤ (o - rProfSel 0 0) % 0x400)

/-- CNT registers (R425 to R427). -/
def cntDesc (o : Nat) : Option RegDesc :=
  if o = rCntCtl then some ⟨12, .pwr, [⟨63, 32, .ro, .zero⟩, ⟨1, 0, .wo, .zero⟩]⟩
  else if rBlockEvents 0 ≤ o ∧ o < rBlockEvents 14 then some ⟨12, .pwr, [⟨63, 0, .ro, .live⟩]⟩
  else if isCounter o || isProfCount o then some ⟨12, .pwr, [⟨63, 0, .ro, .live⟩]⟩
  else if isProfSel o then
    some ⟨12, .pwr, [⟨63, 63, .rw, .zero⟩, ⟨55, 32, .rw, .zero⟩, ⟨7, 0, .rw, .zero⟩]⟩
  else if 0x1980000 ≤ o ∧
      (isCounter (o - 0x80000) || isProfCount (o - 0x80000) ||
        decide (rBlockEvents 0 ≤ o - 0x80000 ∧ o - 0x80000 < rBlockEvents 14)) = true then
    some ⟨12, .pwr, [⟨63, 0, .ro, .live⟩]⟩
  else none

/-- DBG registers (R200, R203, R429). -/
def dbgDesc (o : Nat) : Option RegDesc :=
  if o = rCairnCtl then some ⟨13, .kpr, [⟨63, 63, .rw, .zero⟩, ⟨31, 0, .ro, .zero⟩]⟩
  else if o = rCairnReq then some ⟨13, .kpr, [⟨0, 0, .wo, .zero⟩]⟩
  else if o = rRopeCfg then some ⟨13, .ary, [⟨63, 61, .rws, .held⟩, ⟨53, 48, .rws, .held⟩, ⟨43, 32, .rws, .held⟩]⟩
  else if o = rRopeStatus then
    some ⟨13, .ary, [⟨63, 32, .ro, .live⟩, ⟨4, 2, .ro, .live⟩, ⟨1, 0, .w1c, .zero⟩]⟩
  else if o = rRopeCtl then some ⟨13, .ary, [⟨1, 0, .wo, .zero⟩]⟩
  else if rRopeRecord ≤ o ∧ o < 0x1A11440 then some ⟨13, .ary, [⟨63, 0, .ro, .live⟩]⟩
  else none

/-- The register at an 8-byte aligned offset, where one is decoded (R433, R436). -/
def regDesc (o : Nat) : Option RegDesc :=
  if o % 8 ≠ 0 then none
  else if o < 0x3000 then kprDesc o
  else if 0x100000 ≤ o ∧ o < 0x128100 then hstDesc o
  else if 0x200000 ≤ o ∧ o < 0x201200 then secDesc o
  else if 0x300000 ≤ o ∧ o < 0x300040 then timDesc o
  else if 0x400000 ≤ o ∧ o < 0x41C000 then swcDesc o
  else if 0x500000 ≤ o ∧ o < 0x520D80 then rteDesc o
  else if 0x1000000 ≤ o ∧ o < 0x1240000 then prtDesc o
  else if 0x1400000 ≤ o ∧ o < 0x14045C0 then eptDesc o
  else if 0x1500000 ≤ o ∧ o < 0x1588000 then porDesc o
  else if 0x1600000 ≤ o ∧ o < 0x1612000 then cvnDesc o
  else if 0x1700000 ≤ o ∧ o < 0x1700018 then aryDesc o
  else if 0x1800000 ≤ o ∧ o < 0x1860028 then memDesc o
  else if 0x1900000 ≤ o ∧ o < 0x19F3800 then cntDesc o
  else if 0x1A00000 ≤ o ∧ o < 0x1A11440 then dbgDesc o
  else none

/-- The bits of a register whose fields pass a test. -/
def fieldMask (p : FieldDesc → Bool) (l : List FieldDesc) : Word :=
  l.foldl (fun m f => if p f then m ||| maskOf f.hi f.lo else m) 0

/-- The bits a reset of the register's own domain keeps: the held fields (R8). -/
def heldMask (d : RegDesc) : Word := fieldMask (fun f => decide (f.rst = .held)) d.fields

/-- The bits a reset of the register's own domain loads from the image (R8). -/
def imgMask (d : RegDesc) : Word := fieldMask (fun f => decide (f.rst = .img)) d.fields

/-- What a write leaves in a register by its access types alone (R6): RW, RWS and unlocked RWL fields take the value,
W1C bits written 1 are cleared, W1S bits written 1 are set, RO and WO fields and reserved bits stay. -/
def accessWrite (fields : List FieldDesc) (locked : Bool) (old v : Word) : Word :=
  let wr := fieldMask (fun f => decide (f.acc = .rw ∨ f.acc = .rws ∨ (f.acc = .rwl ∧ locked = false))) fields
  let wc := fieldMask (fun f => decide (f.acc = .w1c)) fields
  let ws := fieldMask (fun f => decide (f.acc = .w1s)) fields
  (((old &&& ~~~wr) ||| (v &&& wr)) &&& ~~~(v &&& wc)) ||| (v &&& ws)

end Sys2Proof.Machine
end

