-- ==== Sys2Proof/Machine/Ops.lean ====
section
/-! DEFINITION. The named operations over the state that the meanings share: powered effect, registers, resets,
memory, counters, free values, answers, the event log. -/
namespace Sys2Proof.Machine

/-- The outcome of a command whose effect is `f`. A part without power takes no command: the command leaves the state
as it is (R392, R394; log entry 2). -/
def act (s : State) (f : State → State) : Host.Outcome State Fault Refusal :=
  .next (if s.powered then f s else s)

/-- A part of an effect that happens only under a condition. -/
def whenTrue (b : Bool) (f : State → State) (s : State) : State := if b then f s else s

/-! ### Registers and counters -/

/-- The value a register holds. -/
def getReg (o : Nat) (s : State) : Word := tblGet 0 s.regs o

/-- A register with a new value. -/
def putReg (o : Nat) (v : Word) (s : State) : State := { s with regs := tblSet 0 s.regs o v }

/-- One field of a register. -/
def getField (o hi lo : Nat) (s : State) : Nat := wfield (getReg o s) hi lo

/-- A register with one field replaced. -/
def putField (o hi lo x : Nat) (s : State) : State := putReg o (setField (getReg o s) hi lo x) s

/-- One bit of a register. -/
def getBit (o i : Nat) (s : State) : Bool := wbit (getReg o s) i

/-- An always-on counter, which wraps modulo 2^64 (R425). -/
def bump (a n : Nat) (s : State) : State :=
  { s with counters := tblSet 0 s.counters a ((tblGet 0 s.counters a + n) % 2 ^ 64) }

/-- A gauge of R425 set to a value. -/
def putGauge (a n : Nat) (s : State) : State := { s with counters := tblSet 0 s.counters a n }

/-- BLOCK_EVENT_COUNT of a block increments (R425, R437, R439). -/
def blockEvent (b : Nat) (s : State) : State := bump (rBlockEvents b) 1 s

/-! ### Profiling counters (R427) -/

/-- A selection counts an event of a sort: ENABLE, EVENT, PARTITION or 0xFF, INSTANCE or 0xFFFF. -/
def profSelects (w : Word) (inst part ev : Nat) : Bool :=
  wbit w 63 && decide (wfield w 7 0 = ev) && decide (wfield w 55 48 = part ∨ wfield w 55 48 = 0xFF) &&
    decide (wfield w 47 32 = inst ∨ wfield w 47 32 = 0xFFFF)

/-- The counts of a block that an event of a sort moves. -/
def profHits (b inst part ev : Nat) (s : State) : List Nat :=
  (s.regs.filter (fun e => decide (rProfSel b 0 ≤ e.1 ∧ e.1 < rProfSel b 64) && profSelects e.2 inst part ev)).map
    (fun e => e.1 + 0x200)

/-- An event counts `n` in every profiling counter that selects it. -/
def prof (b inst part ev n : Nat) (s : State) : State := (profHits b inst part ev s).foldl (fun s o => bump o n s) s

/-- The events counted where they happen: items in, items out, bytes (log entry 44). -/
abbrev evIn : Nat := 2
abbrev evOut : Nat := 3
abbrev evBytes : Nat := 4

/-- A message or command of a block, taken and done. -/
def profItem (b : Nat) (s : State) : State := prof b 0 0 evOut 1 (prof b 0 0 evIn 1 s)

/-- The owner bits of the blocks (R380, R433). -/
abbrev bKPR : Nat := 0
abbrev bHST : Nat := 1
abbrev bSEC : Nat := 2
abbrev bTIM : Nat := 3
abbrev bSWC : Nat := 4
abbrev bRTE : Nat := 5
abbrev bPRT : Nat := 6
abbrev bEPT : Nat := 7
abbrev bPOR : Nat := 8
abbrev bCVN : Nat := 9
abbrev bARY : Nat := 10
abbrev bMEM : Nat := 11
abbrev bCNT : Nat := 12
abbrev bDBG : Nat := 13

/-! ### Domains and readiness -/

/-- A domain is in reset (R385). -/
def inReset (d : Dom) (s : State) : Bool := decide (tblGet 0 s.resets d.code ≠ 0)

/-- When a domain's reset ends: none if it is not in reset. -/
def resetEnd (d : Dom) (s : State) : Option Nat :=
  match tblGet 0 s.resets d.code with
  | 0 => none
  | n + 1 => some n

/-- The stage code of the last stage (R401). -/
abbrev stageReady : Nat := 0x0D

/-- KPR_STATUS.READY: bring-up has ended (R401, R404). -/
def isReady (s : State) : Bool := decide (s.power.stage = stageReady)

/-- Array issue is held: the part is too hot (R392) or PWR_WARN_N is asserted (R393). -/
def issueHeld (s : State) : Bool := s.power.thermHold || s.power.warn

/-- The array's issue is at zero: it is held, or the part lowers it to keep the power cap (R408). -/
def issueStopped (s : State) : Bool := issueHeld s || decide (s.power.throttle ≠ 0)

/-- A component's swap is under way (R396). -/
def swapping (c : Nat) (s : State) : Bool :=
  match s.service.activation with
  | some a => decide (a.component = c)
  | none => false

/-! ### What a rope pair's primary sends (R201) -/

/-- A component does no new work: its swap is under way (R396), or both its slots failed in bring-up (R403). -/
def compStopped (c : Nat) (s : State) : Bool := swapping c s || s.power.failedComps.contains c

/-- The porters issue no new frame: under PWR_WARN_N (R393), while their command processors do no work (R396, R403), or where
array issue at zero does not keep the cap (R408). -/
def porterStopped (s : State) : Bool := s.power.warn || compStopped 4 s || decide (s.power.throttle = 2)

/-- Strict mode is set (R197). -/
def strictMode (s : State) : Bool := getBit rKprMode 0 s

/-- This part's ID (R20). -/
def partId (s : State) : BitVec 12 := BitVec.ofNat 12 (getField rRteSelf 59 48 s)

/-- The EID of this part's end-point at a local index (R20). -/
def selfEid (l : Nat) (s : State) : Eid := BitVec.ofNat 16 ((partId s).toNat * 16 + l)

/-- The CXL link is in L0 (R374). -/
def cxlUp (s : State) : Bool := s.host.linkUp

/-! ### Time -/

/-- The time base as it stands (R13). -/
def now (s : State) : Word := s.timeBase

/-- A deadline measured on the model's clock has come. -/
def due (t : Nat) (s : State) : Bool := decide (t ≤ s.clock)

/-! ### Free values -/

/-- A value the spec does not state: the next one of the run (log entry 5). -/
def takeFree (s : State) : Word × State :=
  (Config.freeValue s.freeCtr, { s with freeCtr := s.freeCtr + 1 })

/-! ### Answers and the event log -/

/-- An answer given on a channel; one in the DOE stands in the mailbox until it is read or aborted. -/
def answer (via : Channel) (tag status : Byte) (body : List Byte) (s : State) : State :=
  { s with side.answers := s.side.answers ++ [⟨via, tag, status, body⟩],
           host.doeBusy := s.host.doeBusy || decide (via = .doe) }

/-- One 32-byte entry of the event log (R399). -/
def logEntry (t : Word) (blk inst kind : Nat) (status part : Byte) (detail : BitVec 128) : BitVec 256 :=
  BitVec.ofNat 256 (t.toNat + (blk % 256) * 2 ^ 64 + (inst % 256) * 2 ^ 72 + (kind % 256) * 2 ^ 80 +
    status.toNat * 2 ^ 88 + part.toNat * 2 ^ 96 + detail.toNat * 2 ^ 128)

/-- Writes one entry into the event log, which holds the last 256 (R399). -/
def logEvent (blk inst kind : Nat) (status part : Byte) (detail : BitVec 128) (s : State) : State :=
  let e := logEntry (now s) blk inst kind status part detail
  { s with service.log := tblSet 0 s.service.log s.service.logNext e,
           service.logNext := (s.service.logNext + 1) % 256,
           service.logTotal := (s.service.logTotal + 1) % 2 ^ 32 }

/-! ### Memory of local index 0 -/

/-- The regions of R23. -/
abbrev tenantEnd : Nat := 0x2E00000000
abbrev privEnd : Nat := 0x2E80000000
abbrev tagEnd : Nat := 0x3000000000
abbrev apertureBase : Nat := 0x800000000000
abbrev pageSize : Nat := 0x40000000
/-- The cairn area (R429). -/
abbrev cairnBase : Nat := 0x2E58000000
abbrev cairnSize : Nat := 0x1000000

/-- The section of a held cairn that covers a byte of the cairn area, and the byte's offset in it. -/
def cairnSectionByte (s : State) (a : Nat) : Option (CairnSection × Nat) :=
  if cairnBase ≤ a ∧ a < cairnBase + 4 * cairnSize then
    (s.observe.cairns.find? (fun c => decide (c.number % 4 = (a - cairnBase) / cairnSize))).bind (fun c =>
      let o := (a - cairnBase) % cairnSize
      (c.sections.find? (fun x => decide (x.offset ≤ o ∧ o < x.offset + x.length))).map (fun x => (x, o - x.offset)))
  else none

/-- One byte of the part's memory. A byte nothing has written reads 0, as after the region clear of bring-up (R327,
R401). The records of a held cairn's sections have no stated layout: their bytes are free values of their figures
(R430). -/
def memByte (s : State) (a : Nat) : Byte :=
  match cairnSectionByte s a with
  | some (x, o) => Config.cairnByte x.ty x.records o
  | none => tblGet 0 s.mem a

/-- `n` bytes of memory from an offset, in ascending order. -/
def readMem (s : State) (a n : Nat) : List Byte := (List.range n).map (fun i => memByte s (a + i))

/-- A little-endian number of `n` bytes of memory. -/
def readNat (s : State) (a n : Nat) : Nat := natOfBytes (readMem s a n)

/-- The memory with some bytes written from an offset. -/
def writeCells : List Byte → Nat → List Host.Cell → List Host.Cell
  | [], _, m => m
  | b :: t, a, m => writeCells t (a + 1) (tblSet 0 m a b)

/-- The memory with some bytes written at offsets from a base. -/
def setCells (base : Nat) : List (Nat × Byte) → List Host.Cell → List Host.Cell
  | [], m => m
  | (i, b) :: t, m => setCells base t (tblSet 0 m (base + i) b)

/-- Writes bytes from an offset. -/
def writeMem (a : Nat) (bs : List Byte) (s : State) : State := { s with mem := writeCells bs a s.mem }

/-- Clears a range: every byte in it reads 0 (R327). -/
def clearMem (lo hi : Nat) (s : State) : State :=
  { s with mem := tblKeep (fun a => !(decide (lo ≤ a ∧ a < hi))) s.mem }

/-- Writes bytes into host memory over CXL.cache (R365): what the part wrote last stays visible here. -/
def writeHost (a : Nat) (bs : List Byte) (s : State) : State :=
  { s with hostMem := writeCells bs a s.hostMem }

/-! ### Status codes (R440) -/

abbrev stOk : Byte := 0x00
abbrev stRetryBusy : Byte := 0x01
abbrev stUnknown : Byte := 0x02
abbrev stUnreachable : Byte := 0x03
abbrev stDenied : Byte := 0x04
abbrev stFault : Byte := 0x05
abbrev stClosed : Byte := 0x06
abbrev stIntegrity : Byte := 0x07
abbrev stUncorrectable : Byte := 0x08
abbrev stStrict : Byte := 0x09
abbrev stChunkVoid : Byte := 0x0A
abbrev stMemberLost : Byte := 0x0B
abbrev stAged : Byte := 0x0C
abbrev stMalformed : Byte := 0x0D
abbrev stKeyStale : Byte := 0x0E
abbrev stOos : Byte := 0x0F
abbrev stExhausted : Byte := 0x10
abbrev stReleased : Byte := 0x11

/-! ### Frames -/

/-- Frame types (R90, R120, R137, R257). -/
abbrev tyLoad : BitVec 6 := 0x01
abbrev tyStore : BitVec 6 := 0x02
abbrev tyFlagged : BitVec 6 := 0x03
abbrev tyAtomic : BitVec 6 := 0x04
abbrev tyLoadRsp : BitVec 6 := 0x05
abbrev tyStoreAck : BitVec 6 := 0x06
abbrev tyAtomicRsp : BitVec 6 := 0x07
abbrev tyCollData : BitVec 6 := 0x08
abbrev tyCollResult : BitVec 6 := 0x09
abbrev tyRoomCall : BitVec 6 := 0x0A
abbrev tySeal : BitVec 6 := 0x0B
abbrev tyVoid : BitVec 6 := 0x0C
abbrev tyBulk : BitVec 6 := 0x0D
abbrev tyBulkAck : BitVec 6 := 0x0E
abbrev tyMgmt : BitVec 6 := 0x0F
abbrev tyQuery : BitVec 6 := 0x10
abbrev tyStatusRsp : BitVec 6 := 0x11

/-- Classes (R257). -/
abbrev clMgmt : BitVec 3 := 0
abbrev clReq : BitVec 3 := 1
abbrev clRsp : BitVec 3 := 2
abbrev clColl : BitVec 3 := 3
abbrev clCall : BitVec 3 := 4
abbrev clBulk : BitVec 3 := 5
abbrev clTime : BitVec 3 := 6
abbrev clDiag : BitVec 3 := 7

/-- A frame with every field zero, from which frames are filled. -/
def blankFrame : Frame :=
  { dst := 0, src := 0, ty := 0, cls := 0, vc := false, len := 0, flagged := false, strict := false, mcast := false,
    detour := false, enc := false, colour := 0, part := 0, keyGen := 0, stream := 0, seq := 0, off := 0, be := 0,
    hop := 0, age := 0, swRsp := false, turn := 0, mslot := 0, data := [], sealed := none, crcOk := true }

/-- The local index of an EID (R20). -/
def localIndex (e : Eid) : Nat := e.toNat % 16

/-- The part ID of an EID (R20). -/
def eidPart (e : Eid) : Nat := e.toNat / 16

/-- The slots a frame takes on the wire: header, multicast slot, data slots, trailer (R258). A LOAD and the time and
query frames carry no slot whatever LENGTH says (R90). -/
def wireSlots (f : Frame) : Nat :=
  1 + bit1 f.mcast + (if f.ty = tyLoad then 0 else f.len.toNat) + bit1 f.enc

/-- The cells a frame takes in the frame buffer (R260). -/
def frameCells (f : Frame) : Nat := ceilDiv (wireSlots f) 8

/-- Hands a frame of the part's own to a core input (R259), where FRAME_INGRESS takes it up. -/
def sendCore (input : Nat) (f : Frame) (s : State) : State :=
  { s with sw.coreIn := s.sw.coreIn ++ [⟨input, s.clock, now s, true, f⟩] }

/-- The response type of a request type (R90, R120, R137). -/
def rspType (ty : BitVec 6) : BitVec 6 :=
  if ty = tyLoad then tyLoadRsp else if ty = tyAtomic then tyAtomicRsp
  else if ty = tyBulk then tyBulkAck else if ty = tyQuery then tyStatusRsp else tyStoreAck

/-- Whether a type is one that a switch core answers in the target's place (R278). -/
def isRequestType (ty : BitVec 6) : Bool :=
  decide (ty = tyLoad ∨ ty = tyStore ∨ ty = tyFlagged ∨ ty = tyAtomic ∨ ty = tyBulk ∨ ty = tyQuery)

/-- The response to a request, its header filled as R91 lays down. -/
def responseTo (f : Frame) (status : Byte) (data : List Slot) : Frame :=
  { blankFrame with
    dst := f.src, src := f.dst, ty := rspType f.ty, cls := clRsp, len := BitVec.ofNat 7 data.length,
    strict := f.strict, part := f.part, keyGen := f.keyGen, stream := f.stream, seq := f.seq, off := f.off,
    be := status, data := data }

/-- A response a switch core makes: no data slots, SW_RSP set, never encrypted (R278, R352). -/
def switchAnswer (f : Frame) (status : Byte) : Frame := { responseTo f status [] with swRsp := true }

end Sys2Proof.Machine
end

