-- ==== Sys2Proof/Machine/Flags.lean ====
section
/-! DEFINITION. Status flags: raising one, the vector, ATTN_N and In-Band Interrupt that follow, and what a write may
clear (R6, R369, R379, R439). -/
namespace Sys2Proof.Machine

/-- The MSI-X vector whose source a flag is (R369), apart from KPR_ATTN's. -/
def flagVector (o bit : Nat) : Option Nat :=
  if o = rXltStatus ∧ bit = 0 then some 1
  else if o = rLedgerStatus ∧ bit = 0 then some 2
  else if o = rSecStatus ∧ bit = 0 then some 3
  else if o = rAryStatus ∧ bit = 0 then some 4
  else if o = rCvnStatus ∧ bit = 0 then some 5
  else if 0x1000000 ≤ o ∧ o < 0x1240000 ∧ o % 0x10000 = 0x10 ∧ bit = 1 then some 6
  else if 0x1800000 ≤ o ∧ o < 0x1860000 ∧ o % 0x10000 = 0 ∧ bit = 2 then some 7
  else if o = rHstStatus ∧ (bit = 0 ∨ bit = 3) then some 8
  else none

/-- Raises an MSI-X vector towards the host. -/
def raiseVector (v : Nat) (s : State) : State := { s with host.vectors := s.host.vectors ++ [v] }

/-- Raises vector 0 and the In-Band Interrupt (R369, R375). -/
def raiseAttn (s : State) : State :=
  let s := raiseVector 0 s
  { s with side.ibis := s.side.ibis + 1 }

/-- Sets a flag. A vector follows only where the flag goes from 0 to 1 (R369); a flag of KPR_ATTN raises vector 0
and the IBI if its enable bit is 1 (R379). -/
def setFlag (o bit : Nat) (s : State) : State :=
  if getBit o bit s then s
  else
    let s := putReg o (getReg o s ||| placeBit bit true) s
    if o = rKprAttn then (if getBit rKprAttn (32 + bit) s then raiseAttn s else s)
    else
      match flagVector o bit with
      | some v => raiseVector v s
      | none => s

/-- A flag, and a count of an ignored or refused action in its block. -/
def refuse (blk o bit : Nat) (s : State) : State := blockEvent blk (setFlag o bit s)

/-- The bits of KPR_ATTN (R379). -/
abbrev attnWarn : Nat := 0
abbrev attnThermal : Nat := 1
abbrev attnOos : Nat := 2
abbrev attnReplace : Nat := 3
abbrev attnLease : Nat := 4
abbrev attnCairn : Nat := 5

/-- ATTN_N is asserted while an enabled bit of KPR_ATTN is set (R379). -/
def attnPin (s : State) : Bool :=
  decide (getField rKprAttn 5 0 s &&& getField rKprAttn 37 32 s ≠ 0)

/-- Whether a side may write a block now: READY for the host except KPR, HST and SEC (R373), then ownership (R380).
`true` in the first place says the access came too early. -/
inductive Gate where
  | early | denied | held | go
  deriving DecidableEq, Repr

/-- The side band owns a block, or the register is one that always belongs to it (R380). -/
def sidebandOwns (blk : Nat) (s : State) : Bool := getBit rKprOwn blk s

/-- The checks 2 and 3 of R437 on a write, after R373's for the host. `fixed` says that the register always belongs
to the side band (R380). -/
def gate (side : Side) (blk : Nat) (fixed : Bool) (d : Dom) (s : State) : Gate :=
  match side with
  | .host =>
    if !(isReady s) && !(decide (blk = bKPR ∨ blk = bHST ∨ blk = bSEC)) then .early
    else if fixed || sidebandOwns blk s then .denied
    else if inReset d s then .held else .go
  | .sideband =>
    if !(fixed || sidebandOwns blk s) then .denied
    else if inReset d s then .held else .go

/-- An access refused before READY (R373). A register of a domain in reset keeps its reset value (R438). -/
def refuseEarly (s : State) : State :=
  if inReset .ept s then s else setFlag rHstStatus 2 (putField rHstStatus 47 32 (satAdd 65535 (getField rHstStatus 47 32 s) 1) s)

/-- A host write dropped as not owned (R381). A register of a domain in reset keeps its reset value (R438). -/
def refuseDenied (s : State) : State :=
  if inReset .ept s then s else setFlag rHstStatus 3 (putField rHstStatus 63 48 (satAdd 65535 (getField rHstStatus 63 48 s) 1) s)

/-- A register write that passes the checks of R373, R381 and R437 takes its effect; one that fails is counted as
they say. A refused side-band write changes nothing here: REG_WRITE gives its answer. -/
def guarded (side : Side) (blk : Nat) (fixed : Bool) (d : Dom) (s : State) (f : State → State) : State :=
  match gate side blk fixed d s with
  | .early => refuseEarly s
  | .denied => match side with
    | .host => refuseDenied s
    | .sideband => answer .sideband 0 stDenied [] s
  | .held => blockEvent blk s
  | .go => f s

end Sys2Proof.Machine
end

