-- ==== Sys2Proof/Machine/Slots.lean ====
section
/-! DEFINITION. Partitions on this part: the slot a partition is bound in, its flags, the page record, what the
target and the requesters ask of them (R345 to R358). -/
namespace Sys2Proof.Machine

/-- A key slot. -/
def getSlot (n : Nat) (s : State) : KeySlot := tblGet keySlot0 s.tenant.slots n

/-- A key slot with a new value. -/
def putSlot (n : Nat) (k : KeySlot) (s : State) : State :=
  { s with tenant.slots := tblSet keySlot0 s.tenant.slots n k }

/-- The slot a partition is bound in: the first that is not EMPTY. -/
def partSlot (p : Byte) (s : State) : Option Nat :=
  (s.tenant.slots.find? (fun e => decide (e.2.st ≠ .empty ∧ e.2.partition = p))).map (·.1)

/-- The slot's record of a partition. -/
def slotRec (p : Byte) (s : State) : Option KeySlot := (partSlot p s).map (fun n => getSlot n s)

/-- A partition is active on this part: its slot is ACTIVE; partition 0 always is (R60). -/
def partitionActive (p : Byte) (s : State) : Bool :=
  decide (p = 0) || (match slotRec p s with
    | some k => decide (k.st = .active)
    | none => false)

/-- Some tenant partition is active on this part (R197). -/
def anyActive (s : State) : Bool := s.tenant.slots.any (fun e => decide (e.2.st = .active))

/-- One flag of a manifest's FLAGS byte (R345): 0 STRICT, 1 HOST_WINDOW, 2 HOST_APERTURE, 3 ROPE. -/
def manifestFlag (m : List Byte) (i : Nat) : Bool := (m.getD 5 0).getLsbD i

/-- A partition may reach host memory from its queues and rings (R357). -/
def hostGranted (p : Byte) (s : State) : Bool :=
  decide (p = 0) || (match partSlot p s with
    | some n => getBit (rSecSlot n) 60 s && manifestFlag (getSlot n s).manifest 2
    | none => false)

/-- A partition consents to HDM windows (R357). -/
def windowGranted (p : Byte) (s : State) : Bool :=
  decide (p = 0) || (match slotRec p s with
    | some k => manifestFlag k.manifest 1
    | none => false)

/-- The page states of R351. -/
abbrev pgFree : Nat := 0
abbrev pgOwned : Nat := 1
abbrev pgClearing : Nat := 2
abbrev pgUnusable : Nat := 3

/-- The state, the SHARED bit and the owner of a tenant page (R351). -/
def pageState (i : Nat) (s : State) : Nat := getField (rPageOwn i) 63 61 s
def pageShared (i : Nat) (s : State) : Bool := getBit (rPageOwn i) 60 s
def pagePartition (i : Nat) (s : State) : Byte := BitVec.ofNat 8 (getField (rPageOwn i) 55 48 s)
def pageSlot (i : Nat) (s : State) : Nat := getField (rPageOwn i) 45 40 s

/-- A page's record (R351). -/
def putPage (i st : Nat) (shared : Bool) (p : Byte) (slot : Nat) (s : State) : State :=
  putReg (rPageOwn i)
    (place 63 61 st ||| placeBit 60 shared ||| place 55 48 p.toNat ||| place 45 40 slot) s

/-- A page with only its state changed. -/
def setPageState (i st : Nat) (s : State) : State := putField (rPageOwn i) 63 61 st s

/-- The pages a slot's partition owns on this part. -/
def ownedPages (slot : Nat) (s : State) : List Nat :=
  (List.range 184).filter (fun i => decide (pageState i s = pgOwned ∧ pageSlot i s = slot))

/-- An install epoch a slot accepts frames under (R349). -/
def acceptsEpoch (k : KeySlot) (e : BitVec 32) : Bool :=
  decide (e = k.epoch) || (decide (k.rotation = 1) && decide (e = k.epoch + 1)) ||
    (decide (k.rotation = 2) && decide (e + 1 = k.epoch))

/-- The end-points attached and in service: VALID in RTE_LOCAL with a port ACTIVE or DEGRADED (R283). -/
def linkOf (p : Nat) (s : State) : Link := tblGet link0 s.links p

def portUp (p : Nat) (s : State) : Bool :=
  decide ((linkOf p s).st = .active ∨ (linkOf p s).st = .degraded)

/-- A link that may be given frames (R268): not LOST, DOWN, RETRAIN or in training; IDLE counts as usable (R305). -/
def portUsable (p : Nat) (s : State) : Bool :=
  portUp p s || decide ((linkOf p s).st = .idle)

/-- The ports of an RTE_LOCAL entry. -/
def localPorts (i : Nat) (s : State) : List Nat :=
  (List.range 36).filter (fun p => getBit (rRteLocal i) p s)

/-- Memory is served: no stack failed its training, and the stack sequencers run (R403). -/
def memoryServed (s : State) : Bool :=
  s.memory.stackTbl.all (fun e => !(decide (e.2.st = .failed))) && !(s.power.failedComps.contains 2)

/-- IN_SERVICE of a local index; every page spans all stacks, so without one of them index 0 is not served (R283,
R403). -/
def inService (i : Nat) (s : State) : Bool :=
  if i = 0 then !(inReset .ept s) && isReady s && memoryServed s
  else decide (i < 15) && getBit (rRteLocal i) 63 s && (localPorts i s).any (fun p => portUp p s)

/-- The local indices of the attached end-points in service. -/
def attached (s : State) : List Nat := ((List.range 15).filter (fun i => decide (i ≠ 0) && inService i s))

/-- A MGMT frame of one data slot from the keeper to an attached end-point (R57, R363). -/
def mgmtTo (i : Nat) (data : Slot) (s : State) : State :=
  sendCore 47
    { blankFrame with dst := selfEid i s, src := selfEid 0 s, ty := tyMgmt, cls := clMgmt, len := 1, data := [data],
                      strict := strictMode s } s

/-- The data slot of R57: OPCODE, PARTITION, TAG, PAGES, FVA, STATUS. -/
def mgmtSlot (op : Nat) (p : Byte) (tag : BitVec 16) (pages : Nat) (fva : Nat) (status : Byte) : Slot :=
  BitVec.ofNat 256 (op % 256 + p.toNat * 2 ^ 8 + tag.toNat * 2 ^ 16 + (pages % 2 ^ 32) * 2 ^ 32 +
    (fva % 2 ^ 64) * 2 ^ 64 + status.toNat * 2 ^ 128)

end Sys2Proof.Machine
end

