-- ==== Sys2Proof/Machine/Keeper.lean ====
section
/-! DEFINITION. The keeper's channels: when the side band and the DOE mailbox answer (R373, R375, R385, R401, R403), and
the key sessions over both (R342, R343). -/
namespace Sys2Proof.Machine

/-- Stage codes of R401 and R403. -/
abbrev stageConfig : Nat := 0x03
abbrev stageRecovery : Nat := 0xE0
abbrev stageNoConfig : Nat := 0xE1

/-- The keeper runs: its domain is out of reset. -/
def keeperRuns (s : State) : Bool := !(inReset .kpr s)

/-- The side band serves every message: MCTP is served from STAGE 0x03, and it is silent in a KPR reset. -/
def sidebandUp (s : State) : Bool :=
  keeperRuns s && decide (stageConfig ≤ s.power.stage ∧ s.power.stage ≤ stageReady)

/-- The side band serves MCTP control: also in RECOVERY and NO_CONFIG (R403). -/
def mctpControlUp (s : State) : Bool :=
  sidebandUp s || (keeperRuns s && decide (s.power.stage = stageRecovery ∨ s.power.stage = stageNoConfig))

/-- REG_READ is served: also in NO_CONFIG (R403). -/
def regReadUp (s : State) : Bool := sidebandUp s || (keeperRuns s && decide (s.power.stage = stageNoConfig))

/-- The DOE mailbox is served: the host port is configured and its link up, and the keeper runs (R368, R373, R385). -/
def doeUp (s : State) : Bool := keeperRuns s && s.host.configured && s.host.linkUp

/-- A transport of key delivery is served (R342). -/
def transportUp : Transport → State → Bool
  | .doe, s => doeUp s
  | .mctp, s => sidebandUp s

/-- The channel answers go out on. -/
def transportChannel : Transport → Channel
  | .doe => .doe
  | .mctp => .mctp

/-- An answer to a key delivery message. -/
def keyAnswer (tr : Transport) (st : Byte) (body : List Byte) (s : State) : State :=
  answer (transportChannel tr) 0 st body s

/-- A key session. -/
def getSession (i : Nat) (s : State) : Option Session := tblGet none s.tenant.sessions i

def putSession (i : Nat) (v : Option Session) (s : State) : State :=
  { s with tenant.sessions := tblSet none s.tenant.sessions i v }

/-- The sessions open (R343, SEC_STATUS.SESSIONS). -/
def sessionCount (s : State) : Nat := ((List.range 4).filter (fun i => (getSession i s).isSome)).length

/-- A session ends on an error (R343). -/
def failSession (i : Nat) (s : State) : State := setFlag rSecStatus 1 (putSession i none s)

/-- The sessions of a transport end, or all of them. -/
def dropSessions (p : Session → Bool) (s : State) : State :=
  (List.range 4).foldl (fun s i => match getSession i s with
    | some x => if p x then putSession i none s else s
    | none => s) s

/-- A sealed message of a session: it takes effect with a tag that verifies under the next counter; anything else ends
the session (R343). Before READY the DOE answers it with RETRY_BUSY (R373). A message of no session is not answered. -/
def sealedMessage (env : Envelope) (f : Transport → State → State) (s : State) : State :=
  match getSession env.session.val s with
  | none => s
  | some x =>
    if !(transportUp x.via s) then s
    else if x.via = .doe ∧ isReady s = false then keyAnswer .doe stRetryBusy [] s
    else if env.tagOk = false ∨ env.counter.toNat ≠ x.rx then failSession env.session.val s
    else f x.via (putSession env.session.val (some { x with rx := x.rx + 1, tx := x.tx + 1, last := s.clock }) s)

/-- A sealed message answered with a status. -/
def sealedStatus (env : Envelope) (f : State → Byte × State) (s : State) : State :=
  sealedMessage env (fun tr s =>
    let (st, s) := f s
    keyAnswer tr st [st] s) s

end Sys2Proof.Machine
end

