-- ==== Sys2Proof/Machine/Memory.lean ====
section
/-! DEFINITION. The memory of local index 0, line by line: where a line lies (R318, R319), its guard code and tag
(R320, R321, R325), the error log (R322), page retirement (R335), injection (R336), and reading and writing it. -/
namespace Sys2Proof.Machine

/-! ### Where a line lies (R318, R319) -/

/-- The fabric line of an offset, its stack and its local line. -/
abbrev lineOf (off : Nat) : Nat := off / 256
abbrev lineStack (l : Nat) : Nat := l % 6
abbrev localLine (l : Nat) : Nat := l / 6
/-- The channel of its stack a line lies on, all 16 codewords of it (R317, R318). -/
abbrev lineChannel (l : Nat) : Nat := localLine l % 16

/-- The first local line of the tag region in every stack. -/
abbrev tagBase : Nat := 130023424

/-- The offset of a line's tag word (R319). -/
def tagOffset (l : Nat) : Nat := 256 * (6 * (tagBase + localLine l / 32) + lineStack l) + 8 * (localLine l % 32)

/-- A stack's record. -/
def getStack (k : Nat) (s : State) : Stack := tblGet stack0 s.memory.stackTbl k
def putStack (k : Nat) (v : Stack) (s : State) : State := { s with memory.stackTbl := tblSet stack0 s.memory.stackTbl k v }

/-! ### Guard code (R320, R321) -/

/-- The erroneous nibbles of a codeword, as a mask of 36 bits. -/
def codeErrs (cw : Nat) (s : State) : Nat := tblGet 0 s.memory.errs cw

/-- The erroneous nibbles of a mask, lowest first. -/
def nibblesOf (m : Nat) : List Nat := (List.range 36).filter (fun i => decide ((m / 2 ^ i) % 2 = 1))

/-- The codewords of a line. -/
def lineWords (l : Nat) : List Nat := (List.range 16).map (fun i => 16 * l + i)

/-- A codeword's error is confined to one nibble. -/
def correctable (m : Nat) : Bool := decide ((nibblesOf m).length = 1)

/-- The codewords of a line with a correctable error, and the first with an uncorrectable one. -/
def softWords (l : Nat) (s : State) : List Nat := (lineWords l).filter (fun c => correctable (codeErrs c s))
def hardWord (l : Nat) (s : State) : Option Nat :=
  (lineWords l).find? (fun c => decide (1 < (nibblesOf (codeErrs c s)).length))

/-- The erroneous nibbles of the codeword of a line's tag; lines of the tag region have no tag (R319). -/
def tagErrs (l : Nat) (s : State) : Nat := if 256 * l < privEnd then codeErrs (tagOffset l / 16) s else 0

/-- The line's tag word has an uncorrectable error. -/
def badTagWord (l : Nat) (s : State) : Bool := decide (1 < (nibblesOf (tagErrs l s)).length)

/-! ### Keys and tags (R323 to R325) -/

/-- The key a line is stored under now (R323): its page's slot, or the part's own. -/
def lineKey (l : Nat) (s : State) : LineTag :=
  let page := 256 * l / pageSize
  if page < 184 ∧ pageState page s = pgOwned ∧ pageShared page s = false then
    .tenant (pageSlot page s) (getSlot (pageSlot page s) s).generation
  else .own

/-- A line's tag. -/
def lineTag (l : Nat) (s : State) : LineTag := tblGet .cleared s.memory.tags l

/-- The line's MAC fails (R325): it was written under another key or generation. -/
def macFails (l : Nat) (s : State) : Bool :=
  decide (256 * l < privEnd ∧ lineTag l s ≠ .cleared ∧ lineTag l s ≠ lineKey l s)

/-- The status of reading a line (R325): uncorrectable, integrity, or OK. -/
def lineStatus (l : Nat) (s : State) : Byte :=
  if (hardWord l s).isSome || badTagWord l s then stUncorrectable else if macFails l s then stIntegrity else stOk

/-! ### Retirement (R335) -/

/-- A page is retired. -/
def pageRetired (p : Nat) (s : State) : Bool := s.memory.retired.contains p

/-- Retires a page: recorded in the non-volatile store, reported by the stack that found it. One that nobody owns is
UNUSABLE at once (R335; log entry 79). -/
def retirePage (k p : Nat) (s : State) : State :=
  if pageRetired p s then s
  else
    let s := { s with memory.retired := s.memory.retired ++ [p] }
    let s := if pageState p s = pgFree then setPageState p pgUnusable s else s
    logEvent bMEM k 8 0 0 (BitVec.ofNat 128 ((selfEid 0 s).toNat * 2 ^ 48 + p * pageSize)) (setFlag (rMemStatus k) 0 s)

/-- 24 hours in ns. -/
abbrev dayNs : Nat := 86400000000000

/-- The part becomes OUT_OF_SERVICE and asks to be replaced (R390, R391, R403). The caravan's VOIDs follow in the
command that caused it. -/
def goOutOfService (cause : Nat) (s : State) : State :=
  if s.power.oos then s
  else
    let s := { s with power.oos := true, power.oosCause := cause }
    logEvent bKPR 0 2 stOos 0 (BitVec.ofNat 128 cause) (setFlag rKprAttn attnReplace (setFlag rKprAttn attnOos s))

/-- Notes an uncorrectable error at a line: a recurrence after a whole rewrite, or a fourth line of the page within
24 hours, retires a tenant page; elsewhere the part goes out of service (R335, R391). -/
def noteBadLine (l : Nat) (s : State) : State :=
  let again : Bool := s.memory.bad.any (fun b => decide (b.line = l) && b.rewritten)
  let bad : List BadLine := s.memory.bad.filter (fun b => decide (b.line ≠ l)) ++ [⟨l, s.clock, false⟩]
  let page := 256 * l / pageSize
  let recent : List BadLine := bad.filter (fun (b : BadLine) =>
    decide (256 * b.line / pageSize = page ∧ s.clock ≤ b.at_ + dayNs))
  let s := { s with memory.bad := bad }
  if again || decide (4 ≤ recent.length) then
    if page < 184 then retirePage (lineStack l) page s else goOutOfService 5 s
  else s

/-- Every line found bad within a range counts as rewritten whole (R335). -/
def markRewritten (lo hi : Nat) (s : State) : State :=
  let inside := fun (b : BadLine) => decide (lo ≤ 256 * b.line ∧ 256 * b.line < hi)
  { s with memory.bad := updAll inside (fun b => { b with rewritten := true }) s.memory.bad }

/-! ### The error log (R322) -/

/-- Sources of an error (MEM_ERR_LOG_A.SOURCE). -/
abbrev srcRead : Nat := 0
abbrev srcMerge : Nat := 1
abbrev srcAtomic : Nat := 2
abbrev srcScrub : Nat := 3
abbrev srcTag : Nat := 4

/-- Writes the log's entry of an error at a codeword; the syndrome is a free value, since the spec does not give the
code's matrix (log entry 5). -/
def logEntryWrite (k cw source mask : Nat) (overflow : Bool) (s : State) : State :=
  let (f, s) := takeFree s
  let n := nibblesOf mask
  let nib := if n.length = 1 then n.headD 0 else 63
  let a := placeBit 63 true ||| placeBit 62 (decide (1 < n.length)) ||| placeBit 61 overflow |||
    place 60 58 source ||| place 57 52 nib ||| place 47 32 f.toNat
  putReg (rMemErrB k) (BitVec.ofNat 64 (16 * cw)) (putReg (rMemErrA k) a s)

/-- Logs an error at a codeword of stack `k`, with its flag and its count (R321, R322). -/
def logMemError (cw source mask : Nat) (s : State) : State :=
  let k := lineStack (cw / 16)
  let hard := decide (1 < (nibblesOf mask).length)
  let s := setFlag (rMemStatus k) (if hard then 2 else 1) s
  let s := bump (0x1940000 + 0x40 * k + (if hard then 0x18 else 0x10)) 1 s
  let s := if getBit (rMemErrA k) 63 s then
      if hard && !(getBit (rMemErrA k) 62 s) then logEntryWrite k cw source mask true s
      else putReg (rMemErrA k) (getReg (rMemErrA k) s ||| placeBit 61 true) s
    else logEntryWrite k cw source mask false s
  if hard then
    logEvent bMEM k 6 stUncorrectable 0 (BitVec.ofNat 128 ((selfEid 0 s).toNat * 2 ^ 48 + 16 * cw))
      (noteBadLine (cw / 16) s)
  else s

/-- Logs the errors of a line's codewords, in ascending order. -/
def logWords (l source : Nat) (s : State) : State :=
  ((lineWords l).filter (fun c => decide (codeErrs c s ≠ 0))).foldl (fun s c => logMemError c source (codeErrs c s) s) s

/-- Logs what reading a line finds (R321, R325): every codeword in error and an error of its tag word, or a MAC
failure. -/
def logLine (l source : Nat) (s : State) : State :=
  let st := lineStatus l s
  let s := logWords l source s
  let s := if tagErrs l s = 0 then s else logMemError (tagOffset l / 16) srcTag (tagErrs l s) s
  if st = stIntegrity then
    let k := lineStack l
    logEvent bMEM k 5 stIntegrity 0 (BitVec.ofNat 128 ((selfEid 0 s).toNat * 2 ^ 48 + 256 * l))
      (bump (0x1940000 + 0x40 * k + 0x20) 1 (setFlag (rMemStatus k) 5 s))
  else s

/-! ### Reading and writing a line -/

/-- Profiling of one line access of `n` bytes, under the partition that owns the line's page (R427). -/
def profLine (l n : Nat) (s : State) : State :=
  let k := lineStack l
  let page := 256 * l / pageSize
  let p := if page < 184 then (pagePartition page s).toNat else 0
  prof bMEM k p evBytes n (prof bMEM k p evOut 1 (prof bMEM k p evIn 1 s))

/-- Reads of `n` bytes of a line, counted (R425; what counts as a byte read or written is log entry 28). -/
def countRead (l n : Nat) (s : State) : State := profLine l n (bump (0x1940000 + 0x40 * lineStack l) n s)
def countWrite (l n : Nat) (s : State) : State := profLine l n (bump (0x1940008 + 0x40 * lineStack l) n s)

/-- A line is fenced off or waits for a clear: its stack is not ONLINE, or its page's clear is pending (R329,
R333). -/
def lineWaits (l : Nat) (s : State) : Bool :=
  let page := 256 * l / pageSize
  decide ((getStack (lineStack l) s).st ≠ .online) || s.memory.regClear.contains page ||
    (decide (page < 184) && decide (pageState page s = pgClearing))

/-- The armed injection of a line's stack takes effect on a write of its codeword (R336). -/
def injectOn (l : Nat) (s : State) : State :=
  let k := lineStack l
  let w := getReg (rMemInject k) s
  let cw := wfield w 47 4
  if wbit w 63 = true ∧ cw / 16 = l then
    let m := 2 ^ wfield w 61 56 + (if wbit w 62 then 2 ^ wfield w 55 50 else 0)
    putReg (rMemInject k) (w &&& ~~~(placeBit 63 true)) { s with memory.errs := tblSet 0 s.memory.errs cw m }
  else s

/-- The line's codewords are written afresh with correct check bits. -/
def freshWords (l : Nat) (s : State) : State :=
  { s with memory.errs := tblKeep (fun c => decide (c / 16 ≠ l)) s.memory.errs }

/-- Bytes land in a line: the line is encrypted and tagged under its key (R323, R324), its codewords are fresh, an
armed injection happens (R336). `whole` says that all 256 bytes were replaced. -/
def landBytes (l : Nat) (bs : List (Nat × Byte)) (whole : Bool) (s : State) : State :=
  let s := { s with mem := setCells (256 * l) bs s.mem }
  let s := { s with memory.tags := tblSet .cleared s.memory.tags l (lineKey l s) }
  let s := injectOn l (freshWords l s)
  countWrite l bs.length (if whole then markRewritten (256 * l) (256 * l + 256) s else s)

/-- Bytes written from an offset by the part itself, line by line; a line that cannot be merged stays (R321). -/
def storeLines : Nat → Nat → List Byte → State → State
  | 0, _, _, s => s
  | n + 1, a, bs, s =>
    if bs.isEmpty then s
    else
      let room := 256 - a % 256
      let here := bs.take room
      let l := lineOf a
      let whole := decide (256 ≤ here.length)
      let s := if whole || decide (lineStatus l s = stOk) then
          landBytes l (here.mapIdx (fun i b => (a % 256 + i, b))) whole s
        else logLine l srcMerge s
      storeLines n (a + room) (bs.drop room) s

/-- Bytes the part itself writes into its memory. -/
def storeBytes (a : Nat) (bs : List Byte) (s : State) : State := storeLines (bs.length / 256 + 2) a bs s

/-- The lines a range of bytes touches. -/
def linesOf (a n : Nat) : List Nat :=
  if n = 0 then [] else (List.range ((a + n - 1) / 256 + 1 - a / 256)).map (fun i => a / 256 + i)

/-- The first status other than OK among some lines. -/
def linesStatus (ls : List Nat) (s : State) : Byte :=
  match ls.find? (fun l => decide (lineStatus l s ≠ stOk)) with
  | some l => lineStatus l s
  | none => stOk

/-! ### Region clear (R327) -/

/-- Clears a region: zero bytes, cleared tags, correct codewords. -/
def clearRegion (lo hi : Nat) (s : State) : State :=
  let s := clearMem lo hi s
  let s := { s with memory.tags := tblKeep (fun l => !(decide (lo ≤ 256 * l ∧ 256 * l < hi))) s.memory.tags,
                    memory.errs := tblKeep (fun c => !(decide (lo ≤ 16 * c ∧ 16 * c < hi))) s.memory.errs }
  markRewritten lo hi s

end Sys2Proof.Machine
end

