-- ==== Sys2Proof/Machine/Num.lean ====
section
/-! DEFINITION. Numbers: the formats of R179 to R181, exact values, rounding and conversion (R182, R183), the order of
R185, the semirings of R187, anchors and anchored integers (R189 to R191), and the generator of R193. -/
namespace Sys2Proof.Machine

/-! ### Formats -/

/-- The lane formats of R208. -/
inductive Fmt where
  | fp32 | int32 | uint32 | int64 | bf16 | fp16 | int16 | e4m3 | e5m2 | int8 | uint8 | fp4 | fp6 | raw
  deriving DecidableEq, Repr

/-- The code of R208: none for the reserved codes. -/
def Fmt.ofCode : Nat → Option Fmt
  | 0 => some .fp32 | 1 => some .int32 | 2 => some .uint32 | 3 => some .int64 | 4 => some .bf16 | 5 => some .fp16
  | 6 => some .int16 | 7 => some .e4m3 | 8 => some .e5m2 | 9 => some .int8 | 10 => some .uint8 | 11 => some .fp4
  | 12 => some .fp6 | 13 => some .raw | _ => none

/-- The lane width of a format; raw takes the width of the lane mode (R206, R208). FP6 elements fill 8-bit lanes. -/
def Fmt.width (mode : Nat) : Fmt → Nat
  | .fp32 | .int32 | .uint32 => 32
  | .int64 => 64
  | .bf16 | .fp16 | .int16 => 16
  | .e4m3 | .e5m2 | .int8 | .uint8 | .fp6 => 8
  | .fp4 => 4
  | .raw => 32 / 2 ^ mode

/-- The parameters of a float format (R179, R180): mantissa bits, bias, largest finite code, sign bit, whether it has
an infinity, its canonical NaN. -/
structure FloatDesc where
  man : Nat
  bias : Nat
  maxCode : Nat
  signBit : Nat
  hasInf : Bool
  nanCode : Option Nat
  deriving DecidableEq, Repr

/-- The float formats' parameters: none for an integer format. -/
def Fmt.float : Fmt → Option FloatDesc
  | .fp32 => some ⟨23, 127, 0x7F7FFFFF, 31, true, some 0x7FC00000⟩
  | .bf16 => some ⟨7, 127, 0x7F7F, 15, true, some 0x7FC0⟩
  | .fp16 => some ⟨10, 15, 0x7BFF, 15, true, some 0x7E00⟩
  | .e4m3 => some ⟨3, 7, 0x7E, 7, false, some 0x7F⟩
  | .e5m2 => some ⟨2, 15, 0x7B, 7, true, some 0x7E⟩
  | .fp6 => some ⟨3, 1, 0x1F, 5, false, none⟩
  | .fp4 => some ⟨1, 1, 0x7, 3, false, none⟩
  | _ => none

/-- An integer format is signed (R181). -/
def Fmt.signed : Fmt → Bool
  | .int32 | .int64 | .int16 | .int8 => true
  | _ => false

/-- A float format. -/
def Fmt.isFloat (f : Fmt) : Bool := f.float.isSome

/-- An exact value: NaN, an infinity, or (−1)^neg × m × 2^e. -/
inductive FVal where
  | nan
  | inf (neg : Bool)
  | fin (neg : Bool) (m : Nat) (e : Int)
  deriving DecidableEq, Repr

/-- A value is a NaN. -/
def FVal.isNan : FVal → Bool
  | .nan => true
  | _ => false

/-- The value a code has in a float format (R179, R180). -/
def decodeFloat (d : FloatDesc) (code : Nat) : FVal :=
  let neg := decide ((code / 2 ^ d.signBit) % 2 = 1)
  let mag := code % 2 ^ d.signBit
  let ex := mag / 2 ^ d.man
  let mt := mag % 2 ^ d.man
  if d.maxCode < mag then (if d.hasInf = true ∧ mag = d.maxCode + 1 then .inf neg else .nan)
  else if ex = 0 then .fin neg mt (1 - (d.bias : Int) - (d.man : Int))
  else .fin neg (2 ^ d.man + mt) ((ex : Int) - (d.bias : Int) - (d.man : Int))

/-- The integer a code stands for (R181). -/
def decodeInt (signed : Bool) (w code : Nat) : Int :=
  if signed = true ∧ 2 ^ (w - 1) ≤ code then (code : Int) - (2 : Int) ^ w else (code : Int)

/-- A code of `w` bits for an integer, wrapping (R181). -/
def wrapInt (w : Nat) (v : Int) : Nat := (v % (2 : Int) ^ w).toNat

/-- The value of an integer. -/
def FVal.ofInt (v : Int) : FVal := .fin (decide (v < 0)) v.natAbs 0

/-- The value of a code in any format but raw. -/
def decodeLane (f : Fmt) (w code : Nat) : FVal :=
  match f.float with
  | some d => decodeFloat d code
  | none => FVal.ofInt (decodeInt f.signed w code)

/-! ### Rounding (R182, R183, R195) -/

/-- How a conversion rounds: to nearest even, or up where a 32-bit draw lies below the fraction (R195). -/
inductive Rounding where
  | nearest
  | random (r : Nat)
  deriving DecidableEq, Repr

/-- `m` divided by 2^d, rounded. -/
def roundShift (mode : Rounding) (m d : Nat) : Nat :=
  let n := m / 2 ^ d
  let rem := m % 2 ^ d
  match mode with
  | .nearest =>
    if 2 ^ d < 2 * rem ∨ (2 * rem = 2 ^ d ∧ n % 2 = 1) then n + 1 else n
  | .random r => if r < rem * 2 ^ 32 / 2 ^ d then n + 1 else n

/-- `m` × 2^e rounded to a whole number. -/
def roundNat (mode : Rounding) (m : Nat) (e : Int) : Nat :=
  match e with
  | .ofNat k => m * 2 ^ k
  | .negSucc k => roundShift mode m (k + 1)

/-- The magnitude code of `m` × 2^e in a float format before any limit: its grid is that of R179's subnormals at the
bottom. -/
def magCode (d : FloatDesc) (mode : Rounding) (m : Nat) (e : Int) : Nat :=
  if m = 0 then 0
  else
    let qmin : Int := 1 - (d.bias : Int) - (d.man : Int)
    let q : Int := max qmin ((Nat.log2 m : Int) + e - (d.man : Int))
    roundNat mode m (e - q) + (q - qmin).toNat * 2 ^ d.man

/-- The sign bit of a code. -/
def signCode (d : FloatDesc) (neg : Bool) : Nat := bit1 neg * 2 ^ d.signBit

/-- The code of a value in a float format (R183): none where the format has no NaN to give. -/
def encodeFloat (d : FloatDesc) (mode : Rounding) : FVal → Option Nat
  | .nan => d.nanCode
  | .inf neg => if d.hasInf then some (signCode d neg + d.maxCode + 1) else d.nanCode
  | .fin neg m e =>
    let c := magCode d mode m e
    if c ≤ d.maxCode then some (signCode d neg + c)
    else if d.hasInf then some (signCode d neg + d.maxCode + 1)
    else some (signCode d neg + d.maxCode)

/-- The range of an integer format. -/
def intMin (signed : Bool) (w : Nat) : Int := if signed then -((2 : Int) ^ (w - 1)) else 0
def intMax (signed : Bool) (w : Nat) : Int := if signed then (2 : Int) ^ (w - 1) - 1 else (2 : Int) ^ w - 1

/-- Holds an integer inside a format's range. -/
def satInt (signed : Bool) (w : Nat) (v : Int) : Int := max (intMin signed w) (min (intMax signed w) v)

/-- A float value as an integer of a format: rounded, saturated, NaN as 0 (R183). -/
def floatToInt (signed : Bool) (w : Nat) (mode : Rounding) : FVal → Int
  | .nan => 0
  | .inf neg => if neg then intMin signed w else intMax signed w
  | .fin neg m e =>
    let n : Int := roundNat mode m e
    satInt signed w (if neg then -n else n)

/-- The conversion of R183 between two lane formats. Integer to integer is stated for a narrower target, which
saturates, and is exact where the value fits; the rest has no stated result (log entry 27). -/
def convert (src dst : Fmt) (ws wd : Nat) (mode : Rounding) (code : Nat) : Option Nat :=
  match dst.float with
  | some d => encodeFloat d mode (decodeLane src ws code)
  | none =>
    match src.float with
    | some d => some (wrapInt wd (floatToInt dst.signed wd mode (decodeFloat d code)))
    | none =>
      let v := decodeInt src.signed ws code
      if v = satInt dst.signed wd v ∨ wd < ws then some (wrapInt wd (satInt dst.signed wd v)) else none

/-! ### Arithmetic on exact values -/

/-- The signed integer of a finite value at a smaller exponent. -/
def scaledInt (neg : Bool) (m : Nat) (e lo : Int) : Int :=
  let n : Int := (m : Int) * (2 : Int) ^ (e - lo).toNat
  if neg then -n else n

/-- The exact sum (R182): an exact zero is +0 unless both are −0. -/
def fAdd : FVal → FVal → FVal
  | .nan, _ => .nan
  | _, .nan => .nan
  | .inf a, .inf b => if a = b then .inf a else .nan
  | .inf a, .fin _ _ _ => .inf a
  | .fin _ _ _, .inf b => .inf b
  | .fin a m e, .fin b n k =>
    let lo := min e k
    let v := scaledInt a m e lo + scaledInt b n k lo
    if v = 0 then .fin (a && b) 0 0 else .fin (decide (v < 0)) v.natAbs lo

/-- The negated value. -/
def fNeg : FVal → FVal
  | .nan => .nan
  | .inf a => .inf !a
  | .fin a m e => .fin (!a) m e

/-- The exact product. -/
def fMul : FVal → FVal → FVal
  | .nan, _ => .nan
  | _, .nan => .nan
  | .inf a, .inf b => .inf (a ^^ b)
  | .inf a, .fin b m _ => if m = 0 then .nan else .inf (a ^^ b)
  | .fin a m _, .inf b => if m = 0 then .nan else .inf (a ^^ b)
  | .fin a m e, .fin b n k => .fin (a ^^ b) (m * n) (e + k)

/-- The total order of R185 on values that are not NaN, −0 below +0. -/
def fLt : FVal → FVal → Bool
  | .inf a, .inf b => a && !b
  | .inf a, .fin _ _ _ => a
  | .fin _ _ _, .inf b => !b
  | .fin a m e, .fin b n k =>
    let lo := min e k
    let x := scaledInt a m e lo
    let y := scaledInt b n k lo
    decide (x < y) || (decide (x = 0 ∧ y = 0) && a && !b)
  | _, _ => false

/-- Two values are equal only as the same value under that order. -/
def fEq (a b : FVal) : Bool := !a.isNan && !b.isNan && !(fLt a b) && !(fLt b a)

/-- MIN and MAX on values: a NaN gives NaN (R185). -/
def fMin (a b : FVal) : FVal := if a.isNan || b.isNan then .nan else if fLt b a then b else a
def fMax (a b : FVal) : FVal := if a.isNan || b.isNan then .nan else if fLt a b then b else a

/-- ⌊log₂⌋ of a non-zero finite magnitude. -/
def fLog2 (m : Nat) (e : Int) : Int := (Nat.log2 m : Int) + e

/-! ### Semirings (R187) -/

/-- The semirings of R207. -/
inductive Ring where
  | plusTimes | minPlus | maxPlus | maxMin | orAnd
  deriving DecidableEq, Repr

/-- The code of SRING: none for the reserved codes. -/
def Ring.ofCode : Nat → Option Ring
  | 0 => some .plusTimes | 1 => some .minPlus | 2 => some .maxPlus | 3 => some .maxMin | 4 => some .orAnd | _ => none

/-- The largest or the smallest value of a format as R187's infinities: none where a float format has none. -/
def infCode (f : Fmt) (w : Nat) (neg : Bool) : Option Nat :=
  match f.float with
  | some d => if d.hasInf then some (signCode d neg + d.maxCode + 1) else none
  | none => some (wrapInt w (if neg then intMin f.signed w else intMax f.signed w))

/-- The ⊕ identity (R187). -/
def plusIdent (r : Ring) (f : Fmt) (w : Nat) : Option Nat :=
  match r with
  | .plusTimes | .orAnd => some 0
  | .minPlus => infCode f w false
  | .maxPlus | .maxMin => infCode f w true

/-- The code of 1. -/
def oneCode (f : Fmt) : Option Nat :=
  match f.float with
  | some d => encodeFloat d .nearest (.fin false 1 0)
  | none => some 1

/-- The ⊗ identity (R187). -/
def timesIdent (r : Ring) (f : Fmt) (w : Nat) : Option Nat :=
  match r with
  | .plusTimes => oneCode f
  | .minPlus | .maxPlus => some 0
  | .maxMin => infCode f w false
  | .orAnd => some (2 ^ w - 1)

/-- A result in a format: floats are rounded by RNE, integers wrap. -/
def roundFloat (f : Fmt) (v : FVal) : Option Nat :=
  match f.float with
  | some d => encodeFloat d .nearest v
  | none => none

/-- Integer and float minimum and maximum of two codes (R185). -/
def minMax (isMax : Bool) (f : Fmt) (w a b : Nat) : Option Nat :=
  match f.float with
  | some d =>
    let x := decodeFloat d a
    let y := decodeFloat d b
    encodeFloat d .nearest (if isMax then fMax x y else fMin x y)
  | none =>
    let x := decodeInt f.signed w a
    let y := decodeInt f.signed w b
    some (if isMax then (if x < y then b else a) else (if y < x then b else a))

/-- ⊕ of two codes (R187). -/
def ringPlus (r : Ring) (f : Fmt) (w a b : Nat) : Option Nat :=
  match r with
  | .plusTimes =>
    match f.float with
    | some d => encodeFloat d .nearest (fAdd (decodeFloat d a) (decodeFloat d b))
    | none => some ((a + b) % 2 ^ w)
  | .minPlus => minMax false f w a b
  | .maxPlus | .maxMin => minMax true f w a b
  | .orAnd => some (Nat.lor a b)

/-- ⊗ of (min,+) and (max,+): the ⊕ identity absorbs every operand, a NaN too; integers saturate, floats round (R187). -/
def ringShift (neg : Bool) (f : Fmt) (w a b : Nat) : Option Nat :=
  match f.float with
  | some d =>
    let x := decodeFloat d a
    let y := decodeFloat d b
    if x = .inf neg ∨ y = .inf neg then encodeFloat d .nearest (.inf neg)
    else if x.isNan || y.isNan then d.nanCode
    else encodeFloat d .nearest (fAdd x y)
  | none =>
    let top := if neg then intMin f.signed w else intMax f.signed w
    let x := decodeInt f.signed w a
    let y := decodeInt f.signed w b
    some (wrapInt w (if x = top ∨ y = top then top else satInt f.signed w (x + y)))

/-- ⊗ of two codes (R187). -/
def ringTimes (r : Ring) (f : Fmt) (w a b : Nat) : Option Nat :=
  match r with
  | .plusTimes =>
    match f.float with
    | some d => encodeFloat d .nearest (fMul (decodeFloat d a) (decodeFloat d b))
    | none => some (wrapInt w (decodeInt f.signed w a * decodeInt f.signed w b))
  | .minPlus => ringShift false f w a b
  | .maxPlus => ringShift true f w a b
  | .maxMin => minMax false f w a b
  | .orAnd => some (Nat.land a b)

/-- (A ⊗ B) ⊕ C: a float one in (+,×) rounds once (R209). -/
def ringMac (r : Ring) (f : Fmt) (w a b c : Nat) : Option Nat :=
  match r, f.float with
  | .plusTimes, some d =>
    encodeFloat d .nearest (fAdd (fMul (decodeFloat d a) (decodeFloat d b)) (decodeFloat d c))
  | _, _ => (ringTimes r f w a b).bind (fun t => ringPlus r f w t c)

/-! ### Anchors (R189 to R191) -/

/-- The anchor byte of a value (R189). -/
def anchorByte : FVal → Nat
  | .nan => 0xFF
  | .inf _ => 0xFF
  | .fin _ m e =>
    if m = 0 then 0
    else
      let k := fLog2 m e
      if 128 ≤ k then 0xFF else (max (-126) k + 127).toNat

/-- The F of R190: 17 for the int32 form, 49 for the int64 form. -/
def anchorF (wide : Bool) : Nat := if wide then 49 else 17

/-- A contribution on the grid of anchor byte `a` (R190): none where R190 states none: anchor bytes 0x00 and 0xFF for
a non-zero value, a NaN or infinity, and a magnitude outside the form. -/
def toFixed (wide : Bool) (a : Nat) : FVal → Option Int
  | .nan => none
  | .inf _ => none
  | .fin neg m e =>
    if m = 0 then some 0
    else if a = 0 ∨ a = 0xFF then none
    else
      let n : Int := roundNat .nearest m (e + (anchorF wide : Int) - ((a : Int) - 127))
      let v := if neg then -n else n
      let w := if wide then 64 else 32
      if v = satInt true w v then some v else none

/-- The value of an integer total at an anchor (R191). -/
def fromFixed (wide : Bool) (a : Nat) (total : Int) : FVal :=
  if a = 0 then .fin false 0 0
  else if a = 0xFF then .nan
  else .fin (decide (total < 0)) total.natAbs ((a : Int) - 127 - (anchorF wide : Int))

/-! ### The generator (R193) -/

/-- Rotates a 32-bit word left. -/
def rotl32 (w n : Nat) : Nat := (w * 2 ^ n) % 2 ^ 32 + w / 2 ^ (32 - n)

/-- The words and keys of the generator. -/
structure GenState where
  x0 : Nat
  x1 : Nat
  x2 : Nat
  x3 : Nat
  k0 : Nat
  k1 : Nat
  deriving DecidableEq, Repr

/-- One round. -/
def genRound (g : GenState) : GenState :=
  let p0 := 0xc8e14b35 * ((g.x0 + g.k0) % 2 ^ 32)
  let p1 := 0xa7d39e21 * ((g.x2 + g.k1) % 2 ^ 32)
  { x0 := rotl32 (Nat.xor (p1 / 2 ^ 32) g.x3) 8, x1 := p0 % 2 ^ 32,
    x2 := rotl32 (Nat.xor (p0 / 2 ^ 32) g.x1) 12, x3 := p1 % 2 ^ 32,
    k0 := (g.k0 + 0x7f4a7c15) % 2 ^ 32, k1 := (g.k1 + 0xb05a2d6b) % 2 ^ 32 }

/-- `n` rounds. -/
def genRounds : Nat → GenState → GenState
  | 0, g => g
  | n + 1, g => genRounds n (genRound g)

/-- The generator: 128 bits from a seed, a stream and an index, as one number with x0 in its low word (R193). -/
def gen (seed stream index : Nat) : Nat :=
  let g := genRounds 10
    { x0 := index % 2 ^ 32, x1 := (stream * 256 + index / 2 ^ 32) % 2 ^ 32, x2 := 0, x3 := 0,
      k0 := seed % 2 ^ 32, k1 := seed / 2 ^ 32 }
  g.x0 + g.x1 * 2 ^ 32 + g.x2 * 2 ^ 64 + g.x3 * 2 ^ 96

/-- The 32-bit draw of element `e` of a run for stochastic rounding (R195). -/
def roundingDraw (seed stream e : Nat) : Nat :=
  gen seed (Nat.xor stream 0x800000) (e / 4) / 2 ^ (32 * (e % 4)) % 2 ^ 32

/-! ### MX blocks (R180, R184) -/

/-- The largest exponent of an MX element format (R184): MXFP8 8, MXFP6 and MXFP4 2, MXINT8 0. -/
def mxEmax (f : Fmt) : Int :=
  match f with
  | .e4m3 => 8
  | .fp6 => 2
  | .fp4 => 2
  | _ => 0

/-- The scale byte of a block of values (R184). -/
def mxScale (f : Fmt) (vs : List FVal) : Nat :=
  let bad := vs.any (fun v => match v with | .fin _ _ _ => false | _ => true)
  if bad then 0xFF
  else
    match vs.foldl (fun (acc : Option Int) v => match v with
      | .fin _ m e => if m = 0 then acc else some (match acc with
          | none => fLog2 m e
          | some k => max k (fLog2 m e))
      | _ => acc) none with
    | none => 0
    | some k => (max (-127) (min 127 (k - mxEmax f)) + 127).toNat

/-- An element of a block at its scale byte (R184): the code of the element format. -/
def mxElement (f : Fmt) (scale : Nat) (v : FVal) : Nat :=
  if scale = 0xFF then 0
  else
    match v with
    | .fin neg m e =>
      let e' := e - ((scale : Int) - 127)
      match f.float with
      | some d => (encodeFloat d .nearest (.fin neg m e')).getD 0
      | none => wrapInt 8 (floatToInt true 8 .nearest (.fin neg m (e' + 6)))
    | _ => 0

/-- The value of an element of a block (R180). -/
def mxValue (f : Fmt) (scale code : Nat) : FVal :=
  if scale = 0xFF then .nan
  else
    let v := match f.float with
      | some d => decodeFloat d code
      | none => match FVal.ofInt (decodeInt true 8 code) with
        | .fin n m e => .fin n m (e - 6)
        | x => x
    match v with
    | .fin n m e => .fin n m (e + ((scale : Int) - 127))
    | x => x

end Sys2Proof.Machine
end

