-- ==== Sys2Proof/Machine/Target.lean ====
section
/-! DEFINITION. The target side of the part's end-point: the checks of an arriving request (R24, R96, R101, R355,
R356), the ledger (R127 to R132), the combining queues (R97 to R100, R114), atomics (R120 to R126), status queries
(R138) and the quarantine (R142). -/
namespace Sys2Proof.Machine

/-! ### Arrival and authentication (R355) -/

/-- Takes a frame delivered to an internal end-point port. -/
def takeArrived (port : Nat) (f : Frame) (s : State) : State :=
  { s with tgt.arrived := eraseFirst (fun e => decide (e.1 = port ∧ e.2 = f)) s.tgt.arrived }

/-- A frame dropped as KEY_STALE or for a failed tag (R102, R355). -/
def dropStale (s : State) : State := bump 0x1950018 1 (setFlag rSecStatus 2 s)
def dropTag (s : State) : State := bump 0x1950020 1 (setFlag rSecStatus 3 s)

/-- The seal of a frame verifies under an install its partition's slot accepts (R349, R355). -/
def sealAccepted (f : Frame) (k : KeySlot) : Bool :=
  match f.sealed with
  | some x => x.ok && k.installed && acceptsEpoch k x.epoch
  | none => false

/-- What the first checks of R355 give: the frame passes, or is dropped for its key or its tag. -/
inductive Auth where
  | pass | stale | tag
  deriving DecidableEq, Repr

/-- The page an offset lies in is recorded as a shared image. -/
def sharedAt (off : Nat) (s : State) : Bool :=
  decide (off < tenantEnd ∧ pageState (off / pageSize) s = pgOwned) && pageShared (off / pageSize) s

/-- The permit of kind PEER under which a partition reaches another's page on this part (R357). -/
def peerPermit (p : Byte) (off : Nat) (s : State) : Option Permit :=
  let page := off / pageSize
  if off < tenantEnd ∧ pageState page s = pgOwned then
    s.tenant.permits.find? (fun x => decide (x.kind = 2 ∧ x.grantee = p ∧ x.grantor = pagePartition page s ∧
      x.first ≤ page ∧ page < x.first + x.count))
  else none

/-- The seal of a PEER frame verifies under the grantor's install that a permit lends (R28, R357; log entry 30). -/
def peerSeal (f : Frame) (s : State) : Bool :=
  match peerPermit f.part f.off.toNat s with
  | some x => match slotRec x.grantor s with
    | some k => sealAccepted f k
    | none => false
  | none => false

/-- The checks of R355 on a frame of a tenant partition; `needEnc` says that ENC = 1 is required. -/
def authenticate (f : Frame) (needEnc : Bool) (s : State) : Auth :=
  if f.part = 0 then .pass
  else
    match slotRec f.part s with
    | none => .stale
    | some k =>
      if k.generation ≠ f.keyGen then .stale
      else if f.enc then (if sealAccepted f k || peerSeal f s then .pass else .tag)
      else if needEnc then .tag else .pass

/-! ### The checks of a request (R24, R93 to R96, R101) -/

/-- The bytes a request addresses: 32 per slot, or the whole line of a masked store; an ATOMIC lies in one line, and its
first byte stands for it (R95, R120). -/
def spanBytes (f : Frame) : Nat := if f.ty = tyAtomic then 1 else if f.be = 0 then 32 * f.len.toNat else 256

/-- Bits set in a byte. -/
def popByte (b : Byte) : Nat := ((List.range 8).filter (fun i => b.getLsbD i)).length

/-- The slots a masked store carries, ascending (R95). -/
def carriedSlots (f : Frame) : List Nat := (List.range 8).filter (fun i => f.be.getLsbD i)

/-- The mask slot of a masked store (R95). -/
def maskSlot (f : Frame) : Slot := f.data.getD (f.len.toNat - 1) 0

/-- A mask bit is set for a byte of a slot that is not carried (R96). -/
def strayMask (f : Frame) : Bool :=
  (List.range 8).any (fun i => !(f.be.getLsbD i) && decide (field (maskSlot f).toNat (32 * i + 31) (32 * i) ≠ 0))

/-- The faults of R96 common to loads and stores. -/
def malformedRequest (f : Frame) : Bool :=
  let off := f.off.toNat
  decide (f.len = 0) || decide (64 < f.len.toNat) ||
  (decide (f.ty = tyLoad) && decide (f.be ≠ 0)) ||
  (if f.be = 0 then decide (off % 32 ≠ 0)
   else decide (off % 256 ≠ 0) || decide (f.len.toNat ≠ popByte f.be + 1) || strayMask f) ||
  decide (off / pageSize ≠ (off + spanBytes f - 1) / pageSize) ||
  f.mcast || (f.flagged != decide (f.ty = tyFlagged))

/-- An offset in the tag region or not decoded (R23, R24). -/
def undecoded (off : Nat) : Bool := decide (privEnd ≤ off ∧ off < apertureBase)

/-- The images a manifest lists: digest, FA, length (R345). -/
def manifestImages (m : List Byte) : List (Nat × Nat × Nat) :=
  (List.range (m.getD 6 0).toNat).map (fun i =>
    let e := m.drop (64 + 64 * i)
    (natOfBytes (e.take 48), natOfBytes ((e.drop 48).take 8), natOfBytes ((e.drop 56).take 8)))

/-- The digests of the images of a page's owner that cover an offset of this part. -/
def imageDigests (off : Nat) (s : State) : List Nat :=
  let k := getSlot (pageSlot (off / pageSize) s) s
  let fa := (selfEid 0 s).toNat * 2 ^ 48 + off
  ((manifestImages k.manifest).filter (fun i => decide (i.2.1 ≤ fa ∧ fa < i.2.1 + i.2.2))).map (·.1)

/-- A partition may load from a shared page (R356): the owner, or an ACTIVE partition whose manifest lists the same
digest. -/
def sharedLoad (p : Byte) (off : Nat) (s : State) : Bool :=
  decide (pagePartition (off / pageSize) s = p) ||
  (match slotRec p s with
    | some k => decide (k.st = .active) &&
        (manifestImages k.manifest).any (fun i => (imageDigests off s).contains i.1)
    | none => false)

/-- The page's slot has been opened: it is past KEYED. -/
def slotOpened (k : KeySlot) : Bool := decide (k.st = .active ∨ k.st = .fenced ∨ k.st = .clearing)

/-- The permission check of R24, R351, R356 and R357 at an offset of local index 0. -/
def permitted (f : Frame) (s : State) : Bool :=
  let off := f.off.toNat
  let page := off / pageSize
  let p := f.part
  if off < tenantEnd then
    if pageState page s ≠ pgOwned then false
    else if pageShared page s then
      if f.ty = tyLoad then decide (p ≠ 0) && sharedLoad p off s
      else decide (p = 0 ∧ f.ty ≠ tyAtomic) && !(slotOpened (getSlot (pageSlot page s) s))
    else decide (p ≠ 0) && (decide (pagePartition page s = p) || (peerPermit p off s).isSome)
  else if off < privEnd then decide (p = 0)
  else hostGranted p s

/-- The lines a request covers (R94, R95). -/
def requestLines (f : Frame) : List Nat := linesOf f.off.toNat (spanBytes f)

/-- A store replaces a line whole: full-slot and all 256 bytes (R101). -/
def replacesWhole (f : Frame) (l : Nat) : Bool :=
  decide (f.be = 0 ∧ f.off.toNat ≤ 256 * l ∧ 256 * l + 256 ≤ f.off.toNat + 32 * f.len.toNat)

/-- The lines a store must merge with. -/
def mergeLines (f : Frame) : List Nat := (requestLines f).filter (fun l => !(replacesWhole f l))

/-- The partition of a request is fenced or closed on this part (R346, R358). -/
def partitionClosed (p : Byte) (s : State) : Bool :=
  decide (p ≠ 0) && (match slotRec p s with
    | some k => decide (k.st = .fenced ∨ k.st = .clearing)
    | none => true)

/-- The checks every request shares, in the order of R101's table (log entry 29). -/
def commonStatus (f : Frame) (malformed : Bool) (s : State) : Byte :=
  if malformed || undecoded f.off.toNat then stMalformed
  else if f.part ≠ 0 ∧ partitionClosed f.part s = false ∧ partitionActive f.part s = false then stDenied
  else if partitionClosed f.part s then stClosed
  else if f.part ≠ 0 ∧ s.power.oos = true then stOos
  else if !(permitted f s) then stDenied
  else if apertureBase ≤ f.off.toNat ∧ cxlUp s = false then stUnreachable
  else stOk

/-- The status of a store's checks (R101): merges that would read a bad line come last. -/
def storeStatus (f : Frame) (s : State) : Byte :=
  let st := commonStatus f (malformedRequest f) s
  if st ≠ stOk then st
  else if apertureBase ≤ f.off.toNat then stOk
  else linesStatus (mergeLines f) s

/-! ### Atomics (R120 to R126) -/

/-- The fields of data slot 0 and 1 (R121). -/
def atOp (f : Frame) : Nat := (slotByte (f.data.getD 0 0) 0).toNat
def atWidthCode (f : Frame) : Nat := (slotByte (f.data.getD 0 0) 1).toNat
def atBytes (f : Frame) : Nat := 2 ^ atWidthCode f
def atRelease (f : Frame) : Nat := field (f.data.getD 0 0).toNat 55 32
def atOperand (f : Frame) : Nat := field (f.data.getD 0 0).toNat (127 + 8 * atBytes f) 128
def atCompare (f : Frame) : Nat := (f.data.getD 1 0).toNat % 2 ^ (8 * atBytes f)

/-- OP and WIDTH are a combination of R122. -/
def atomicKnown (op w : Nat) : Bool :=
  (decide (1 ≤ op ∧ op ≤ 8) && decide (w = 2 ∨ w = 3)) ||
  (decide (op = 9 ∨ op = 10) && decide (w = 2 ∨ w = 3 ∨ w = 4)) ||
  (decide (11 ≤ op ∧ op ≤ 13) && decide (w = 2)) ||
  decide (op = 14 ∧ w = 3) || decide (op = 15 ∧ w = 4)

/-- The faults that make an ATOMIC MALFORMED before it is applied (R96, R120 to R122, R124, R126). -/
def malformedAtomic (f : Frame) : Bool :=
  let op := atOp f
  !(atomicKnown op (atWidthCode f)) || decide (f.be ≠ 0) || f.flagged || f.mcast ||
  decide (f.off.toNat % atBytes f ≠ 0) || decide (f.len.toNat ≠ if op = 10 then 2 else 1) ||
  decide (apertureBase ≤ f.off.toNat) ||
  (decide (op = 14) && decide (field (atOperand f) 63 40 = 0)) ||
  (decide (op = 15) && decide (field (atOperand f) 95 72 = 0 ∨ field (atOperand f) 127 96 ≠ 0))

/-- The status of an ATOMIC's checks (R101, R123). -/
def atomicStatus (f : Frame) (s : State) : Byte :=
  let st := commonStatus f (malformedAtomic f) s
  if st ≠ stOk then st
  else if atOp f = 11 ∧ f.strict = true then stStrict
  else linesStatus [lineOf f.off.toNat] s

/-- A comparison of two operands: whether the operand replaces the old value (R122, MIN and MAX forms). -/
def minMaxPick (signed isMax : Bool) (w old x : Nat) : Nat :=
  let a := decodeInt signed w old
  let b := decodeInt signed w x
  if (if isMax then decide (a < b) else decide (b < a)) then x else old

/-- FMIN and FMAX: the old value where the two compare equal (R123). -/
def floatPick (isMax : Bool) (old x : Nat) : Nat :=
  let a := decodeLane .fp32 32 old
  let b := decodeLane .fp32 32 x
  if a.isNan || b.isNan then 0x7FC00000
  else if (if isMax then fLt a b else fLt b a) then x else old

/-- An anchored add on a cell (R126): ACC of `w` bits, ANCHOR and COUNT above it; none where the target refuses. -/
def anchoredAdd (w old x : Nat) : Option Nat :=
  let acc := fun v => v % 2 ^ w
  let anc := fun v => v / 2 ^ w % 256
  let cnt := fun v => v / 2 ^ (w + 8) % 2 ^ 24
  if cnt old = 0 then some x
  else if anc old = anc x ∧ cnt old + cnt x ≤ 8192 then
    some ((acc old + acc x) % 2 ^ w + anc old * 2 ^ w + (cnt old + cnt x) * 2 ^ (w + 8))
  else none

/-- The new value of an atomic (R122): none where the target refuses with MALFORMED. -/
def atomicNew (f : Frame) (old : Nat) : Option Nat :=
  let w := 8 * atBytes f
  let x := atOperand f
  match atOp f with
  | 1 => some ((old + x) % 2 ^ w)
  | 2 => some (Nat.land old x)
  | 3 => some (Nat.lor old x)
  | 4 => some (Nat.xor old x)
  | 5 => some (minMaxPick true false w old x)
  | 6 => some (minMaxPick true true w old x)
  | 7 => some (minMaxPick false false w old x)
  | 8 => some (minMaxPick false true w old x)
  | 9 => some x
  | 10 => some (if old = atCompare f then x else old)
  | 11 => ringPlus .plusTimes .fp32 32 old x
  | 12 => some (floatPick false old x)
  | 13 => some (floatPick true old x)
  | 14 => anchoredAdd 32 old x
  | 15 => anchoredAdd 64 old x
  | _ => none

/-! ### Responses -/

/-- The target's response, sealed as its request was (R352, R353): the COPY of the copy it answers, under the slot's
install. -/
def targetResponse (f : Frame) (status : Byte) (data : List Slot) (s : State) : Frame :=
  let r := responseTo f status data
  if f.enc then
    { r with enc := true,
             sealed := some { epoch := (match slotRec f.part s with
                                | some k => k.epoch
                                | none => 0),
                              copy := (match f.sealed with
                                | some x => x.copy
                                | none => 0), ok := true } }
  else r

/-- Sends a response from the end-point port the request came by. -/
def respond (port : Nat) (f : Frame) (status : Byte) (data : List Slot) (s : State) : State :=
  let s := prof bEPT 0 f.part.toNat evOut 1 (if status = stRetryBusy then bump 0x1950010 1 s else s)
  sendCore (36 + port) (targetResponse f status data s) s

/-! ### The ledger (R127 to R132) -/

/-- The record of a stream. -/
def findStream (src sid : BitVec 16) (s : State) : Option StreamRec :=
  s.tgt.streams.find? (fun r => decide (r.src = src ∧ r.sid = sid))

/-- The classes of R127. -/
inductive Place where
  | ahead | window | behind
  deriving DecidableEq, Repr

/-- Where a sequence lies against TOP. -/
def placeOf (top seq : Seq) : Place :=
  let d := (seq - top).toNat
  if d < 2 ^ 23 then .ahead else if 2 ^ 24 - 1024 ≤ d then .window else .behind

/-- The state a record holds of a sequence in its window. -/
def seqState (r : StreamRec) (seq : Seq) : SeqState := tblGet .none r.states seq.toNat

/-- Puts a stream's record in place. -/
def putStream (r : StreamRec) (s : State) : State :=
  { s with tgt.streams :=
      (s.tgt.streams.filter (fun x => !(decide (x.src = r.src ∧ x.sid = r.sid)))) ++ [r] }

/-- Frees a stream's recorded results below a sequence that fail a test. -/
def keepResults (src sid : BitVec 16) (keep : Seq → Bool) (s : State) : State :=
  { s with tgt.results :=
      s.tgt.results.filter (fun x => !(decide (x.src = src ∧ x.sid = sid)) || keep x.seq) }

/-- Records a sequence's state: the record is made, or TOP moved, where the sequence lies ahead; states and results
that leave the window go (R129, R132). -/
def recordSeq (src sid : BitVec 16) (seq : Seq) (v : SeqState) (s : State) : State :=
  match findStream src sid s with
  | none => putStream ⟨src, sid, seq + 1, [(seq.toNat, v)], s.clock⟩ s
  | some r =>
    if placeOf r.top seq = .ahead then
      let top := seq + 1
      let inside := fun (n : Nat) => decide (placeOf top (BitVec.ofNat 24 n) = .window)
      let s := keepResults src sid (fun q => inside q.toNat) s
      putStream { r with top := top, states := tblSet .none (tblKeep inside r.states) seq.toNat v } s
    else putStream { r with states := tblSet .none r.states seq.toNat v } s

/-- An arrival restarts its stream's retention (R128). -/
def touchStream (src sid : BitVec 16) (s : State) : State :=
  match findStream src sid s with
  | some r => putStream { r with lastArrival := s.clock } s
  | none => s

/-- An ATOMIC's RELEASE_BELOW frees the stream's results below it (R132). -/
def releaseResults (f : Frame) (s : State) : State :=
  let below := fun (q : Seq) =>
    let d := ((BitVec.ofNat 24 (atRelease f) : Seq) - q).toNat
    decide (1 ≤ d ∧ d ≤ 2 ^ 23)
  keepResults f.src f.stream (fun q => !(below q)) s

/-- The result recorded for a sequence. -/
def resultOf (src sid : BitVec 16) (seq : Seq) (s : State) : Option Nat :=
  (s.tgt.results.find? (fun x => decide (x.src = src ∧ x.sid = sid ∧ x.seq = seq))).map (·.value)

/-- A drop as BARRED or behind the window (R129). -/
def dropCopy (s : State) : State := bump 0x1950000 1 (setFlag rLedgerStatus 3 s)

/-- The old value of an atomic in a response's slot (R122). -/
def resultSlot (v : Nat) : Slot := BitVec.ofNat 256 (v % 2 ^ 128)

/-- The answer to a copy of an applied request (R129). -/
def answerApplied (port : Nat) (f : Frame) (s : State) : State :=
  let s := bump 0x1950008 1 s
  if f.ty = tyAtomic then
    match resultOf f.src f.stream f.seq s with
    | some v => respond port f stOk [resultSlot v] s
    | none => respond port f stReleased [] s
  else respond port f stOk [] s

/-- In quarantine (R142). -/
def inQuarantine (s : State) : Bool := s.tgt.quarantineEnd.isSome

/-! ### Accepting a request into the combining queues -/

/-- A fabric line has a memory controller: that of its stack. The host aperture has none (R318). -/
def hasController (l : Nat) : Bool := decide (l < tagEnd / 256)

/-- The entries that a controller's combining queues hold (R114). -/
def stackEntries (c : Nat) (s : State) : Nat :=
  (s.tgt.comb.filter (fun e => hasController e.line && decide (lineStack e.line = c))).length

/-- The controllers of a request's lines have entries free for it; until then it waits at its port (R114, R115). -/
def queueRoom (f : Frame) (s : State) : Bool :=
  let lines := (requestLines f).filter hasController
  lines.all (fun l => decide (stackEntries (lineStack l) s +
    (lines.filter (fun m => decide (lineStack m = lineStack l))).length ≤ 1024))

/-- Puts an entry at the end of its line's queue, but before those that came in the same cycle by a higher port
(R97). -/
def insertComb (e : CombEntry) (l : List CombEntry) : List CombEntry :=
  let later := fun (x : CombEntry) => decide (x.line = e.line ∧ x.arrived = e.arrived ∧ e.port < x.port)
  l.takeWhile (fun x => !(later x)) ++ e :: l.dropWhile (fun x => !(later x))

/-- A new request takes its place in the queues of its lines (R97). -/
def enqueue (port : Nat) (f : Frame) (kind : ReqKind) (lines : List Nat) (s : State) : State :=
  let id := s.tgt.nextId
  let req : TargetReq := ⟨id, port, f, s.clock, lines.length, [], stOk, 0⟩
  { s with tgt.nextId := id + 1, tgt.reqs := s.tgt.reqs ++ [req],
           tgt.comb := lines.foldl (fun c l => insertComb ⟨id, port, l, kind, s.clock⟩ c) s.tgt.comb }

/-- The bytes of a store that fall in a line, as places in the line (R94, R95). -/
def storeBytesIn (f : Frame) (l : Nat) : List (Nat × Byte) :=
  (List.range 256).filterMap (fun i =>
    if f.be = 0 then
      let a := 256 * l + i
      if f.off.toNat ≤ a ∧ a < f.off.toNat + 32 * f.len.toNat then
        let o := a - f.off.toNat
        some (i, slotByte (f.data.getD (o / 32) 0) (o % 32))
      else none
    else
      match indexOf? (fun k => decide (k = i / 32)) (carriedSlots f) with
      | some k => if (maskSlot f).getLsbD i then some (i, slotByte (f.data.getD k 0) (i % 32)) else none
      | none => none)

/-- A store to the host aperture: its bytes go to host memory over CXL.cache (R23, R365). -/
def storeHost (f : Frame) (s : State) : State :=
  (requestLines f).foldl (fun s l =>
    (storeBytesIn f l).foldl (fun s b => writeHost (256 * l + b.1 - apertureBase) [b.2] s) s) s

/-- Result entries held: by results, and by atomics accepted and not yet answered (R127, R131). -/
def resultsHeld (s : State) : Nat :=
  s.tgt.results.length + (s.tgt.reqs.filter (fun r => decide (r.frame.ty = tyAtomic))).length

/-- The ledger's action on a store or ATOMIC that has passed every check (R129, R131). -/
def acceptWrite (port : Nat) (f : Frame) (s : State) : State :=
  if f.ty = tyAtomic ∧ 65536 ≤ resultsHeld s then
    respond port f stRetryBusy [] (setFlag rLedgerStatus 2 s)
  else if apertureBase ≤ f.off.toNat then
    respond port f stOk [] (recordSeq f.src f.stream f.seq .appliedStore (storeHost f s))
  else
    let s := recordSeq f.src f.stream f.seq .pending s
    enqueue port f (if f.ty = tyAtomic then .atomic else if f.ty = tyFlagged then .flagged else .store)
      (if f.ty = tyAtomic then [lineOf f.off.toNat] else requestLines f) s

/-- A failed check bars the sequence and is answered (R130). -/
def refuseWrite (port : Nat) (f : Frame) (status : Byte) (s : State) : State :=
  respond port f status [] (recordSeq f.src f.stream f.seq .barred s)

/-- The checks of R101 on a request whose sequence is new, and what follows. -/
def checkWrite (port : Nat) (f : Frame) (s : State) : State :=
  let st := if f.ty = tyAtomic then atomicStatus f s else storeStatus f s
  if st = stOk then acceptWrite port f s
  else
    let s := (if st = stUncorrectable ∨ st = stIntegrity then
      (if f.ty = tyAtomic then logLine (lineOf f.off.toNat) srcAtomic s
       else match (mergeLines f).find? (fun l => decide (lineStatus l s ≠ stOk)) with
        | some l => logLine l srcMerge s
        | none => s) else s)
    refuseWrite port f st s

/-- The ledger's lookup of a store or ATOMIC (R129, R131). -/
def ledgerWrite (port : Nat) (f : Frame) (s : State) : State :=
  match findStream f.src f.stream s with
  | none =>
    if 16384 ≤ s.tgt.streams.length then respond port f stRetryBusy [] (setFlag rLedgerStatus 1 s)
    else checkWrite port f s
  | some r =>
    let s := touchStream f.src f.stream s
    let s := if f.ty = tyAtomic then releaseResults f s else s
    match placeOf r.top f.seq with
    | .behind => dropCopy s
    | .ahead => checkWrite port f s
    | .window =>
      match seqState r f.seq with
      | .none => checkWrite port f s
      | .pending => { s with tgt.waiting := s.tgt.waiting ++ [f] }
      | .barred => dropCopy s
      | .appliedStore => answerApplied port f s
      | .appliedAtomic => answerApplied port f s

/-- A store or ATOMIC arrives, unless its controllers' queues are full (R114, R129, R142, R355). -/
def writeArrives (port : Nat) (f : Frame) (s : State) : State :=
  if !(queueRoom f s) then s else
  let s := prof bEPT 0 f.part.toNat evIn 1 (takeArrived port f s)
  match authenticate f (!(sharedAt f.off.toNat s)) s with
  | .stale => dropStale s
  | .tag => dropTag s
  | .pass => if inQuarantine s then respond port f stRetryBusy [] s else ledgerWrite port f s

/-! ### Landing and loads -/

/-- A request's record by its number. -/
def findReq (id : Nat) (s : State) : Option TargetReq := s.tgt.reqs.find? (fun r => decide (r.id = id))

/-- A request's record with a new value. -/
def putReq (r : TargetReq) (s : State) : State :=
  { s with tgt.reqs := updFirst (fun x => decide (x.id = r.id)) (fun _ => r) s.tgt.reqs }

/-- The slots a load returns, from the lines read (R94). -/
def loadSlots (r : TargetReq) : List Slot :=
  (List.range r.frame.len.toNat).map (fun i =>
    let a := r.frame.off.toNat + 32 * i
    match r.got.find? (fun g => decide (g.1 = lineOf a)) with
    | some g => slotOf ((g.2.drop (a % 256)).take 32)
    | none => 0)

/-- The STATUS_RSP of R137: STATE and RESULT in one data slot. -/
def statusFrame (f : Frame) (status : Byte) (st : Nat) (result : Nat) : Frame :=
  responseTo f status [BitVec.ofNat 256 (st + result % 2 ^ 128 * 2 ^ 128)]

/-- The answer to a query for a sequence found APPLIED (R138). -/
def queryApplied (f : Frame) (atomic : Bool) (s : State) : Frame :=
  match resultOf f.src f.stream f.seq s with
  | some v => statusFrame f stOk 1 v
  | none => if atomic then statusFrame f stReleased 1 0 else statusFrame f stOk 1 0

/-- Copies and queries that waited for a PENDING sequence are answered (R129, R138). -/
def answerWaiting (r : TargetReq) (data : List Slot) (s : State) : State :=
  let mine := fun (f : Frame) => decide (f.src = r.frame.src ∧ f.stream = r.frame.stream ∧ f.seq = r.frame.seq)
  let l := s.tgt.waiting.filter mine
  let s := { s with tgt.waiting := s.tgt.waiting.filter (fun f => !(mine f)) }
  l.foldl (fun s f =>
    if f.ty = tyQuery then
      sendCore (36 + r.port)
        (if r.status = stOk then queryApplied f (decide (r.frame.ty = tyAtomic)) s else statusFrame f stOk 0 0) s
    else respond r.port f r.status data (bump 0x1950008 1 s)) s

/-- A PENDING sequence takes its state, where its stream's record still stands (R127, R129). -/
def settleSeq (f : Frame) (v : SeqState) (s : State) : State :=
  match findStream f.src f.stream s with
  | some r =>
    if placeOf r.top f.seq = .window ∧ seqState r f.seq = .pending then
      putStream { r with states := tblSet .none r.states f.seq.toNat v } s
    else s
  | none => s

/-- The ledger still has a sequence as PENDING. -/
def isPending (f : Frame) (s : State) : Bool :=
  match findStream f.src f.stream s with
  | some r => decide (placeOf r.top f.seq = .window ∧ seqState r f.seq = .pending)
  | none => false

/-- A request all of whose lines are done is answered and leaves; its outcome is recorded where its stream's record still
stands (R99, R122, R127, R129, R130). -/
def finishReq (r : TargetReq) (s : State) : State :=
  let s := { s with tgt.reqs := eraseFirst (fun x => decide (x.id = r.id)) s.tgt.reqs }
  let f := r.frame
  if f.ty = tyLoad then respond r.port f r.status (if r.status = stOk then loadSlots r else []) s
  else if r.status ≠ stOk then
    answerWaiting r [] (respond r.port f r.status [] (settleSeq f .barred s))
  else if f.ty = tyAtomic then
    let s := if isPending f s then
        { settleSeq f .appliedAtomic s with
          tgt.results := s.tgt.results ++ [⟨f.src, f.stream, f.seq, r.result⟩] }
      else s
    answerWaiting r [resultSlot r.result] (respond r.port f stOk [resultSlot r.result] s)
  else answerWaiting r [] (respond r.port f stOk [] (settleSeq f .appliedStore s))

/-- One line of a request is done. -/
def lineDone (r : TargetReq) (s : State) : State :=
  let r := { r with left := r.left - 1 }
  if r.left = 0 then finishReq r (putReq r s) else putReq r s

/-- The first status other than OK of a request stays. -/
def worse (old new : Byte) : Byte := if old = stOk then new else old

/-- Serves a load at one line: the line is read under R325, with the errors it finds logged. -/
def serveLoad (r : TargetReq) (l : Nat) (s : State) : State :=
  let st := lineStatus l s
  let bytes := readMem s (256 * l) 256
  let n := ((linesOf r.frame.off.toNat (spanBytes r.frame)).filter (fun x => decide (x = l))).length
  let s := countRead l (n * min 256 (spanBytes r.frame)) (logLine l srcRead s)
  lineDone { r with got := r.got ++ [(l, bytes)], status := worse r.status st } s

/-- The head entry of a line's combining queue. -/
def combHead (l : Nat) (s : State) : Option CombEntry := s.tgt.comb.find? (fun e => decide (e.line = l))

/-- Takes the head entry of a line's queue. -/
def popComb (l : Nat) (s : State) : State :=
  { s with tgt.comb := eraseFirst (fun e => decide (e.line = l)) s.tgt.comb }

/-- Serves the loads at the head of a line's queue (R100). -/
def serveHeads : Nat → Nat → State → State
  | 0, _, s => s
  | n + 1, l, s =>
    match combHead l s with
    | some e =>
      if e.kind = .load ∧ lineWaits l s = false then
        match findReq e.id s with
        | some r => serveHeads n l (serveLoad r l (popComb l s))
        | none => serveHeads n l (popComb l s)
      else s
    | none => s

/-- Serves every load that can be served at a line. -/
def serveLine (l : Nat) (s : State) : State := serveHeads (s.tgt.comb.length + 1) l s

/-- A load from the host aperture waits for the host lines it reads over CXL.cache (R23, R365). -/
def hostLoad (port : Nat) (f : Frame) (s : State) : State :=
  let id := s.tgt.nextId
  let lines := (linesOf f.off.toNat (spanBytes f))
  let req : TargetReq := ⟨id, port, f, s.clock, 4 * lines.length, [], stOk, 0⟩
  let halves := (lines.map (fun l => (List.range 4).map (fun i => 256 * l + 64 * i - apertureBase))).flatten
  { s with tgt.nextId := id + 1, tgt.reqs := s.tgt.reqs ++ [req],
           host.cacheReads := s.host.cacheReads ++ halves.map (fun a => (id, a)) }

/-- LOAD: the checks of R355 and R101, then each line is read at once or joins its queue (R94, R98, R100, R329,
R333). -/
def loadArrives (port : Nat) (f : Frame) (s : State) : State :=
  if !(queueRoom f s) then s else
  let s := prof bEPT 0 f.part.toNat evIn 1 (takeArrived port f s)
  match authenticate f (!(sharedAt f.off.toNat s)) s with
  | .stale => dropStale s
  | .tag => dropTag s
  | .pass =>
    let st := commonStatus f (malformedRequest f) s
    if st ≠ stOk then respond port f st [] s
    else if apertureBase ≤ f.off.toNat then hostLoad port f s
    else
      let lines := requestLines f
      lines.foldl (fun s l => serveLine l s) (enqueue port f .load lines s)

/-! ### The commands -/

/-- When the head of a line's queue may be applied: `d` ns after it arrived or after the line's last application
(R114). -/
def applyDue (e : CombEntry) (d : Nat) (s : State) : Bool :=
  due (max e.arrived (tblGet 0 s.tgt.lastApply e.line) + d) s

/-- A line was just applied to. -/
def noteApply (l : Nat) (s : State) : State :=
  { s with tgt.lastApply := tblSet 0 s.tgt.lastApply l s.clock }

/-- A request that fails leaves every queue it stands in and is answered: it has applied nothing at any line. -/
def failStore (r : TargetReq) (st : Byte) (s : State) : State :=
  let s := finishReq { r with status := st }
    { s with tgt.comb := s.tgt.comb.filter (fun e => decide (e.id ≠ r.id)) }
  (requestLines r.frame).foldl (fun s l => serveLine l s) s

/-- A store is applied to one of its lines (R98, R99, R101, R321). Its merges are checked at all of its lines before the
first is applied, and not again (R101; log entry 58). -/
def applyStore (r : TargetReq) (l : Nat) (s : State) : State :=
  let whole := replacesWhole r.frame l
  let bad := if r.left = (requestLines r.frame).length then
      (mergeLines r.frame).find? (fun m => decide (lineStatus m s ≠ stOk))
    else none
  match bad with
  | some m => failStore r (lineStatus m s) (logLine m srcMerge s)
  | none =>
    let st := if whole then stOk else lineStatus l s
    let s := if whole then s else logLine l srcMerge s
    lineDone r (if st = stOk then landBytes l (storeBytesIn r.frame l) whole s
      else { s with mem := setCells (256 * l) (storeBytesIn r.frame l) s.mem })

/-- COMBINE_APPLY: the store at the head of a line's queue lands; loads next in the queue see it (R97 to R100, R114,
R116). -/
def combineApply (l : Nat) (s : State) : State :=
  let s := serveLine l s
  match combHead l s with
  | some e =>
    if (e.kind = .store ∨ e.kind = .flagged) ∧ lineWaits l s = false ∧ applyDue e 2 s = true then
      match findReq e.id s with
      | some r => serveLine l (noteApply l (applyStore r l (popComb l s)))
      | none => popComb l s
    else s
  | none => s

/-- An atomic is applied to its line (R122 to R126). -/
def applyAtomic (r : TargetReq) (l : Nat) (s : State) : State :=
  let st := lineStatus l s
  let off := r.frame.off.toNat
  let n := atBytes r.frame
  let old := readNat s off n
  let s := logLine l srcAtomic s
  if st ≠ stOk then lineDone { r with status := st } s
  else
    match atomicNew r.frame old with
    | none => lineDone { r with status := stMalformed } s
    | some v =>
      let s := countRead l n s
      let s := landBytes l ((bytesOfNat n v).mapIdx (fun i b => (off % 256 + i, b))) false s
      lineDone { r with result := old } s

/-- ATOMIC_APPLY: the atomic at the head of a line's queue is applied, 4 ns after the last (R114, R122 to R126). -/
def atomicApply (l : Nat) (s : State) : State :=
  let s := serveLine l s
  match combHead l s with
  | some e =>
    if e.kind = .atomic ∧ lineWaits l s = false ∧ applyDue e 4 s = true then
      match findReq e.id s with
      | some r => serveLine l (noteApply l (applyAtomic r l (popComb l s)))
      | none => popComb l s
    else s
  | none => s

/-- The ledger's answer to a STATUS_QUERY (R138, R142). -/
def queryArrives (f : Frame) (s : State) : State :=
  if inQuarantine s then sendCore 36 (statusFrame f stOk 3 0) s
  else
    match findStream f.src f.stream s with
    | none =>
      if 16384 ≤ s.tgt.streams.length then
        sendCore 36 (statusFrame f stRetryBusy 0 0) (bump 0x1950010 1 (setFlag rLedgerStatus 1 s))
      else sendCore 36 (statusFrame f stOk 2 0) (recordSeq f.src f.stream f.seq .barred s)
    | some r =>
      let s := touchStream f.src f.stream s
      match placeOf r.top f.seq with
      | .behind => sendCore 36 (statusFrame f stOk 2 0) s
      | .ahead => sendCore 36 (statusFrame f stOk 0 0) (recordSeq f.src f.stream f.seq .barred s)
      | .window =>
        match seqState r f.seq with
        | .none => sendCore 36 (statusFrame f stOk 0 0) (recordSeq f.src f.stream f.seq .barred s)
        | .barred => sendCore 36 (statusFrame f stOk 0 0) s
        | .pending => { s with tgt.waiting := s.tgt.waiting ++ [f] }
        | .appliedStore => sendCore 36 (queryApplied f false s) s
        | .appliedAtomic => sendCore 36 (queryApplied f true s) s

/-- A query delivered to any end-point port is taken. -/
def takeArrivedAny (f : Frame) (s : State) : State :=
  { s with tgt.arrived := eraseFirst (fun e => decide (e.2 = f)) s.tgt.arrived }

/-- Copies of a query's request that have been delivered and not yet taken: they reach the ledger first (R132). -/
def copiesFirst (f : Frame) (s : State) : State :=
  (s.tgt.arrived.filter (fun e => decide ((e.2.ty = tyStore ∨ e.2.ty = tyFlagged ∨ e.2.ty = tyBulk ∨ e.2.ty = tyAtomic) ∧
    e.2.src = f.src ∧ e.2.stream = f.stream ∧ e.2.seq = f.seq))).foldl (fun s e => writeArrives e.1 e.2 s) s

/-- STATUS_QUERY (R128, R131, R132, R137, R138, R142). -/
def execStatusQuery (f : Frame) (s : State) : Host.Outcome State Fault Refusal :=
  act s (whenTrue (decide (f.ty = tyQuery)) (fun s => queryArrives f (takeArrivedAny f (copiesFirst f s))))

/-- LEDGER_RETENTION_EXPIRY: a stream without an arrival for 2.5 ms loses its record and results (R127, R132). -/
def execLedgerRetentionExpiry (src sid : BitVec 16) (s : State) : Host.Outcome State Fault Refusal :=
  act s (fun s =>
    match findStream src sid s with
    | some r =>
      if due (r.lastArrival + 2500000) s then
        let s := keepResults src sid (fun _ => false) s
        { s with tgt.streams := s.tgt.streams.filter (fun x => !(decide (x.src = src ∧ x.sid = sid))) }
      else s
    | none => s)

/-- QUARANTINE_END: 2.5 ms after the end-point reset ended (R142). -/
def execQuarantineEnd (s : State) : Host.Outcome State Fault Refusal :=
  act s (fun s =>
    match s.tgt.quarantineEnd with
    | some t => if due t s then { s with tgt.quarantineEnd := none } else s
    | none => s)

end Sys2Proof.Machine
end

