-- ==== Sys2Proof/Machine/Attest.lean ====
section
/-! DEFINITION. Identity, measurements and the attestation report (R337 to R343). -/
namespace Sys2Proof.Machine

/-- DEVICE_ID: the first 8 bytes of SHA-384 over the DIK public key (R339). -/
def deviceId : Word := (Config.sha384 Config.dikPublicKey).setWidth 64

/-- A valid enrolment certificate is held: it names this part and the PART_ID it has now (R362). -/
def isEnrolled (s : State) : Bool :=
  match s.tenant.enrolled with
  | some c => decide (c.deviceId = deviceId ∧ c.partId = partId s)
  | none => false

/-- A program image slot: component 0 to 7, slot A (0) or B (1). -/
def getImage (c ab : Nat) (s : State) : SlotImage := tblGet slotImage0 s.service.slots (2 * c + ab)

def putImage (c ab : Nat) (v : SlotImage) (s : State) : State :=
  { s with service.slots := tblSet slotImage0 s.service.slots (2 * c + ab) v }

/-- The slot a component runs from: 0 for A, 1 for B. -/
def activeSlot (c : Nat) (s : State) : Nat := bit1 (s.service.activeB.getLsbD c)

/-- The 64 bytes of a measurement (R340). -/
def measurement (c : Nat) (s : State) : List Byte :=
  let v := getImage c (activeSlot c s) s
  [BitVec.ofNat 8 c, BitVec.ofNat 8 (activeSlot c s)] ++ bytesOfNat 2 0 ++ bytesOfNat 4 v.version.toNat ++
    bytesOfNat 4 (tblGet 0 s.tenant.updates c) ++ bytesOfNat 4 0 ++ bytesOfNat 48 v.digest.toNat

/-- The state code of a slot (R346). -/
def slotCode : SlotState → Nat
  | .empty => 0
  | .bound => 1
  | .keyed => 2
  | .active => 3
  | .fenced => 4
  | .clearing => 5

/-- "ZF36-KEYCHECK" in ASCII. -/
def keyCheckLabel : List Byte := [0x5A, 0x46, 0x33, 0x36, 0x2D, 0x4B, 0x45, 0x59, 0x43, 0x48, 0x45, 0x43, 0x4B]

/-- MANIFEST_DIGEST and KEY_CHECK, zero before INSTALL (R341). -/
def manifestDigest (k : KeySlot) : List Byte :=
  if k.installed then bytesOfNat 48 (Config.sha384 k.manifest).toNat else bytesOfNat 48 0

def keyCheck (k : KeySlot) : List Byte :=
  if k.installed then
    (bytesOfNat 48 (Config.sha384 (keyCheckLabel ++ bytesOfNat 64 k.memKey.toNat ++
      bytesOfNat 32 k.frameKey.toNat)).toNat).take 8
  else bytesOfNat 8 0

/-- The partition block of a report (R341): zero where none is named; for a partition bound in no slot of this part
likewise. -/
def partitionBlock (p : Byte) (s : State) : List Byte :=
  match (if p = 0 then none else partSlot p s) with
  | none => bytesOfNat 128 0
  | some n =>
    let k := getSlot n s
    [p, BitVec.ofNat 8 n, BitVec.ofNat 8 (slotCode k.st), k.generation] ++ bytesOfNat 4 k.epoch.toNat ++
      bytesOfNat 1 (bit1 (getBit (rSecSlot n) 60 s)) ++ bytesOfNat 1 (ownedPages n s).length ++ bytesOfNat 6 0 ++
      manifestDigest k ++ keyCheck k ++ bytesOfNat 56 0

/-- Bytes 0 to 703 of a report (R341). -/
def reportBody (nonce : BitVec 256) (p : Byte) (s : State) : List Byte :=
  bytesOfNat 4 0x5A464152 ++ bytesOfNat 2 1 ++ bytesOfNat 2 800 ++ bytesOfNat 8 deviceId.toNat ++
    bytesOfNat 2 (partId s).toNat ++ [0x41, 0x02] ++
    bytesOfNat 4 (bit1 (strictMode s) + 2 * bit1 s.power.oos + 4 * bit1 (getBit rSwcStatus 63 s) +
      8 * bit1 (isEnrolled s)) ++
    bytesOfNat 32 nonce.toNat ++ bytesOfNat 8 (now s).toNat ++
    ((List.range 8).map (fun c => measurement c s)).flatten ++ partitionBlock p s

/-- The report: body and signature (R341). -/
def report (nonce : BitVec 256) (p : Byte) (s : State) : List Byte :=
  reportBody nonce p s ++ Config.attestSign s.tenant.akDigest (reportBody nonce p s)

/-- A message in the clear: GET_CERTS and GET_REPORT are served in the DOE before READY, the rest answered RETRY_BUSY
there (R373). -/
def clearMessage (tr : Transport) (early : Bool) (f : State → State) (s : State) : State :=
  if !(transportUp tr s) || !s.tenant.identity then s
  else if tr = .doe ∧ early = false ∧ isReady s = false then keyAnswer .doe stRetryBusy [] s
  else f s

/-- The device identity and alias certificates (R338). -/
def certificates (s : State) : List Byte := Config.deviceCertificate deviceId ++ Config.aliasCertificate s.tenant.akDigest

/-- GET_CERTS (R338, R342). -/
def execGetCerts (tr : Transport) (s : State) : Host.Outcome State Fault Refusal :=
  act s (clearMessage tr true (fun s => keyAnswer tr stOk (certificates s) s))

/-- GET_REPORT (R341, R342). -/
def execGetReport (tr : Transport) (nonce : BitVec 256) (partition : BitVec 8) (s : State) :
    Host.Outcome State Fault Refusal :=
  act s (clearMessage tr true (fun s => keyAnswer tr stOk (report nonce partition s) s))

/-- The answer to KEY_EXCHANGE: the keeper's ephemeral key and nonce, and the AK's signature over both keys, both nonces
and DEVICE_ID (R342). -/
def exchangeAnswer (pub : List Byte) (nonce : BitVec 256) (s : State) : List Byte :=
  let n := s.freeCtr
  let own := Config.ephemeralKey n
  let ours := bytesOfNat 32 (Config.keeperNonce n).toNat
  own ++ ours ++ Config.attestSign s.tenant.akDigest
    (pub ++ own ++ bytesOfNat 32 nonce.toNat ++ ours ++ bytesOfNat 8 deviceId.toNat)

/-- Opens a session in the lowest place free, among 4; a key of another length than 97 bytes is MALFORMED. -/
def openSession (tr : Transport) (pub : List Byte) (nonce : BitVec 256) (s : State) : State :=
  if pub.length ≠ 97 then keyAnswer tr stMalformed [] s
  else
    match (List.range 4).find? (fun i => (getSession i s).isNone) with
    | none => keyAnswer tr stRetryBusy [] s
    | some i =>
      keyAnswer tr stOk (exchangeAnswer pub nonce s)
        (putSession i (some (newSession tr (Config.ecdhSecret s.freeCtr pub) nonce (Config.keeperNonce s.freeCtr) s.clock))
          { s with freeCtr := s.freeCtr + 1 })

/-- KEY_EXCHANGE (R342, R343). -/
def execKeyExchange (tr : Transport) (pub : List Byte) (nonce : BitVec 256) (s : State) :
    Host.Outcome State Fault Refusal :=
  act s (clearMessage tr false (openSession tr pub nonce))

/-- END: the session ends (R342). -/
def execEndSession (env : Envelope) (s : State) : Host.Outcome State Fault Refusal :=
  act s (sealedStatus env (fun s => (stOk, putSession env.session.val none s)))

/-- SESSION_TIMEOUT: 10 s without a message (R343). -/
def execSessionTimeout (sess : Fin 4) (s : State) : Host.Outcome State Fault Refusal :=
  act s (fun s => match getSession sess.val s with
    | some x => if due (x.last + 10000000000) s && keeperRuns s then failSession sess.val s else s
    | none => s)

end Sys2Proof.Machine
end

