-- ==== Sys2Proof/Machine/Operands.lean ====
section
/-! DEFINITION. The instruction slots of an array cell: their fields and operand codes (R207, R208, R210), and what
each opcode computes on its lanes (R209), as functions of the operand words. -/
namespace Sys2Proof.Machine

/-! ### Fields of a slot (R207) -/

abbrev slOp (i : Word) : Nat := wfield i 63 58
abbrev slStage (i : Word) : Nat := wfield i 57 55
abbrev slLanes (i : Word) : Nat := wfield i 54 53
abbrev slFmt (i : Word) : Nat := wfield i 52 49
abbrev slRing (i : Word) : Nat := wfield i 48 46
abbrev slDst (i : Word) : Nat := wfield i 45 39
abbrev slSrcA (i : Word) : Nat := wfield i 38 32
abbrev slSrcB (i : Word) : Nat := wfield i 31 25
abbrev slSrcC (i : Word) : Nat := wfield i 24 18
abbrev slSr (i : Word) : Bool := wbit i 17
abbrev slAux (i : Word) : Nat := wfield i 16 14
abbrev slImm (i : Word) : Nat := wfield i 13 0

/-- Operand codes (R210). -/
abbrev opN : Nat := 0x40
abbrev opE : Nat := 0x41
abbrev opS : Nat := 0x42
abbrev opW : Nat := 0x43
abbrev opRowBus : Nat := 0x44
abbrev opColBus : Nat := 0x45
abbrev opRoom : Nat := 0x46
abbrev opScr : Nat := 0x47
abbrev opZero : Nat := 0x48
abbrev opPident : Nat := 0x49
abbrev opTident : Nat := 0x4A
abbrev opConst : Nat := 0x4B
abbrev opPass : Nat := 0x4C
abbrev opCell : Nat := 0x4D
abbrev opArg : Nat := 0x4E

/-- Opcodes (R209). -/
abbrev oNop : Nat := 0x00
abbrev oMov : Nat := 0x01
abbrev oOplus : Nat := 0x02
abbrev oOtimes : Nat := 0x03
abbrev oMac : Nat := 0x04
abbrev oDot : Nat := 0x05
abbrev oSub : Nat := 0x06
abbrev oCmpsel : Nat := 0x07
abbrev oLogic : Nat := 0x08
abbrev oShift : Nat := 0x09
abbrev oCmp : Nat := 0x0A
abbrev oSel : Nat := 0x0B
abbrev oPerm : Nat := 0x0C
abbrev oCvt : Nat := 0x0D
abbrev oAnchor : Nat := 0x0E
abbrev oTofix : Nat := 0x0F
abbrev oFromfix : Nat := 0x10
abbrev oScale : Nat := 0x11
abbrev oRand : Nat := 0x12
abbrev oSetidx : Nat := 0x13
abbrev oLdi : Nat := 0x14
abbrev oHred : Nat := 0x15

/-- The cycles from issue to the write of the result (R209). -/
def latency (op : Nat) (isFloat : Bool) : Nat :=
  match op with
  | 0x02 | 0x03 | 0x06 => if isFloat then 3 else 1
  | 0x04 => 4
  | 0x05 => 5
  | 0x07 => 2
  | 0x0A => if isFloat then 2 else 1
  | 0x0D => 3
  | 0x0E => 2
  | 0x0F => 3
  | 0x10 => 3
  | 0x11 => 2
  | 0x12 => 12
  | 0x15 => 4
  | _ => 1

/-! ### Lanes -/

/-- Lane `i` of `w` bits of a word. -/
def lane (v : Vec) (w i : Nat) : Nat := v.toNat / 2 ^ (w * i) % 2 ^ w

/-- A word from its lanes, lane 0 first. -/
def ofLanes (w : Nat) (l : List Nat) : Vec :=
  BitVec.ofNat 128 (l.foldr (fun x acc => x % 2 ^ w + acc * 2 ^ w) 0)

/-- The number of lanes of a width. -/
def laneCount (w : Nat) : Nat := 128 / w

/-- The result of a lane, or a free value where the spec states none (log entry 5): the free values of one command
are numbered by lane from the state's counter. -/
def orFree (ctr i : Nat) : Option Nat → Nat
  | some x => x
  | none => (Config.freeValue (ctr + i)).toNat

/-- A lane-wise result. -/
def mapLanes (ctr w : Nat) (f : Nat → Option Nat) : Vec :=
  ofLanes w ((List.range (laneCount w)).map (fun i => orFree ctr i (f i)))

/-- A whole word whose value the spec does not state. -/
def freeVec (ctr : Nat) : Vec :=
  ofLanes 64 [(Config.freeValue ctr).toNat, (Config.freeValue (ctr + 1)).toNat]

/-- What a cell's operation works on: its instruction, format, lane width, semiring, operand words, the run's seed
and stream, the element-index latch, and the free-value counter. -/
structure CellIn where
  i : Word
  f : Fmt
  w : Nat
  r : Ring
  a : Vec
  b : Vec
  c : Vec
  seed : Nat
  stream : Nat
  idx : Nat
  ctr : Nat
  deriving DecidableEq, Repr

/-- OPLUS (R187, R209). -/
def cellOplus (x : CellIn) : Vec := mapLanes x.ctr x.w (fun j => ringPlus x.r x.f x.w (lane x.a x.w j) (lane x.b x.w j))

/-- OTIMES (R187, R209). -/
def cellOtimes (x : CellIn) : Vec :=
  mapLanes x.ctr x.w (fun j => ringTimes x.r x.f x.w (lane x.a x.w j) (lane x.b x.w j))

/-- MAC (R187, R209). -/
def cellMac (x : CellIn) : Vec :=
  mapLanes x.ctr x.w (fun j => ringMac x.r x.f x.w (lane x.a x.w j) (lane x.b x.w j) (lane x.c x.w j))

/-- The products of the lanes that lie within one 32-bit lane, summed exactly onto a start value. -/
def dotFloat (x : CellIn) (d : FloatDesc) (j : Nat) : FVal :=
  (List.range (32 / x.w)).foldl (fun acc k =>
    let n := j * (32 / x.w) + k
    fAdd acc (fMul (decodeFloat d (lane x.a x.w n)) (decodeFloat d (lane x.b x.w n))))
    (decodeLane .fp32 32 (lane x.c 32 j))

/-- The integer sum of the same products. -/
def dotInt (x : CellIn) (j : Nat) : Int :=
  (List.range (32 / x.w)).foldl (fun acc k =>
    let n := j * (32 / x.w) + k
    acc + decodeInt x.f.signed x.w (lane x.a x.w n) * decodeInt x.f.signed x.w (lane x.b x.w n))
    (decodeInt true 32 (lane x.c 32 j))

/-- DOT (R209): on 64-bit lanes no product lies within 32 bits, and the result is not stated. -/
def cellDot (x : CellIn) : Vec :=
  mapLanes x.ctr 32 (fun j =>
    if 32 < x.w then none
    else match x.f.float with
      | some d => roundFloat .fp32 (dotFloat x d j)
      | none => some (wrapInt 32 (dotInt x j)))

/-- SUB in (+,×) (R182, R209). -/
def cellSub (x : CellIn) : Vec :=
  mapLanes x.ctr x.w (fun j => match x.f.float with
    | some d => encodeFloat d .nearest
        (fAdd (decodeFloat d (lane x.a x.w j)) (fNeg (decodeFloat d (lane x.b x.w j))))
    | none => some (wrapInt x.w ((lane x.a x.w j : Int) - (lane x.b x.w j : Int))))

/-- Whether the A pair wins over the B pair (R185): a NaN wins, then the order, then the lower index. -/
def pairWins (isMax : Bool) (f : Fmt) (va ia vb ib : Nat) : Bool :=
  let a := decodeLane f 32 va
  let b := decodeLane f 32 vb
  if a.isNan && b.isNan then decide (ia ≤ ib)
  else if a.isNan then true
  else if b.isNan then false
  else if fEq a b then decide (ia ≤ ib)
  else if isMax then fLt b a else fLt a b

/-- The value of a winning pair: a NaN becomes the canonical NaN (R185). -/
def pairValue (f : Fmt) (v : Nat) : Nat := if (decodeLane f 32 v).isNan then 0x7FC00000 else v

/-- CMPSEL (R185, R209). -/
def cellCmpsel (x : CellIn) : Vec :=
  if 1 < slAux x.i then freeVec x.ctr
  else
    ofLanes 32 (((List.range 2).map (fun k =>
      let va := lane x.a 32 (2 * k); let ia := lane x.a 32 (2 * k + 1)
      let vb := lane x.b 32 (2 * k); let ib := lane x.b 32 (2 * k + 1)
      if pairWins (decide (slAux x.i = 1)) x.f va ia vb ib then [pairValue x.f va, ia]
      else [pairValue x.f vb, ib])).flatten)

/-- LOGIC (R209). -/
def cellLogic (x : CellIn) : Vec :=
  match slAux x.i with
  | 0 => x.a &&& x.b
  | 1 => x.a ||| x.b
  | 2 => x.a ^^^ x.b
  | 3 => x.a &&& ~~~x.b
  | 4 => ~~~x.a
  | _ => freeVec x.ctr

/-- SHIFT of one lane (R209). -/
def shiftLane (aux w n v : Nat) : Option Nat :=
  match aux with
  | 0 => some (v * 2 ^ n % 2 ^ w)
  | 1 => some (v / 2 ^ n)
  | 2 => some (wrapInt w (decodeInt true w v / (2 : Int) ^ n))
  | _ => none

/-- SHIFT by IMM[5:0] modulo the lane width (R209). -/
def cellShift (x : CellIn) : Vec :=
  mapLanes x.ctr x.w (fun j => shiftLane (slAux x.i) x.w (slImm x.i % 64 % x.w) (lane x.a x.w j))

/-- A condition of CMP (R209): floats under R185, where a NaN meets only NE. -/
def cmpHolds (aux : Nat) (a b : FVal) : Option Bool :=
  match aux with
  | 0 => some (fEq a b)
  | 1 => some (!(fEq a b))
  | 2 => some (!a.isNan && !b.isNan && fLt a b)
  | 3 => some (!a.isNan && !b.isNan && !(fLt b a))
  | _ => none

/-- CMP (R185, R209). -/
def cellCmp (x : CellIn) : Vec :=
  mapLanes x.ctr x.w (fun j =>
    (cmpHolds (slAux x.i) (decodeLane x.f x.w (lane x.a x.w j)) (decodeLane x.f x.w (lane x.b x.w j))).map
      (fun h => if h then 2 ^ x.w - 1 else 0))

/-- SEL (R209): a lane of C is taken as non-zero by its bits. -/
def cellSel (x : CellIn) : Vec :=
  mapLanes x.ctr x.w (fun j => some (if lane x.c x.w j = 0 then lane x.b x.w j else lane x.a x.w j))

/-- PERM of one lane (R209). -/
def permLane (x : CellIn) (n j : Nat) : Option Nat :=
  match slAux x.i with
  | 0 => some (lane x.a x.w (n - 1 - j))
  | 1 => some (lane x.a x.w (if j % 2 = 0 then j + 1 else j - 1))
  | 2 => some (lane x.a x.w ((j + n / 2) % n))
  | 3 => if slImm x.i % 32 < n then some (lane x.a x.w (slImm x.i % 32)) else none
  | 4 => some (lane (if j % 2 = 0 then x.a else x.b) x.w (j / 2))
  | 5 => some (lane (if j % 2 = 0 then x.a else x.b) x.w (n / 2 + j / 2))
  | _ => none

/-- PERM (R209). -/
def cellPerm (x : CellIn) : Vec := mapLanes x.ctr x.w (permLane x (laneCount x.w))

/-- The rounding of one lane of a conversion: SR takes the draw of the run's element (R195). -/
def cvtRounding (x : CellIn) (j : Nat) : Rounding :=
  if slSr x.i then .random (roundingDraw x.seed x.stream (x.idx + j)) else .nearest

/-- A narrowing result: part `p` of D from `l`, the other parts from C (R209). -/
def intoPart (c : Vec) (parts p : Nat) (v : Vec) : Vec :=
  let bits := 128 / parts
  let m : Vec := BitVec.ofNat 128 ((2 ^ bits - 1) * 2 ^ (bits * p))
  (c &&& ~~~m) ||| (BitVec.ofNat 128 (v.toNat % 2 ^ bits * 2 ^ (bits * p)))

/-- CVT between lane formats other than FP6 (R183, R209). -/
def cvtLanes (x : CellIn) (t : Fmt) : Vec :=
  let wt := t.width 2
  if x.w ≤ wt then
    let q := wt / x.w
    let n := laneCount wt
    let p := slAux x.i % q
    ofLanes wt ((List.range n).map (fun j =>
      orFree x.ctr j (convert x.f t x.w wt (cvtRounding x j) (lane x.a x.w (p * n + j)))))
  else
    let q := x.w / wt
    let n := laneCount x.w
    let v := ofLanes wt ((List.range n).map (fun j =>
      orFree x.ctr j (convert x.f t x.w wt (cvtRounding x j) (lane x.a x.w j))))
    intoPart x.c q (slAux x.i % q) v

/-- CVT (R183, R195, R209). FP6 packs sixteen 8-bit lanes into 12 bytes, or unpacks them into the target's 8-bit
lanes; any other width beside FP6, and a raw or reserved format, has no stated result. -/
def cellCvt (x : CellIn) : Vec :=
  match Fmt.ofCode (slSrcB x.i % 16) with
  | none => freeVec x.ctr
  | some .raw => freeVec x.ctr
  | some .fp6 =>
    if x.w ≠ 8 then freeVec x.ctr
    else
      let l := (List.range 16).map (fun j =>
        orFree x.ctr j (convert x.f .fp6 8 8 (cvtRounding x j) (lane x.a 8 j)) % 64)
      let lo := l.foldr (fun v acc => v + acc * 64) 0
      BitVec.ofNat 128 (lo + x.c.toNat / 2 ^ 96 * 2 ^ 96)
  | some t =>
    if x.f = .fp6 then
      if t.width 2 ≠ 8 then freeVec x.ctr
      else ofLanes 8 ((List.range 16).map (fun j =>
        orFree x.ctr j (convert .fp6 t 8 8 (cvtRounding x j) (x.a.toNat / 2 ^ (6 * j) % 64))))
    else if x.f = .raw then freeVec x.ctr
    else cvtLanes x t

/-- ANCHOR: the anchor byte of lane j of A in 8-bit lane j (R189, R209). -/
def cellAnchor (x : CellIn) : Vec :=
  ofLanes 8 ((List.range 16).map (fun j =>
    if j < laneCount x.w then anchorByte (decodeLane x.f x.w (lane x.a x.w j)) else 0))

/-- TOFIX (R190, R209): fp32 to the int64 form, narrower formats to the int32 form. -/
def cellTofix (x : CellIn) : Vec :=
  let wide := decide (x.f = .fp32)
  let wd := if wide then 64 else 32
  let n := laneCount wd
  let q := wd / x.w
  let p := slAux x.i % (max 1 q)
  ofLanes wd ((List.range n).map (fun j =>
    orFree x.ctr j
      (if x.w ≤ 16 ∨ wide = true then
        (toFixed wide (lane x.b 8 0) (decodeLane x.f x.w (lane x.a x.w (p * n + j)))).map (wrapInt wd)
      else none)))

/-- FROMFIX (R191, R209). -/
def cellFromfix (x : CellIn) : Vec :=
  let wide := decide (x.f = .fp32)
  let ws := if wide then 64 else 32
  let n := laneCount ws
  let q := ws / x.w
  let v := ofLanes x.w ((List.range n).map (fun j =>
    orFree x.ctr j
      (if x.w ≤ 16 ∨ wide = true then
        roundFloat x.f (fromFixed wide (lane x.b 8 0) (decodeInt true ws (lane x.a ws j)))
      else none)))
  intoPart x.c (max 1 q) (slAux x.i % (max 1 q)) v

/-- SCALE: A × 2^B, rounded once (R209). -/
def cellScale (x : CellIn) : Vec :=
  mapLanes x.ctr 32 (fun j =>
    roundFloat .fp32 (match decodeLane .fp32 32 (lane x.a 32 j) with
      | .fin s m e => .fin s m (e + decodeInt true 32 (lane x.b 32 j))
      | v => v))

/-- The index an operand word carries: lane 0 and bits 7:0 of lane 1 (RAND, SETIDX). -/
def wordIndex (a : Vec) : Nat := lane a 32 0 + (lane a 32 1 % 256) * 2 ^ 32

/-- RAND (R193, R209). -/
def cellRand (x : CellIn) : Vec := BitVec.ofNat 128 (gen x.seed x.stream (wordIndex x.a))

/-- LDI (R209). -/
def cellLdi (x : CellIn) : Vec :=
  mapLanes x.ctr x.w (fun _ => some (wrapInt x.w (decodeInt true 14 (slImm x.i))))

/-- HRED (R182, R209): the ⊕ of A's lanes in ascending order in lane 0, the ⊕ identity in the others. -/
def cellHred (x : CellIn) : Vec :=
  let n := laneCount x.w
  let first := lane x.a x.w 0
  let total := (List.range (n - 1)).foldl (fun acc k =>
    acc.bind (fun t => ringPlus x.r x.f x.w t (lane x.a x.w (k + 1)))) (some first)
  mapLanes x.ctr x.w (fun j => if j = 0 then total else plusIdent x.r x.f x.w)

end Sys2Proof.Machine
end

