-- ==== Sys2Proof/Machine/Grid.lean ====
section
/-! DEFINITION. The array's parts that runs and collectives share: its planes, the rooms in its slices (R220 to R222),
room quotas and grants (R162, R221), the cell signature (R201). -/
namespace Sys2Proof.Machine

/-! ### Planes (R217, R231, R252, R253) -/

/-- The active plane and the shadow. -/
def activePlane (s : State) : Plane := if s.array.activeB then s.array.planeB else s.array.planeA

def shadowPlane (s : State) : Plane := if s.array.activeB then s.array.planeA else s.array.planeB

/-- The planes with a new value. -/
def putActive (p : Plane) (s : State) : State :=
  if s.array.activeB then { s with array.planeB := p } else { s with array.planeA := p }

def putShadow (p : Plane) (s : State) : State :=
  if s.array.activeB then { s with array.planeA := p } else { s with array.planeB := p }

/-- The shadow is discarded (R252). -/
def discardShadow (s : State) : State := putShadow plane0 { s with array.shadow := 0 }

/-- A plane serves an image (R248, R253). -/
def serves (p : Plane) (fa crc : Nat) : Bool := p.loaded && !p.retired && decide (p.fa = fa ∧ p.crc = crc)

/-- An event ends a plane's service: the shadow is discarded, the active plane retired (R252, R253). -/
def planesLeave (hit : Plane → Bool) (s : State) : State :=
  let s := if s.array.shadow ≠ 0 ∧ hit (shadowPlane s) = true then discardShadow s else s
  let a := activePlane s
  if a.loaded && hit a then putActive { a with retired := true } s else s

/-- An UNMAP covers a page of a plane's image (R252, R253). -/
def planesUnmap (p : Byte) (first count : Nat) (s : State) : State :=
  planesLeave (fun x => match x.pages with
    | some g => decide (x.part = p ∧ first < g.1 + g.2 ∧ g.1 < first + count)
    | none => false) s

/-- A partition that caused a plane's load is fenced (R252, R253). -/
def planesFence (p : Byte) (s : State) : State := planesLeave (fun x => decide (p ≠ 0 ∧ x.part = p)) s

/-- No run starts: issue is held, a rope pair captures or holds (R202), or the array failed its self-test (R403). -/
def arrayHeld (s : State) : Bool :=
  issueHeld s || s.rope.held || s.rope.capture.isSome || decide (s.power.failStage = 0x0B)

/-- This part is the primary of a formed pair, or its shadow. -/
def ropePrimary (s : State) : Bool := s.rope.paired && !(getBit rRopeCfg 62 s)

def ropeShadow (s : State) : Bool := s.rope.paired && getBit rRopeCfg 62 s

/-- A part of a formed pair sends its partner bytes over the rope port (the frames' layout is not given, log entry 32). -/
def ropeOut (kind : RopeOut) (bs : List Byte) (s : State) : State :=
  if s.rope.paired then { s with rope.sent := s.rope.sent ++ [(kind, bs)] } else s

/-- A primary sends bytes to its shadow, in the order in which the array takes them (R201). -/
def ropeSend (kind : RopeInput) (bs : List Byte) (s : State) : State :=
  if ropePrimary s then ropeOut (.input kind) bs s else s

/-- One chunk of array output under a formed pair: its CRC goes to the partner and waits for the partner's (R201). -/
def ropeChunk (route : Nat) (crc : Word) (s : State) : State :=
  if s.rope.paired then
    ropeOut .chunkCrc (bytesOfNat 8 crc.toNat)
      { s with rope.crcs := s.rope.crcs ++ [⟨s.rope.runNo, s.rope.chunkNo, route, crc⟩],
               rope.chunkNo := s.rope.chunkNo + 1 }
  else s

/-! ### Rooms (R220 to R222) -/

/-- Where byte `b` of room `n` lies: the cell, its slice word and the byte in it (R220). -/
def roomPlace (n b : Nat) : Nat × Nat × Nat :=
  (64 * (n / 80) + b / 16 % 64, n % 80 * 32 + b / 1024, b % 16)

/-- A slice word. -/
def sliceWord (cell w : Nat) (s : State) : Vec := tblGet 0 s.array.slices (2560 * cell + w)

/-- A write replaces a word with its check bits: an error in it is gone. -/
def putSliceWord (cell w : Nat) (v : Vec) (s : State) : State :=
  { s with array.slices := tblSet 0 s.array.slices (2560 * cell + w) v,
           array.badSlices := s.array.badSlices.filter (fun x => decide (x ≠ 2560 * cell + w)) }

/-- A word with one byte replaced. -/
def setVecByte (v : Vec) (i : Nat) (b : Byte) : Vec :=
  (v &&& ~~~(BitVec.ofNat 128 (255 * 2 ^ (8 * i)))) ||| BitVec.ofNat 128 (b.toNat * 2 ^ (8 * i))

/-- One byte of a room. -/
def roomByte (n b : Nat) (s : State) : Byte :=
  let p := roomPlace n b
  BitVec.ofNat 8 ((sliceWord p.1 p.2.1 s).toNat / 2 ^ (8 * p.2.2))

def putRoomByte (n b : Nat) (v : Byte) (s : State) : State :=
  let p := roomPlace n b
  putSliceWord p.1 p.2.1 (setVecByte (sliceWord p.1 p.2.1 s) p.2.2 v) s

/-- The bytes of a room. -/
def roomBytesTotal : Nat := 32768

/-- Byte `b` of a form that lies across several rooms. -/
def roomsByte (rooms : List Nat) (b : Nat) (s : State) : Byte :=
  match rooms[b / 32768]? with
  | some n => roomByte n (b % 32768) s
  | none => 0

/-- Some word of some rooms has an error that the 144/128 code cannot correct (R227). -/
def roomsBad (rooms : List Nat) (s : State) : Bool :=
  s.array.badSlices.any (fun x => rooms.contains (80 * (x / 2560 / 64) + x % 2560 / 32))

/-- `n` bytes of a form that lies across several rooms. -/
def roomsRead (rooms : List Nat) (b n : Nat) (s : State) : List Byte :=
  (List.range n).map (fun i => roomsByte rooms (b + i) s)

/-- Bytes land in a form that lies across several rooms. -/
def roomsWrite (rooms : List Nat) : Nat → List Byte → State → State
  | _, [], s => s
  | b, v :: t, s =>
    roomsWrite rooms (b + 1) t (match rooms[b / 32768]? with
      | some n => putRoomByte n (b % 32768) v s
      | none => s)

/-! ### Quotas and grants (R162, R163, R221) -/

/-- One more than the slot that holds a room: 0 where it is free. -/
def roomHolder (n : Nat) (s : State) : Nat := tblGet 0 s.array.rooms n

/-- The holder's number of a partition: partition 0 has no slot, and no quota (log entry 31). -/
def holderOf (p : Byte) (s : State) : Nat :=
  if p = 0 then 65 else match partSlot p s with
    | some n => n + 1
    | none => 65

/-- Rooms a holder has. -/
def roomsUsed (h : Nat) (s : State) : Nat := (s.array.rooms.filter (fun e => decide (e.2 = h))).length

/-- Rooms granted to none. -/
def roomsFree (s : State) : Nat := 5120 - s.array.rooms.length

/-- MAX and FLOOR of a slot's quota (R162). -/
def quotaMax (n : Nat) (s : State) : Nat := getField (rRoomQuota n) 28 16 s
def quotaFloor (n : Nat) (s : State) : Nat := getField (rRoomQuota n) 12 0 s

/-- Rooms a holder may still take under its MAX. -/
def roomsUnderMax (h : Nat) (s : State) : Nat := if h = 65 then 5120 else quotaMax (h - 1) s - roomsUsed h s

/-- Rooms free to a holder: those the other slots' FLOORs do not keep (R162). -/
def roomsFreeTo (h : Nat) (s : State) : Nat :=
  let kept := (List.range 64).foldl (fun n k =>
    if k + 1 = h then n else n + (quotaFloor k s - roomsUsed (k + 1) s)) 0
  roomsFree s - kept

/-- The lowest free stripes of a row. -/
def freeStripes (row : Nat) (s : State) : List Nat :=
  (List.range 80).filter (fun t => decide (roomHolder (80 * row + t) s = 0))

/-- Gives rooms to a holder. -/
def takeRooms (h : Nat) (l : List Nat) (s : State) : State :=
  { s with array.rooms := l.foldl (fun t n => tblSet 0 t n h) s.array.rooms }

/-- Frees rooms. -/
def freeRooms (l : List Nat) (s : State) : State :=
  { s with array.rooms := l.foldl (fun t n => tblErase n t) s.array.rooms }

/-- The next row, from one on, with at least `k` free stripes, that is not among those given. -/
def nextRow (k : Nat) (used : List Nat) : Nat → Nat → State → Option Nat
  | 0, _, _ => none
  | n + 1, row, s =>
    if !(used.contains (row % 64)) && decide (k ≤ (freeStripes (row % 64) s).length) then some (row % 64)
    else nextRow k used n (row + 1) s

/-- Grants `n` rooms to each of `k` inputs: the q-th room of every input in one row, distinct rows taken round-robin after
the previous grant's last row, each room in the lowest free stripe (R221). A row without `k` free stripes is passed over.
None where they do not fit; otherwise the rows' stripes, in order. -/
def grantRows (h k : Nat) : Nat → State → List (List Nat) → Option (List (List Nat) × State)
  | 0, s, acc => some (acc, s)
  | n + 1, s, acc =>
    match nextRow k (acc.map (fun l => l.headD 0 / 80)) 64 (s.array.lastRow + 1) s with
    | none => none
    | some row =>
      let l := ((freeStripes row s).take k).map (fun t => 80 * row + t)
      grantRows h k n { takeRooms h l s with array.lastRow := row } (acc ++ [l])

/-- Grants `k` stripes in every row for a ROUTE_RUN: rooms in the order of the room image (R246). -/
def grantAllRows (h k : Nat) (s : State) : Option (List Nat × State) :=
  if (List.range 64).all (fun r => decide (k ≤ (freeStripes r s).length)) then
    let l := ((List.range 64).map (fun r => ((freeStripes r s).take k).map (fun t => 80 * r + t))).flatten
    some (l, { takeRooms h l s with array.lastRow := 63 })
  else none

/-! ### The cell signature (R201) -/

/-- A cell's running signature and its value. -/
def runningSig (cell : Nat) (s : State) : Nat := tblGet (2 ^ 32 - 1) s.array.sigs cell

def cellSig (cell : Nat) (s : State) : Nat := Nat.xor (runningSig cell s) (2 ^ 32 - 1)

/-- A value written to a neighbour, a bus or the room slice enters the signature. -/
def signValue (cell : Nat) (v : Vec) (s : State) : State :=
  { s with array.sigs := tblSet (2 ^ 32 - 1) s.array.sigs cell (crcCell (bytesOfNat 16 v.toNat) (runningSig cell s)) }

end Sys2Proof.Machine
end

