-- ==== Sys2Proof/Machine/Cells.lean ====
section
/-! DEFINITION. The cells of the array at work: operands (R210), issue (R209, R211 to R213, R218), results (R211, R215,
R216, R222), the column buses (R225, R247). -/
namespace Sys2Proof.Machine

/-! ### The run under way and its loop (R218) -/

/-- The run of a route under way: a ROUTE_RUN, or in a shadow its primary's. -/
def currentRun (s : State) : Option RunRec :=
  match s.array.current with
  | some (.route q i) => s.array.runs.find? (fun r => decide (r.queue = q ∧ r.index = i ∧ r.phase = .running))
  | some .rope => s.rope.run
  | _ => none

/-- A run's record with a new value: a shadow's running one is its primary's. -/
def putRun (r : RunRec) (s : State) : State :=
  if s.array.current = some .rope ∧ r.phase = .running then { s with rope.run := some r }
  else
    { s with array.runs := updFirst (fun x => decide (x.queue = r.queue ∧ x.index = r.index)) (fun _ => r) s.array.runs }

/-- A run goes wrong: its first status stays; an error that ends it early ends it at the end of its pass (R222, R227,
R247). -/
def runFails (st : Byte) (early : Bool) (s : State) : State :=
  match currentRun s with
  | some r => putRun { r with status := if r.status = stOk then st else r.status, early := r.early || early } s
  | none => s

/-- A cell's slot of the active plane, and its switch block (R207, R217). -/
def cellSlot (p : Plane) (cell i : Nat) : Word := tblGet 0 p.slots (32 * cell + i)

def cellSwitch (p : Plane) (cell : Nat) : BitVec 512 := tblGet 0 p.switch cell

/-- Fields of a switch block (R217). -/
def swRowDrive (w : BitVec 512) (slot : Nat) : Bool := w.getLsbD slot
def swColDrive (w : BitVec 512) (slot : Nat) : Bool := w.getLsbD (32 + slot)
def swActive (w : BitVec 512) : Bool := w.getLsbD 192
def swConst (w : BitVec 512) : Vec := (w >>> (256 : Nat)).setWidth 128

/-- The word address of a generator in a pass (R217): generators 0 and 1 for rooms, 2 and 3 for scratch. -/
def genAddr (w : BitVec 512) (g imm pass size : Nat) : Nat :=
  let f := field w.toNat (64 + 32 * g + 31) (64 + 32 * g)
  (field f 31 20 + imm % 4096 + pass * field f 19 8) % size

/-- The logical room word and the scratch word an instruction names in a pass (R207, R210). -/
def roomAddr (w : BitVec 512) (i : Word) (pass : Nat) : Nat :=
  genAddr w (slImm i / 4096 % 2) (slImm i) pass 2560

def scratchAddr (w : BitVec 512) (i : Word) (pass : Nat) : Nat :=
  genAddr w (2 + slImm i / 8192 % 2) (slImm i) pass 256

/-- A slot executes in this pass (R218). -/
def slotLive (i : Word) (pass passes : Nat) : Bool := decide (slStage i ≤ pass ∧ pass < passes + slStage i)

/-- The physical slice word of a logical room word for a run: none where the stripe is unmapped (R221, R222). -/
def mapStripe (r : RunRec) (cell addr : Nat) : Option Nat :=
  let stripe := addr / 32
  if stripe < r.stripes then
    (r.rooms[cell / 64 * r.stripes + stripe]?).map (fun n => n % 80 * 32 + addr % 32)
  else none

/-! ### Operands (R210) -/

/-- Whether an opcode reads A, B and C. -/
def readsA (op : Nat) : Bool := decide (op ≠ oNop ∧ op ≠ oLdi)

def readsB (i : Word) : Bool :=
  match slOp i with
  | 0x02 | 0x03 | 0x04 | 0x05 | 0x06 | 0x07 | 0x0A | 0x0B | 0x0F | 0x10 | 0x11 => true
  | 0x08 => decide (slAux i ≠ 4)
  | 0x0C => decide (slAux i = 4 ∨ slAux i = 5)
  | _ => false

/-- A conversion that narrows into a part of D takes the other parts from C (R209). -/
def narrows (i : Word) : Bool :=
  match Fmt.ofCode (slFmt i), Fmt.ofCode (slSrcB i % 16) with
  | some f, some t => decide (t = .fp6 ∨ (f ≠ .fp6 ∧ t.width 2 < f.width (slLanes i)))
  | _, _ => false

def readsC (i : Word) : Bool :=
  match slOp i with
  | 0x04 | 0x05 | 0x0B | 0x10 => true
  | 0x0D => narrows i
  | _ => false

/-- The source codes an instruction reads, in the order A, B, C. -/
def sources (i : Word) : List Nat :=
  (if readsA (slOp i) then [slSrcA i] else []) ++ (if readsB i then [slSrcB i] else []) ++
    (if readsC i then [slSrcC i] else [])

/-- The number under which the free values of one issue of a slot are taken: it depends on the cell, the slot, the pass,
the instruction and its operands, and on nothing else, so that a run computes the same whenever it runs (R214; log entry
5). -/
def slotCtr (cell slot pass : Nat) (i : Word) (a b c : Vec) : Nat :=
  2 ^ 64 * (1 + ((((pass * 32 + slot) * 4096 + cell) * 2 ^ 64 + i.toNat) * 2 ^ 384 + a.toNat * 2 ^ 256 +
    b.toNat * 2 ^ 128 + c.toNat))

/-- An identity of R187 in every lane; a free value where the format has none. -/
def identVec (v : Option Nat) (w ctr : Nat) : Vec := mapLanes ctr w (fun _ => v)

/-- One number in every 32-bit lane. -/
def splat32 (v : Nat) : Vec := ofLanes 32 [v, v, v, v]

/-- The semiring, format and lane width of an instruction; reserved codes never pass the load checks (R226). -/
def slotRing (i : Word) : Ring := (Ring.ofCode (slRing i)).getD .plusTimes
def slotFmt (i : Word) : Fmt := (Fmt.ofCode (slFmt i)).getD .raw
def slotWidth (i : Word) : Nat := (slotFmt i).width (slLanes i)

/-- A word is read: an error that the 144/128 code cannot correct ends the run (R227). -/
def checkWord (bad : List Nat) (key : Nat) (s : State) : State :=
  whenTrue (bad.contains key) (runFails stUncorrectable true) s

/-- The array runs a shadow's copy of its primary's run. -/
def inRope (s : State) : Bool := decide (s.array.current = some .rope)

/-- A word that a shadow's primary sent for a cell. -/
def ropeWordFor (cell : Nat) (e : RopeInput × List Byte) : Bool :=
  match e.1 with
  | .arrayBytes c => decide (c.val = cell)
  | _ => false

/-- The words a shadow holds for a cell in its run, up to the next run's image. -/
def ropeWords (cell : Nat) (s : State) : List (RopeInput × List Byte) :=
  (s.rope.shadowBytes.takeWhile (fun e => decide (e.1 ≠ .routeImage))).filter (ropeWordFor cell)

/-- A shadow's cell takes the next word its primary's read (R201). -/
def takeRopeWord (cell : Nat) (s : State) : Vec × State :=
  match ropeWords cell s with
  | [] => (0, s)
  | e :: _ => (BitVec.ofNat 128 (natOfBytes e.2),
      { s with rope.shadowBytes := eraseFirst (ropeWordFor cell) s.rope.shadowBytes })

/-- A primary's cell has read a word: its shadow is sent it (R201). -/
def sendRopeWord (cell : Nat) (v : Vec) (s : State) : State :=
  if h : cell < 4096 then ropeSend (.arrayBytes ⟨cell, h⟩) (bytesOfNat 16 v.toNat) s else s

/-- The value of a source operand and what reading it does: COLBUS takes the next word of the input FIFO, ROOM may
find an unmapped stripe, a register, scratch or slice word an error; a shadow takes what its primary read (R201, R210,
R222, R227). -/
def readOperand (r : RunRec) (cell : Nat) (i : Word) (code : Nat) (s : State) : Vec × State :=
  let p := activePlane s
  let w := cellSwitch p cell
  let ctr := slotCtr cell s.array.slot s.array.pass i 0 0 0
  if code < 0x40 then
    (tblGet 0 s.array.regs (64 * cell + code), checkWord s.array.badRegs (64 * cell + code) s)
  else if code < 0x44 then (tblGet 0 s.array.latches (4 * cell + (code - 0x40)), s)
  else if code = opRowBus then (tblGet 0 s.array.bus (cell / 64), s)
  else if code = opColBus then
    if inRope s then takeRopeWord cell s
    else match tblGet [] s.array.inFifo cell with
    | v :: t => (v, sendRopeWord cell v { s with array.inFifo := tblSet [] s.array.inFifo cell t })
    | [] => (0, s)
  else if code = opRoom then
    if inRope s then
      (if roomAddr w i s.array.pass / 32 < r.stripes then takeRopeWord cell s else (0, setFlag rAryStatus 4 s))
    else match mapStripe r cell (roomAddr w i s.array.pass) with
    | some a => (sliceWord cell a s, checkWord s.array.badSlices (2560 * cell + a)
        (sendRopeWord cell (sliceWord cell a s) s))
    | none => (0, runFails stDenied false (setFlag rAryStatus 4 s))
  else if code = opScr then
    let a := 256 * cell + scratchAddr w i s.array.pass
    (tblGet 0 s.array.scratch a, checkWord s.array.badScratch a s)
  else if code = opPident then (identVec (plusIdent (slotRing i) (slotFmt i) (slotWidth i)) (slotWidth i) ctr, s)
  else if code = opTident then (identVec (timesIdent (slotRing i) (slotFmt i) (slotWidth i)) (slotWidth i) ctr, s)
  else if code = opConst then (swConst w, s)
  else if code = opPass then (splat32 (s.array.pass - slStage i), s)
  else if code = opCell then (ofLanes 32 [cell / 64, cell % 64, 0, 0], s)
  else if code = opArg then (r.args.getD (slImm i % 64) 0, s)
  else (0, s)

/-- An operand an instruction does not read is zero. -/
def readIf (b : Bool) (r : RunRec) (cell : Nat) (i : Word) (code : Nat) (s : State) : Vec × State :=
  if b then readOperand r cell i code s else (0, s)

/-! ### Issue (R209, R211, R213, R218) -/

/-- The destination code of the element-index latch, which no instruction can name. -/
abbrev dstIdx : Nat := 0x80

/-- The passes of the loop: N + S (R218). -/
def loopPasses (r : RunRec) (s : State) : Nat := r.passes + (activePlane s).maxStage

/-- A cell has issued in this cycle. -/
def markIssued (cell : Nat) (s : State) : State := { s with array.issued := cell :: s.array.issued }

/-- Issues an instruction: its operands are read now and its result is on its way. -/
def issueSlot (r : RunRec) (cell : Nat) (i : Word) (f : CellIn → Vec) (s : State) : State :=
  let (a, s) := readIf (readsA (slOp i)) r cell i (slSrcA i) s
  let (b, s) := readIf (readsB i) r cell i (slSrcB i) s
  let (c, s) := readIf (readsC i) r cell i (slSrcC i) s
  let x : CellIn :=
    { i := i, f := slotFmt i, w := slotWidth i, r := slotRing i, a := a, b := b, c := c, seed := r.seed,
      stream := r.stream, idx := tblGet 0 s.array.idx cell,
      ctr := slotCtr cell s.array.slot s.array.pass i a b c }
  let dst := if slOp i = oSetidx then dstIdx else slDst i
  let w := cellSwitch (activePlane s) cell
  let addr := if dst = opScr then scratchAddr w i s.array.pass else roomAddr w i s.array.pass
  let n : Pending := ⟨cell, s.array.slot, dst, addr, f x, s.array.cycle,
    s.array.cycle + latency (slOp i) (slotFmt i).isFloat⟩
  markIssued cell { s with array.pipe := s.array.pipe ++ [n] }

/-- The source operands of an instruction that a shadow takes from its primary: column-bus words, and words of mapped
rooms. -/
def ropeReads (r : RunRec) (w : BitVec 512) (i : Word) (pass : Nat) : Nat :=
  ((sources i).filter (fun c => decide (c = opColBus) || decide (c = opRoom ∧ roomAddr w i pass / 32 < r.stripes))).length

/-- An active cell would read more words in this cycle than its input FIFO holds, or in a shadow than its primary has sent
(R201, R213). -/
def stallsOnInput (r : RunRec) (cell : Nat) (s : State) : Bool :=
  let p := activePlane s
  let i := cellSlot p cell s.array.slot
  swActive (cellSwitch p cell) && decide (s.array.pass < loopPasses r s) && slotLive i s.array.pass r.passes &&
    !(s.array.issued.contains cell) &&
    (if inRope s then decide ((ropeWords cell s).length < ropeReads r (cellSwitch p cell) i s.array.pass)
      else decide ((tblGet [] s.array.inFifo cell).length < ((sources i).filter (fun c => decide (c = opColBus))).length))

/-- A result reaches its destination; a bus takes one only from a slot that may drive it (R216). -/
def reaches (p : Plane) (n : Pending) : Bool :=
  if n.dst = opRowBus then swRowDrive (cellSwitch p n.cell) n.slot
  else if n.dst = opColBus then swColDrive (cellSwitch p n.cell) n.slot else true

/-- Two results reach one destination: a register, a latch, a bus, the room slice or the scratch, which take one write in
a cycle (R211, R212, R216). -/
def sameDst (m n : Pending) : Bool :=
  decide (m.dst = n.dst) && (if n.dst = opRowBus then decide (m.cell / 64 = n.cell / 64) else decide (m.cell = n.cell))

/-- Of results that reach one destination in one cycle the later-issued is kept (R211). -/
def lastWrites (p : Plane) : List Pending → List Pending
  | [] => []
  | n :: t =>
    if reaches p n && t.any (fun m => reaches p m && sameDst m n) then lastWrites p t else n :: lastWrites p t

/-- The results written at the end of this cycle, the later-issued ones last (R211, R212). -/
def dueResults (s : State) : List Pending :=
  lastWrites (activePlane s) (s.array.pipe.filter (fun n => decide (n.due ≤ s.array.cycle)))

/-- A result due in this cycle finds its output queue full (R213). -/
def outputFull (s : State) : Bool :=
  (dueResults s).any (fun n => decide (n.dst = opColBus) && reaches (activePlane s) n &&
    decide (8 ≤ (tblGet [] s.array.outQ n.cell).length))

/-- The array stalls as a whole: no cell issues, and nothing is written (R213). -/
def arrayStalls (r : RunRec) (s : State) : Bool :=
  outputFull s || (activePlane s).switch.any (fun e => stallsOnInput r e.1 s)

/-- A cell issues its slot of this cycle if the slot holds the row's opcode; a slot outside its passes is a NOP (R218);
none issues while the array stalls (R213). -/
def issueCell (cell op : Nat) (f : CellIn → Vec) (s : State) : State :=
  match currentRun s with
  | none => s
  | some r =>
    let p := activePlane s
    let i := cellSlot p cell s.array.slot
    let o := if slotLive i s.array.pass r.passes then slOp i else oNop
    if issueStopped s || inReset .ary s || !(swActive (cellSwitch p cell)) || s.array.issued.contains cell ||
        decide (loopPasses r s ≤ s.array.pass) || decide (o ≠ op) || arrayStalls r s then s
    else if op = oNop then markIssued cell s
    else issueSlot r cell i f s

/-- CELL_NOP (R209, R218). -/
def execCellNop (cell : Fin 4096) (s : State) : Host.Outcome State Fault Refusal :=
  act s (issueCell cell.val oNop (fun _ => 0))

/-- MOV (R209, R210). -/
def execMov (cell : Fin 4096) (s : State) : Host.Outcome State Fault Refusal :=
  act s (issueCell cell.val oMov (fun x => x.a))

/-- OPLUS (R187, R209). -/
def execOplus (cell : Fin 4096) (s : State) : Host.Outcome State Fault Refusal :=
  act s (issueCell cell.val oOplus cellOplus)

/-- OTIMES (R187, R209). -/
def execOtimes (cell : Fin 4096) (s : State) : Host.Outcome State Fault Refusal :=
  act s (issueCell cell.val oOtimes cellOtimes)

/-- MAC (R187, R209). -/
def execMac (cell : Fin 4096) (s : State) : Host.Outcome State Fault Refusal :=
  act s (issueCell cell.val oMac cellMac)

/-- DOT (R209). -/
def execDot (cell : Fin 4096) (s : State) : Host.Outcome State Fault Refusal :=
  act s (issueCell cell.val oDot cellDot)

/-- SUB (R209). -/
def execSub (cell : Fin 4096) (s : State) : Host.Outcome State Fault Refusal :=
  act s (issueCell cell.val oSub cellSub)

/-- CMPSEL (R185, R209). -/
def execCmpsel (cell : Fin 4096) (s : State) : Host.Outcome State Fault Refusal :=
  act s (issueCell cell.val oCmpsel cellCmpsel)

/-- LOGIC (R209). -/
def execLogic (cell : Fin 4096) (s : State) : Host.Outcome State Fault Refusal :=
  act s (issueCell cell.val oLogic cellLogic)

/-- SHIFT (R209). -/
def execShift (cell : Fin 4096) (s : State) : Host.Outcome State Fault Refusal :=
  act s (issueCell cell.val oShift cellShift)

/-- CMP (R185, R209). -/
def execCmp (cell : Fin 4096) (s : State) : Host.Outcome State Fault Refusal :=
  act s (issueCell cell.val oCmp cellCmp)

/-- SEL (R209). -/
def execSel (cell : Fin 4096) (s : State) : Host.Outcome State Fault Refusal :=
  act s (issueCell cell.val oSel cellSel)

/-- PERM (R209). -/
def execPerm (cell : Fin 4096) (s : State) : Host.Outcome State Fault Refusal :=
  act s (issueCell cell.val oPerm cellPerm)

/-- CVT (R183, R195, R209). -/
def execCvt (cell : Fin 4096) (s : State) : Host.Outcome State Fault Refusal :=
  act s (issueCell cell.val oCvt cellCvt)

/-- ANCHOR (R189, R209). -/
def execAnchor (cell : Fin 4096) (s : State) : Host.Outcome State Fault Refusal :=
  act s (issueCell cell.val oAnchor cellAnchor)

/-- TOFIX (R190, R209). -/
def execTofix (cell : Fin 4096) (s : State) : Host.Outcome State Fault Refusal :=
  act s (issueCell cell.val oTofix cellTofix)

/-- FROMFIX (R191, R209). -/
def execFromfix (cell : Fin 4096) (s : State) : Host.Outcome State Fault Refusal :=
  act s (issueCell cell.val oFromfix cellFromfix)

/-- SCALE (R209). -/
def execScale (cell : Fin 4096) (s : State) : Host.Outcome State Fault Refusal :=
  act s (issueCell cell.val oScale cellScale)

/-- RAND (R193, R209). -/
def execRand (cell : Fin 4096) (s : State) : Host.Outcome State Fault Refusal :=
  act s (issueCell cell.val oRand cellRand)

/-- SETIDX (R209). -/
def execSetidx (cell : Fin 4096) (s : State) : Host.Outcome State Fault Refusal :=
  act s (issueCell cell.val oSetidx (fun x => BitVec.ofNat 128 (wordIndex x.a)))

/-- LDI (R209). -/
def execLdi (cell : Fin 4096) (s : State) : Host.Outcome State Fault Refusal :=
  act s (issueCell cell.val oLdi cellLdi)

/-- HRED (R182, R209). -/
def execHred (cell : Fin 4096) (s : State) : Host.Outcome State Fault Refusal :=
  act s (issueCell cell.val oHred cellHred)

/-! ### Results (R210, R211, R215, R216, R222) -/

/-- The neighbour of a cell in a direction 0 N, 1 E, 2 S, 3 W: none at the grid's edge (R215). -/
def neighbour (cell dir : Nat) : Option Nat :=
  match dir with
  | 0 => if cell < 64 then none else some (cell - 64)
  | 1 => if cell % 64 = 63 then none else some (cell + 1)
  | 2 => if 4032 ≤ cell then none else some (cell + 64)
  | _ => if cell % 64 = 0 then none else some (cell - 1)

/-- Writes one result; a write replaces a word with its check bits. The latches of a cell that is not active stay zero
(R217). -/
def writeResult (n : Pending) (s : State) : State :=
  let w := cellSwitch (activePlane s) n.cell
  let others := fun (l : List Nat) (k : Nat) => l.filter (fun x => decide (x ≠ k))
  if n.dst < 0x40 then
    { s with array.regs := tblSet 0 s.array.regs (64 * n.cell + n.dst) n.value,
             array.badRegs := others s.array.badRegs (64 * n.cell + n.dst) }
  else if n.dst < 0x44 then
    match neighbour n.cell (n.dst - 0x40) with
    | some c =>
      let s := signValue n.cell n.value s
      if swActive (cellSwitch (activePlane s) c) then
        { s with array.latches := tblSet 0 s.array.latches (4 * c + (n.dst - 0x40 + 2) % 4) n.value }
      else s
    | none => s
  else if n.dst = opRowBus then
    if swRowDrive w n.slot then
      signValue n.cell n.value
        { s with array.busNext := s.array.busNext ++ [(n.cell / 64, s.array.cycle, n.value)] }
    else setFlag rAryStatus 2 s
  else if n.dst = opColBus then
    if swColDrive w n.slot then
      signValue n.cell n.value
        { s with array.outQ := tblSet [] s.array.outQ n.cell (tblGet [] s.array.outQ n.cell ++ [n.value]) }
    else setFlag rAryStatus 2 s
  else if n.dst = opRoom then
    if inRope s then
      (if n.addr / 32 < ((currentRun s).map (·.stripes)).getD 0 then signValue n.cell n.value s else setFlag rAryStatus 4 s)
    else match (currentRun s).bind (fun r => mapStripe r n.cell n.addr) with
    | some a => signValue n.cell n.value (putSliceWord n.cell a n.value s)
    | none => runFails stDenied false (setFlag rAryStatus 4 s)
  else if n.dst = opScr then
    { s with array.scratch := tblSet 0 s.array.scratch (256 * n.cell + n.addr) n.value,
             array.badScratch := others s.array.badScratch (256 * n.cell + n.addr) }
  else if n.dst = dstIdx then { s with array.idx := tblSet 0 s.array.idx n.cell n.value.toNat }
  else s

/-- A word driven onto a row bus at the end of the last cycle becomes readable after this one (R216). -/
def shiftBus (s : State) : State :=
  let here := s.array.busNext.filter (fun e => decide (e.2.1 < s.array.cycle))
  let later := s.array.busNext.filter (fun e => decide (¬ e.2.1 < s.array.cycle))
  let bus := here.foldl (fun t e => tblSet 0 t e.1 e.2.2) s.array.bus
  { s with array.bus := bus, array.busNext := later }

/-- The loop moves to its next slot (R218). -/
def advanceLoop (r : RunRec) (s : State) : State :=
  let last := decide ((activePlane s).loop ≤ s.array.slot + 1)
  let more := decide (s.array.pass < loopPasses r s)
  { s with array.cycle := s.array.cycle + 1, array.issued := [],
           array.slot := if last || !more then 0 else s.array.slot + 1,
           array.pass := if last && more then s.array.pass + 1 else s.array.pass }

/-- A run in progress does not issue in this cycle: it is held back to keep the cap or by a hold, or the array stalls
(R213, R392, R393, R408). -/
def stallCycle (r : RunRec) (s : State) : Bool := issueStopped s || arrayStalls r s

/-- The end of an array cycle: once every active cell has issued, the due results are written and the loop moves on
(R210 to R213, R215, R216, R218, R222); a stall cycle only counts (R425). -/
def cycleEnd (s : State) : State :=
  match currentRun s with
  | none => s
  | some r =>
    if inReset .ary s then s
    else if stallCycle r s then bump 0x1930000 1 (bump 0x1930010 1 s)
    else if (decide (s.array.pass < loopPasses r s) &&
          decide (s.array.issued.length < (activePlane s).active)) then s
    else
      let l := dueResults s
      let busy := !s.array.issued.isEmpty
      let s := bump 0x1930000 1 (if busy then bump 0x1930008 1 (shiftBus s) else shiftBus s)
      let s := { s with array.pipe := s.array.pipe.filter (fun n => decide (s.array.cycle < n.due)) }
      advanceLoop r (l.foldl (fun s n => writeResult n s) s)

/-- INSTRUCTION_RESULT_WRITE (R210 to R213, R215, R216, R218, R222). -/
def execInstructionResultWrite (s : State) : Host.Outcome State Fault Refusal := act s cycleEnd

/-! ### The column buses (R213, R225, R242, R247) -/

/-- Appends a word to a cell's input FIFO. -/
def pushInput (cell : Nat) (v : Vec) (s : State) : State :=
  { s with array.inFifo := tblSet [] s.array.inFifo cell (tblGet [] s.array.inFifo cell ++ [v]),
           array.inNext := s.array.inNext + 1 }

/-- A free word for a read that gives none (R225, R247). -/
def freeInput (cell : Nat) (s : State) : State :=
  pushInput cell (freeVec s.freeCtr) { s with freeCtr := s.freeCtr + 2 }

/-- The cell that the next word of IN or OUT belongs to: words go in ascending order over the cells (R225). -/
def inCell (s : State) : Nat := s.array.inNext % 4096

def outCell (s : State) : Nat := s.array.outNext % 4096

/-- The next word of IN comes from an offset at local index 0 into its cell's FIFO (R225). A line that cannot be read ends
the run with its status (log entry 33). -/
def fetchWord (cell a : Nat) (s : State) : State :=
  let st := lineStatus (lineOf a) s
  let s := countRead (lineOf a) 16 (logLine (lineOf a) srcRead s)
  if st = stOk then pushInput cell (BitVec.ofNat 128 (readNat s a 16)) s
  else freeInput cell (runFails st true s)

/-- Takes the next word of OUT from its cell's queue (R225). -/
def popOutput (cell : Nat) (s : State) : State :=
  { s with array.outQ := tblSet [] s.array.outQ cell (tblGet [] s.array.outQ cell).tail,
           array.outNext := s.array.outNext + 1 }

end Sys2Proof.Machine
end

