-- ==== Sys2Proof/Machine/Plan.lean ====
section
/-! DEFINITION. What a collective's descriptor lays down: the group's geometry (R150 to R152), the checks of R145 to
R149, chunks and owners (R155, R174), the plan of steps (R156 to R158, R163), and what a step computes (R146, R184 to
R192, R255). -/
namespace Sys2Proof.Machine

/-! ### The group (R150, R151) -/

/-- A group's descriptor words. -/
def grpA (g : Nat) (s : State) : Word := getReg (rGroup g) s
def grpB (g : Nat) (s : State) : Word := getReg (rGroup g + 8) s
def grpStrict (g : Nat) (s : State) : Bool := wbit (grpA g s) 62
def grpPart (g : Nat) (s : State) : Byte := BitVec.ofNat 8 (wfield (grpA g s) 55 48)
def grpTag (g : Nat) (s : State) : BitVec 16 := BitVec.ofNat 16 (wfield (grpA g s) 47 32)
def grpOrder (g : Nat) (s : State) : Nat := wfield (grpA g s) 26 24
def grpMask (g : Nat) (s : State) : Nat := wfield (grpA g s) 14 0
def grpEpoch (g : Nat) (s : State) : Nat := getField (rGroup g + 0x10) 7 0 s

/-- The box's origin and extent on an axis 0 X, 1 Y, 2 Z. -/
def boxLo (g axis : Nat) (s : State) : Nat := wfield (grpB g s) (59 - 4 * axis) (56 - 4 * axis)
def boxLen (g axis : Nat) (s : State) : Nat := wfield (grpB g s) (47 - 4 * axis) (44 - 4 * axis)

/-- The part's own coordinate and the system's length on an axis (R280). -/
def selfCoord (axis : Nat) (s : State) : Nat := getField rRteSelf (47 - 4 * axis) (44 - 4 * axis) s
def axisLen (axis : Nat) (s : State) : Nat := getField rRteSelf (35 - 4 * axis) (32 - 4 * axis) s

/-- The part's coordinate relative to the box. -/
def myRel (g axis : Nat) (s : State) : Nat :=
  let n := max 1 (axisLen axis s)
  (selfCoord axis s + n - boxLo g axis s % n) % n

/-- The descriptor counts as VALID (R150, R152). -/
def grpValid (g : Nat) (s : State) : Bool :=
  wbit (grpA g s) 63 && decide (grpOrder g s < 6) &&
    (List.range 3).all (fun a => decide (1 ≤ boxLen g a s ∧ boxLen g a s ≤ 12 ∧ myRel g a s < boxLen g a s))

/-- The axes in the order AXIS_ORDER names: code 0 XYZ to 5 ZYX. -/
def axisOf (g k : Nat) (s : State) : Nat :=
  (match grpOrder g s with
    | 0 => [0, 1, 2]
    | 1 => [0, 2, 1]
    | 2 => [1, 0, 2]
    | 3 => [1, 2, 0]
    | 4 => [2, 0, 1]
    | _ => [2, 1, 0]).getD k 0

/-- Relative coordinates and part index (R151). -/
def idxOf (g : Nat) (c : Nat → Nat) (s : State) : Nat := (c 2 * boxLen g 1 s + c 1) * boxLen g 0 s + c 0

def relOf (g i axis : Nat) (s : State) : Nat :=
  let nx := max 1 (boxLen g 0 s)
  let ny := max 1 (boxLen g 1 s)
  match axis with
  | 0 => i % nx
  | 1 => i / nx % ny
  | _ => i / (nx * ny)

/-- This part's index in the group, and the number of group parts. -/
def myIndex (g : Nat) (s : State) : Nat := idxOf g (fun a => myRel g a s) s
def grpParts (g : Nat) (s : State) : Nat := boxLen g 0 s * boxLen g 1 s * boxLen g 2 s

/-- The local indices of the members on every part, and the numbers of R151. -/
def localList (g : Nat) (s : State) : List Nat := (List.range 15).filter (fun i => decide (grpMask g s / 2 ^ i % 2 = 1))
def localCount (g : Nat) (s : State) : Nat := (localList g s).length
def memberCount (g : Nat) (s : State) : Nat := localCount g s * grpParts g s

/-- The rank of this part's member at a local index (R151). -/
def rankOf (g li : Nat) (s : State) : Nat :=
  myIndex g s * localCount g s + ((localList g s).filter (fun i => decide (i < li))).length

/-- The part index and local index of a rank. -/
def rankPart (g r : Nat) (s : State) : Nat := r / max 1 (localCount g s)
def rankLocal (g r : Nat) (s : State) : Nat := (localList g s).getD (r % max 1 (localCount g s)) 0

/-- The part ID at a part index, from the coordinate map (R272): 0 where the map names none. -/
def partAt (g i : Nat) (s : State) : Nat :=
  let c := fun a => (boxLo g a s + relOf g i a s) % max 1 (axisLen a s)
  let k := (c 2 * 12 + c 1) * 12 + c 0
  let e := field (getReg (rRteCoord (k / 4)) s).toNat (16 * (k % 4) + 15) (16 * (k % 4))
  if i = myIndex g s then (partId s).toNat else e % 4096

/-- The end-point at local index 0 of a part index. -/
def partEid (g i : Nat) (s : State) : Eid := BitVec.ofNat 16 (partAt g i s * 16)

/-! ### Operations, operators and formats (R145 to R149) -/

/-- Bytes of an element, or of a block of 32, and whether the format is an MX format (R147): none for a reserved
code. -/
def fmtBytes : Nat → Option (Nat × Bool)
  | 0x01 => some (4, false) | 0x02 => some (2, false) | 0x03 => some (2, false) | 0x04 => some (1, false)
  | 0x05 => some (1, false) | 0x06 => some (33, true) | 0x07 => some (25, true) | 0x08 => some (17, true)
  | 0x09 => some (33, true) | 0x10 => some (1, false) | 0x11 => some (2, false) | 0x12 => some (4, false)
  | 0x13 => some (8, false) | _ => none

/-- The lane format of a code of R147: for an MX format its element's. -/
def fmtLane : Nat → Fmt
  | 0x01 => .fp32 | 0x02 => .bf16 | 0x03 => .fp16 | 0x04 => .e4m3 | 0x05 => .e5m2 | 0x06 => .e4m3 | 0x07 => .fp6
  | 0x08 => .fp4 | 0x09 => .int8 | 0x10 => .int8 | 0x11 => .int16 | 0x12 => .int32 | _ => .int64

/-- Classes of formats in R148's table. -/
def fmtFloat (f : Nat) : Bool := decide (1 ≤ f ∧ f ≤ 5)
def fmtMx (f : Nat) : Bool := decide (6 ≤ f ∧ f ≤ 9)
def fmtInt (f : Nat) : Bool := decide (0x10 ≤ f ∧ f ≤ 0x13)

/-- OP, OPERATOR and FORMAT agree (R146 to R148). -/
def callAllowed (op o f : Nat) : Bool :=
  if op = 0 ∨ op = 1 ∨ op = 4 then
    match o with
    | 1 => fmtFloat f || fmtInt f
    | 2 => fmtFloat f || fmtMx f
    | 3 | 4 => fmtFloat f || fmtInt f
    | 5 | 6 => decide (f = 1 ∨ f = 0x12)
    | 7 | 8 | 9 => fmtInt f
    | _ => false
  else if op = 2 ∨ op = 3 ∨ op = 5 then decide (o = 0) && (fmtBytes f).isSome
  else decide (op = 6 ∧ o = 0 ∧ f = 0x13)

/-- The checks of R69, R145, R148, R149 and R188 on a call, before any data moves. -/
def callStatus (g : Nat) (c : CollCall) (s : State) : Byte :=
  let m := memberCount g s
  if !(callAllowed c.op c.operator c.format) ||
      (fmtMx c.format && decide (c.count % 32 ≠ 0)) || decide (c.operator = 2 ∧ 8192 < m) ||
      decide ((c.op = 1 ∨ c.op = 5) ∧ c.count % max 1 m ≠ 0) || decide (c.op = 6 ∧ c.count ≠ 1) ||
      decide (c.op = 1 ∧ c.operator = 2 ∧ c.count / max 1 m % 32 ≠ 0) ||
      (fmtMx c.format && decide ((c.op = 1 ∨ c.op = 5) ∧ c.count / max 1 m % 32 ≠ 0)) ||
      decide ((c.op = 3 ∨ c.op = 4) ∧ m ≤ c.root) then stMalformed
  else if grpStrict g s ≠ strictMode s then stStrict
  else if strictMode s = true ∧ c.operator = 1 ∧ fmtFloat c.format = true then stStrict
  else stOk

/-! ### Chunks (R155, R174) -/

/-- ARGMAX and ARGMIN elements are pairs of 8 bytes. -/
def isArg (c : CollCall) : Bool := decide (c.operator = 5 ∨ c.operator = 6)

/-- The bytes of `n` elements in memory (R147, R148): of a delivered block too. -/
def memBytes (c : CollCall) (n : Nat) : Nat :=
  if isArg c then 8 * n
  else match fmtBytes c.format with
    | some (b, true) => n / 32 * b
    | some (b, false) => n * b
    | none => 0

/-- The bytes of `n` elements in their room form (R146). -/
def formBytes (c : CollCall) (n : Nat) : Nat :=
  if c.operator = 2 then (if c.format = 1 then 8 * n else 4 * n) else memBytes c n

/-- Elements of a full chunk (R155). -/
def chunkElems (c : CollCall) : Nat :=
  let room := c.rooms * 32768
  if c.operator = 0 ∧ fmtMx c.format = true then room / max 1 (memBytes c 32) * 32
  else room / max 1 (formBytes c 1)

/-- How many blocks are chunked on their own, and the elements of each (R155; each contribution of an all-gather is
taken as a block, log entry 34). -/
def blockCount (g : Nat) (c : CollCall) (s : State) : Nat :=
  let m := memberCount g s
  if c.op = 1 ∨ c.op = 2 then m else if c.op = 5 then m * m else 1

def blockElems (g : Nat) (c : CollCall) (s : State) : Nat :=
  if c.op = 1 ∨ c.op = 5 then c.count / max 1 (memberCount g s) else c.count

/-- Chunks of a block, and of the collective. -/
def chunksPerBlock (g : Nat) (c : CollCall) (s : State) : Nat := ceilDiv (blockElems g c s) (max 1 (chunkElems c))

def chunkTotal (g : Nat) (c : CollCall) (s : State) : Nat := blockCount g c s * chunksPerBlock g c s

/-- The block of a chunk, its first element in the block, and its number of elements. -/
def chunkBlock (g : Nat) (c : CollCall) (k : Nat) (s : State) : Nat := k / max 1 (chunksPerBlock g c s)

def chunkFirst (g : Nat) (c : CollCall) (k : Nat) (s : State) : Nat :=
  k % max 1 (chunksPerBlock g c s) * chunkElems c

def chunkSize (g : Nat) (c : CollCall) (k : Nat) (s : State) : Nat :=
  min (chunkElems c) (blockElems g c s - chunkFirst g c k s)

/-- The rank that alone contributes a chunk: none where every member does. -/
def chunkSource (g : Nat) (c : CollCall) (k : Nat) (s : State) : Option Nat :=
  match c.op with
  | 2 => some (chunkBlock g c k s)
  | 3 => some c.root
  | 5 => some (chunkBlock g c k s % max 1 (memberCount g s))
  | _ => none

/-- The rank that alone receives a chunk: none where every member does. -/
def chunkDest (g : Nat) (c : CollCall) (k : Nat) (s : State) : Option Nat :=
  match c.op with
  | 1 => some (chunkBlock g c k s)
  | 4 => some c.root
  | 5 => some (chunkBlock g c k s / max 1 (memberCount g s))
  | _ => none

/-- The part index that owns a chunk (R155). -/
def chunkOwner (g : Nat) (c : CollCall) (k : Nat) (s : State) : Nat :=
  match c.op with
  | 0 => k % max 1 (grpParts g s)
  | 6 => 0
  | 2 | 3 => rankPart g ((chunkSource g c k s).getD 0) s
  | _ => rankPart g ((chunkDest g c k s).getD 0) s

/-- The byte of SEND at which a member's contribution to a chunk begins. -/
def sendOffset (g : Nat) (c : CollCall) (k : Nat) (s : State) : Nat :=
  let b := chunkBlock g c k s
  let base := if c.op = 1 then b * blockElems g c s
    else if c.op = 5 then b / max 1 (memberCount g s) * blockElems g c s else 0
  memBytes c (base + chunkFirst g c k s)

/-- The byte of RECV at which a chunk lies at a member that receives it. -/
def recvOffset (g : Nat) (c : CollCall) (k : Nat) (s : State) : Nat :=
  let b := chunkBlock g c k s
  let base := if c.op = 2 then b * blockElems g c s
    else if c.op = 5 then b % max 1 (memberCount g s) * blockElems g c s else 0
  memBytes c (base + chunkFirst g c k s)

/-- A rank receives a chunk. -/
def receives (g : Nat) (c : CollCall) (k r : Nat) (s : State) : Bool :=
  match chunkDest g c k s with
  | some d => decide (d = r)
  | none => true

/-- A chunk's number in a member's own order (R174). -/
def memberChunk (g : Nat) (c : CollCall) (k : Nat) (s : State) : Nat :=
  match c.op with
  | 1 => k % max 1 (chunksPerBlock g c s)
  | 5 => k % max 1 (memberCount g s * chunksPerBlock g c s)
  | _ => k

/-- How many chunks are signalled to a member (R174). -/
def memberTotal (g : Nat) (c : CollCall) (r : Nat) (s : State) : Nat :=
  match c.op with
  | 1 => chunksPerBlock g c s
  | 4 => if r = c.root then chunksPerBlock g c s else 0
  | 5 => memberCount g s * chunksPerBlock g c s
  | _ => chunkTotal g c s

/-- The bytes a member of a rank reads at SEND and receives at RECV (R145). -/
def sendBytes (c : CollCall) (r : Nat) : Nat :=
  match c.op with
  | 3 => if r = c.root then memBytes c c.count else 0
  | 6 => 0
  | _ => memBytes c c.count

def recvBytes (g : Nat) (c : CollCall) (r : Nat) (s : State) : Nat :=
  match c.op with
  | 1 => memBytes c (blockElems g c s)
  | 2 => memBytes c (memberCount g s * c.count)
  | 4 => if r = c.root then memBytes c c.count else 0
  | 6 => 0
  | _ => memBytes c c.count

/-- The local members that contribute to a chunk, by local index, and those that receive it. -/
def contributors (g : Nat) (c : CollCall) (k : Nat) (s : State) : List Nat :=
  if c.op = 6 then []
  else match chunkSource g c k s with
    | some r => if rankPart g r s = myIndex g s then [rankLocal g r s] else []
    | none => localList g s

def receivers (g : Nat) (c : CollCall) (k : Nat) (s : State) : List Nat :=
  (localList g s).filter (fun i => receives g c k (rankOf g i s) s)

/-! ### The axis lines (R156) -/

/-- The box wraps along an axis. -/
def wraps (g axis : Nat) (s : State) : Bool := decide (boxLen g axis s = axisLen axis s)

/-- From coordinate `i` toward `o` on an axis of `n`: the part goes minus, plus or half each way, the first half by the
minus side (log entry 35). -/
inductive Way where
  | minus | plus | both | here
  deriving DecidableEq, Repr

def wayTo (wrap : Bool) (n i o : Nat) : Way :=
  if i = o then .here
  else if wrap then
    let up := (o + n - i) % n
    if 2 * up = n then .both else if 2 * up < n then .plus else .minus
  else if i < o then .plus else .minus

/-- The coordinate one step minus and one step plus on an axis of `n`. -/
def stepDown (n i : Nat) : Nat := (i + n - 1) % n
def stepUp (n i : Nat) : Nat := (i + 1) % n

/-- This part's index with one coordinate replaced. -/
def idxWith (g axis v : Nat) (s : State) : Nat := idxOf g (fun a => if a = axis then v else myRel g a s) s

/-- The elements of the first half of a chunk: whole blocks of 32 under SUM_ANCHORED, so that anchors and integers are
halved alike. -/
def halfElems (c : CollCall) (n : Nat) : Nat := if c.operator = 2 then n / 2 / 32 * 32 else n / 2

/-- The bytes of `n` elements in the form a round moves: anchor bytes, or the room form. -/
def roundBytes (c : CollCall) (anchor : Bool) (n : Nat) : Nat := if anchor then ceilDiv n 32 else formBytes c n

/-- The byte ranges (lo, len) a part at a coordinate sends to its minus and plus sides. -/
def waySplit (c : CollCall) (anchor : Bool) (n : Nat) (w : Way) : Option (Nat × Nat) × Option (Nat × Nat) :=
  let all := roundBytes c anchor n
  let h := roundBytes c anchor (halfElems c n)
  match w with
  | .here => (none, none)
  | .minus => (some (0, all), none)
  | .plus => (none, some (0, all))
  | .both => (some (0, h), some (h, all - h))

/-- An input of a step that nothing has happened to. -/
def freshIn (src : Eid) (r : Nat × Nat) : CollIn :=
  { src := src, lo := r.1, len := r.2, rooms := [], offered := false, invitedAt := none, asked := [], repeats := 0,
    got := [], checks := [], arrived := none }

/-- An input whose contribution is to be invited afresh. -/
def againIn (i : CollIn) : CollIn :=
  { i with rooms := [], invitedAt := none, asked := [], repeats := 0, got := [], checks := [], arrived := none }

/-- The inputs a part takes on one axis of REDUCE: what its two neighbours send through it toward the owner (R156). -/
def axisInputs (g : Nat) (c : CollCall) (k axis : Nat) (anchor : Bool) (s : State) : List CollIn :=
  let n := boxLen g axis s
  let i := myRel g axis s
  let o := relOf g (chunkOwner g c k s) axis s
  let wrap := wraps g axis s
  let size := chunkSize g c k s
  let up := stepUp n i
  let dn := stepDown n i
  let fromUp := if (wrap || decide (i + 1 < n)) = true ∧ n ≠ 1 then (waySplit c anchor size (wayTo wrap n up o)).1 else none
  let fromDn := if (wrap || decide (0 < i)) = true ∧ n ≠ 1 then (waySplit c anchor size (wayTo wrap n dn o)).2 else none
  (match fromDn with
    | some r => if r.2 = 0 then [] else [freshIn (partEid g (idxWith g axis dn s) s) r]
    | none => []) ++
  (match fromUp with
    | some r => if r.2 = 0 then [] else [freshIn (partEid g (idxWith g axis up s) s) r]
    | none => [])

/-- Where a part's partial goes on one axis of REDUCE: parts with byte ranges (R156). -/
def axisOutputs (g : Nat) (c : CollCall) (k axis : Nat) (anchor : Bool) (s : State) : List (Eid × Nat × Nat) :=
  let n := boxLen g axis s
  let i := myRel g axis s
  let o := relOf g (chunkOwner g c k s) axis s
  let w := waySplit c anchor (chunkSize g c k s) (wayTo (wraps g axis s) n i o)
  (match w.1 with
    | some r => [(partEid g (idxWith g axis (stepDown n i) s) s, r)]
    | none => []) ++
  (match w.2 with
    | some r => [(partEid g (idxWith g axis (stepUp n i) s) s, r)]
    | none => [])

/-- This part's coordinate equals the owner's on the first `k` axes of AXIS_ORDER. -/
def onOwnerLines (g : Nat) (c : CollCall) (chunk k : Nat) (s : State) : Bool :=
  (List.range k).all (fun j => decide (myRel g (axisOf g j s) s = relOf g (chunkOwner g c chunk s) (axisOf g j s) s))

/-- An operation reduces along the axes, and one spreads (R157). -/
def reduces (c : CollCall) : Bool := decide (c.op = 0 ∨ c.op = 1 ∨ c.op = 4 ∨ c.op = 6)
def spreads (c : CollCall) : Bool := decide (c.op = 0 ∨ c.op = 2 ∨ c.op = 3 ∨ c.op = 6)

/-- The bytes of `n` elements as SPREAD moves them: anchor bytes, or the delivered format. -/
def spreadBytes (c : CollCall) (anchor : Bool) (n : Nat) : Nat := if anchor then ceilDiv n 32 else memBytes c n

/-- What one neighbour takes of a result, by the way it would send toward the owner: from its minus side the first half
where both ways are equal, from its plus side the rest. -/
def spreadShare (c : CollCall) (anchor : Bool) (n : Nat) (w : Way) (fromMinus : Bool) : Option (Nat × Nat) :=
  let all := spreadBytes c anchor n
  let h := spreadBytes c anchor (halfElems c n)
  match w with
  | .here => none
  | .minus => if fromMinus then some (0, all) else none
  | .plus => if fromMinus then none else some (0, all)
  | .both => if fromMinus then some (0, h) else some (h, all - h)

/-- Where the first half ends of what SPREAD brings a part in a stage: at equal ways its halves come apart, each frame
padded to whole slots; else the whole comes one way (R156; log entry 35). -/
def spreadHalf (g : Nat) (c : CollCall) (k part stage : Nat) (anchor : Bool) (s : State) : Nat :=
  let axis := axisOf g (6 - stage) s
  let n := chunkSize g c k s
  let o := relOf g (chunkOwner g c k s) axis s
  if wayTo (wraps g axis s) (boxLen g axis s) (relOf g part axis s) o = .both then spreadBytes c anchor (halfElems c n)
  else spreadBytes c anchor n

/-- Where the share ends that holds a byte of what SPREAD brings this part in a stage. -/
def spreadEnd (g : Nat) (c : CollCall) (k stage : Nat) (anchor : Bool) (at_ : Nat) (s : State) : Nat :=
  let h := spreadHalf g c k (myIndex g s) stage anchor s
  if at_ < h then h else spreadBytes c anchor (chunkSize g c k s)

/-- The parts this part relays a result to in SPREAD, with stage code and byte range (R156): on each axis on whose line
of the spread it lies, away from the owner's coordinate. -/
def spreadTargets (g : Nat) (c : CollCall) (k : Nat) (anchor : Bool) (s : State) : List (Eid × Nat × Nat × Nat) :=
  let size := chunkSize g c k s
  ((List.range 3).map (fun j =>
    let axis := axisOf g (2 - j) s
    let n := boxLen g axis s
    let i := myRel g axis s
    let oc := relOf g (chunkOwner g c k s) axis s
    let wrap := wraps g axis s
    let share := fun (ok : Bool) (v : Nat) (fromMinus : Bool) =>
      match spreadShare c anchor size (wayTo wrap n v oc) fromMinus with
      | some r => if ok = true ∧ r.2 ≠ 0 then [(partEid g (idxWith g axis v s) s, 4 + j, r)] else []
      | none => []
    if onOwnerLines g c k (2 - j) s = false ∨ n = 1 then []
    else share (wrap || decide (i + 1 < n)) (stepUp n i) true ++ share (wrap || decide (0 < i)) (stepDown n i) false)).flatten

/-! ### The steps of a chunk at this part (R156 to R158) -/

/-- A step that nothing has happened to. -/
def freshStep (stage : Nat) (anchor : Bool) (inputs : List CollIn) : CollStepSt :=
  { stage := stage, anchor := anchor, inputs := inputs, round := 0, ran := none, staged := 0, bad := false, done := false,
    offered := false }

/-- A step to be done again with given inputs. -/
def againStep (inputs : List CollIn) (st : CollStepSt) : CollStepSt :=
  { st with inputs := inputs, round := 0, ran := none, staged := 0, bad := false, done := false, offered := false }

/-- The contributions of LOCAL: each member's bytes of the chunk, or its anchor bytes. They need no OFFER. -/
def localInputs (g : Nat) (c : CollCall) (k : Nat) (anchor : Bool) (s : State) : List CollIn :=
  let n := chunkSize g c k s
  let len := if anchor then ceilDiv n 32 else memBytes c n
  (contributors g c k s).map (fun i => { freshIn (selfEid i s) (0, len) with offered := true })

/-- The steps of one round: LOCAL, then REDUCE on each axis up to the first on which the owner's coordinate differs. -/
def roundSteps (g : Nat) (c : CollCall) (k : Nat) (anchor : Bool) (s : State) : List CollStepSt :=
  freshStep 0 anchor (localInputs g c k anchor s) ::
    (if reduces c then
      ((List.range 3).filter (fun j => onOwnerLines g c k j s && decide (boxLen g (axisOf g j s) s ≠ 1))).map (fun j =>
        freshStep (1 + j) anchor (axisInputs g c k (axisOf g j s) anchor s))
     else [])

/-- The steps of a chunk at this part. DIRECT is one input at the receiver's part (R157). -/
def chunkSteps (g : Nat) (c : CollCall) (k : Nat) (s : State) : List CollStepSt :=
  let mine := decide (chunkOwner g c k s = myIndex g s)
  if c.op = 5 then
    let src := rankPart g ((chunkSource g c k s).getD 0) s
    if src = myIndex g s then [freshStep 0 false (localInputs g c k false s)]
    else if mine then [freshStep 8 false [freshIn (partEid g src s) (0, memBytes c (chunkSize g c k s))]] else []
  else if c.op = 2 ∨ c.op = 3 then
    if mine then [freshStep 0 false (localInputs g c k false s)] else []
  else if c.operator = 2 then roundSteps g c k true s ++ roundSteps g c k false s
  else roundSteps g c k false s

/-- Where a step's partial goes next: the axis's outputs, or the receiver's part in DIRECT. Empty at the owner's
coordinate. -/
def stepOutputs (g : Nat) (c : CollCall) (k : Nat) (st : CollStepSt) (s : State) : List (Eid × Nat × Nat) :=
  if 1 ≤ st.stage ∧ st.stage ≤ 3 then axisOutputs g c k (axisOf g (st.stage - 1) s) st.anchor s
  else if c.op = 5 ∧ st.stage = 0 ∧ chunkOwner g c k s ≠ myIndex g s then
    [(partEid g (chunkOwner g c k s) s, 0, memBytes c (chunkSize g c k s))]
  else []

/-- The stage code its partial's OFFER bears: DIRECT's for an all-to-all. -/
def offerStage (c : CollCall) (st : CollStepSt) : Nat := if c.op = 5 then 8 else st.stage

/-- This part has work on a chunk. -/
def worksOn (g : Nat) (c : CollCall) (k : Nat) (s : State) : Bool :=
  !(chunkSteps g c k s).isEmpty || spreads c || !(receivers g c k s).isEmpty

/-- Chunks that between them have every plan of the collective at this part: the first chunk of each owner; later chunks
of the same owner have the same steps, the last perhaps shorter. -/
def planChunks (g : Nat) (c : CollCall) (s : State) : List Nat :=
  let per := chunksPerBlock g c s
  let m := memberCount g s
  let blocks := match c.op with
    | 1 | 2 => (List.range m).map (fun b => b * per)
    | 0 => List.range (grpParts g s)
    | _ => [0]
  blocks.filter (fun k => decide (k < chunkTotal g c s))

/-- The most inputs of any one step of the part's plan (R163; a member at local index 0 is reached over its internal
end-point port and counts too). Every step of an all-to-all has one. -/
def planInputs (g : Nat) (c : CollCall) (s : State) : Nat :=
  if c.op = 5 then 1
  else (planChunks g c s).foldl (fun b k => (chunkSteps g c k s).foldl (fun b st => max b st.inputs.length) b) 0

/-! ### What a step computes (R146, R158, R185 to R192, R255) -/

/-- The library route of a step (R255): 0 where nothing is combined. -/
def stepRoute (c : CollCall) (stage : Nat) (anchor last : Bool) : Nat :=
  if c.operator = 2 then
    if anchor then 2 else if stage = 0 then 3 else if last then 4 else 1
  else match c.operator with
    | 1 => 5
    | 3 | 4 => 6
    | 5 | 6 => 7
    | 7 | 8 | 9 => 8
    | _ => 0

/-- The FA of a library image (R254). -/
def libraryFa (n : Nat) (s : State) : Nat := (selfEid 0 s).toNat * 2 ^ 48 + 0x2E5C000000 + (n - 1) * 0x200000

/-- Combines two elements of `w` bits under an operator (R181, R185, R186). -/
def combineElem (c : CollCall) (w a b : Nat) : Option Nat :=
  let f := fmtLane c.format
  match c.operator with
  | 1 => ringPlus .plusTimes f w a b
  | 3 => minMax true f w a b
  | 4 => minMax false f w a b
  | 7 => some (Nat.land a b)
  | 8 => some (Nat.lor a b)
  | 9 => some (Nat.xor a b)
  | _ => some a

/-- The winner of two pairs of ARGMAX or ARGMIN (R185). -/
def combinePair (c : CollCall) (a b : Nat) : Nat :=
  let f := fmtLane c.format
  let lo := fun v => v % 2 ^ 32
  let hi := fun v => v / 2 ^ 32
  if pairWins (decide (c.operator = 5)) f (lo a) (hi a) (lo b) (hi b) then pairValue f (lo a) + hi a * 2 ^ 32
  else pairValue f (lo b) + hi b * 2 ^ 32

/-- The bytes of one element as a step combines it. -/
def combineWidth (c : CollCall) (anchor : Bool) : Nat :=
  if anchor then 1
  else if c.operator = 2 then (if c.format = 1 then 8 else 4)
  else if isArg c then 8
  else match fmtBytes c.format with
    | some (b, false) => b
    | _ => 1

/-- The number of a free value of a collective step: it depends on the operator, the format and the two operands, and on
nothing else (R214; log entry 5). -/
def stepCtr (c : CollCall) (x y : Nat) : Nat :=
  2 ^ 63 + 2 ^ 64 * ((c.operator * 256 + c.format) * 2 ^ 128 + x % 2 ^ 64 * 2 ^ 64 + y % 2 ^ 64)

/-- Combines the element at position `i` of two byte strings. -/
def combineAt (c : CollCall) (anchor : Bool) (w : Nat) (a b : List Byte) (i : Nat) : List Byte :=
  let x := natOfBytes ((a.drop (w * i)).take w)
  let y := natOfBytes ((b.drop (w * i)).take w)
  bytesOfNat w (
    if anchor then max x y
    else if c.operator = 2 then (x + y) % 2 ^ (8 * w)
    else if isArg c then combinePair c x y
    else orFree (stepCtr c x y) 0 (combineElem c (8 * w) x y))

/-- Combines two byte strings of one length. -/
def combineBytes (c : CollCall) (anchor : Bool) (a b : List Byte) : List Byte :=
  let w := combineWidth c anchor
  ((List.range (a.length / w)).map (combineAt c anchor w a b)).flatten

/-- Combines a byte string into another's range. -/
def combineInto (c : CollCall) (anchor : Bool) (lo : Nat) (whole part : List Byte) : List Byte :=
  whole.take lo ++ combineBytes c anchor ((whole.drop lo).take part.length) part ++ whole.drop (lo + part.length)

/-- The values of one block of 32 elements, or fewer, of a contribution (R180, R188). -/
def blockValues (c : CollCall) (bs : List Byte) : List FVal :=
  let f := fmtLane c.format
  if fmtMx c.format then
    let scale := (bs.headD 0).toNat
    let all := natOfBytes (bs.drop 1)
    let w := if c.format = 7 then 6 else if c.format = 8 then 4 else 8
    (List.range 32).map (fun i => mxValue f scale (all / 2 ^ (w * i) % 2 ^ w))
  else
    let b := memBytes c 1
    (List.range (bs.length / max 1 b)).map (fun i => decodeLane f (8 * b) (natOfBytes ((bs.drop (b * i)).take b)))

/-- The blocks of a contribution of `n` elements. -/
def splitBlocks (c : CollCall) (n : Nat) (bs : List Byte) : List (List Byte) :=
  (List.range (ceilDiv n 32)).map (fun i => (bs.drop (memBytes c 32 * i)).take (memBytes c 32))

/-- The anchor byte of a block (R189). -/
def blockAnchor (vs : List FVal) : Nat := vs.foldl (fun b v => max b (anchorByte v)) 0

/-- The anchor bytes of a contribution (R158, R189). -/
def anchorBytes (c : CollCall) (n : Nat) (bs : List Byte) : List Byte :=
  (splitBlocks c n bs).map (fun b => BitVec.ofNat 8 (blockAnchor (blockValues c b)))

/-- A contribution as integers at the block anchors (R190); what R190 does not state is free, by the block's anchor byte
and its bytes (log entry 5). -/
def toAnchored (c : CollCall) (n : Nat) (anchors bs : List Byte) : List Byte :=
  let wide := decide (c.format = 1)
  let w := if wide then 8 else 4
  (((splitBlocks c n bs).mapIdx (fun i b =>
    let a := (anchors.getD i 0).toNat
    ((blockValues c b).mapIdx (fun j v =>
      bytesOfNat w (orFree (stepCtr c a (natOfBytes b)) j ((toFixed wide a v).map (wrapInt (8 * w)))))).flatten))).flatten

/-- A block of values in the delivered format (R183, R184). -/
def encodeBlock (c : CollCall) (vs : List FVal) : List Byte :=
  let f := fmtLane c.format
  if fmtMx c.format then
    let w := if c.format = 7 then 6 else if c.format = 8 then 4 else 8
    let scale := mxScale f vs
    let all := (vs.mapIdx (fun i v => mxElement f scale v % 2 ^ w * 2 ^ (w * i))).foldl (· + ·) 0
    bytesOfNat 1 scale ++ bytesOfNat (memBytes c 32 - 1) all
  else (vs.map (fun v => bytesOfNat (memBytes c 1) ((roundFloat f v).getD 0))).flatten

/-- Integer totals in the delivered format (R191). -/
def fromAnchored (c : CollCall) (n : Nat) (anchors bs : List Byte) : List Byte :=
  let wide := decide (c.format = 1)
  let w := if wide then 8 else 4
  ((List.range (ceilDiv n 32)).map (fun i =>
    let here := min 32 (n - 32 * i)
    encodeBlock c ((List.range here).map (fun j =>
      fromFixed wide (anchors.getD i 0).toNat
        (decodeInt true (8 * w) (natOfBytes ((bs.drop (w * (32 * i + j))).take w))))))).flatten

end Sys2Proof.Machine
end

