-- ==== Sys2Proof/Machine/QueueOps.lean ====
section
/-! DEFINITION. What the parts of the queue machinery share: a queue's registers, its descriptors' fields, the checks of
R69 and R70, when a descriptor is done, how a queue completes one and how it is fenced (R58 to R86). -/
namespace Sys2Proof.Machine

/-! ### A queue and its registers (R58 to R64) -/

/-- A queue. -/
def getQ (q : Nat) (s : State) : Queue := tblGet queue0 s.queues q

/-- The code of a queue's state (R62). -/
def QState.code : QState → Nat
  | .idle => 0
  | .running => 1
  | .parked => 2
  | .fenced => 3
  | .error => 4

/-- A queue with a new value. -/
def putQ (q : Nat) (v : Queue) (s : State) : State := { s with queues := tblSet queue0 s.queues q v }

/-- The fields of POR_QCFG. -/
def qEnabled (q : Nat) (s : State) : Bool := getBit (rQcfg q) 63 s
def qPart (q : Nat) (s : State) : Byte := BitVec.ofNat 8 (getField (rQcfg q) 55 48 s)
def qMask (q : Nat) (s : State) : Nat := getField (rQcfg q) 47 40 s
def qEngine (q : Nat) (s : State) : Nat := getField (rQcfg q) 35 34 s
def qDbMode (q : Nat) (s : State) : Nat := getField (rQcfg q) 33 32 s
def qVector (q : Nat) (s : State) : Nat := getField (rQcfg q) 26 16 s

/-- Entries, place and base of a ring, from the word that places it (R60). -/
def ringEntries (w : Word) : Nat := 16 * 2 ^ min 12 (wfield w 3 0)
def ringLocal (w : Word) : Bool := wbit w 63
def ringBase (w : Word) : Nat := wfield w 51 12 * 4096

/-- The entries of a queue's two rings. -/
def descEntries (q : Nat) (s : State) : Nat := ringEntries (getReg (rQring q) s)
def cmplEntries (q : Nat) (s : State) : Nat := ringEntries (getReg (rQcmpl q) s)

/-- A ring of `bytes` bytes is allowed for a partition (R61, R62). -/
def ringAllowed (p : Byte) (w : Word) (bytes : Nat) (s : State) : Bool :=
  let a := ringBase w
  decide (a % bytes = 0) &&
  (if ringLocal w then
    if p = 0 then decide (tenantEnd ≤ a ∧ a + bytes ≤ privEnd)
    else decide (a + bytes ≤ tenantEnd ∧ a / pageSize = (a + bytes - 1) / pageSize ∧
      pageState (a / pageSize) s = pgOwned ∧ pagePartition (a / pageSize) s = p)
   else hostGranted p s)

/-- A ring can be reached: it lies in the part's memory, or the CXL link is in L0 (R374). -/
def ringReachable (w : Word) (s : State) : Bool := ringLocal w || cxlUp s

/-- Writes into a ring under the queue's partition authority (R62). -/
def ringWrite (p : Byte) (w : Word) (bytes off : Nat) (bs : List Byte) (s : State) : State :=
  if !(ringAllowed p w bytes s) then s
  else if ringLocal w then storeBytes (ringBase w + off) bs s
  else writeHost (ringBase w + off) bs s

/-! ### Descriptors (R69 to R78) -/

/-- `n` bytes of a descriptor from byte `lo`, as a number. -/
def dfield (raw : Descriptor) (lo n : Nat) : Nat := (raw.toNat / 2 ^ (8 * lo)) % 2 ^ (8 * n)

/-- OPCODE, FLAGS and TAG. -/
def dOp (raw : Descriptor) : Nat := dfield raw 0 1
def dCmpl (raw : Descriptor) : Bool := raw.getLsbD 8
def dIrq (raw : Descriptor) : Bool := raw.getLsbD 9
def dFence (raw : Descriptor) : Bool := raw.getLsbD 10
def dCont (raw : Descriptor) : Bool := raw.getLsbD 11
def dTag (raw : Descriptor) : Nat := dfield raw 2 2

/-- The opcodes of R70. -/
abbrev opNop : Nat := 0x00
abbrev opCopy : Nat := 0x01
abbrev opGather : Nat := 0x02
abbrev opScatter : Nat := 0x03
abbrev opFill : Nat := 0x04
abbrev opSignal : Nat := 0x05
abbrev opWait : Nat := 0x06
abbrev opPrefetch : Nat := 0x08
abbrev opMigrate : Nat := 0x09
abbrev opAdvise : Nat := 0x0A
abbrev opRekey : Nat := 0x0B
abbrev opUnmap : Nat := 0x0C
abbrev opColl : Nat := 0x20
abbrev opRoute : Nat := 0x30
abbrev opPreload : Nat := 0x31

/-- The engine classes of POR_QCFG. -/
abbrev engPorter : Nat := 0
abbrev engCaravan : Nat := 1
abbrev engRoute : Nat := 2

/-- A fetched descriptor nothing of which has begun. -/
def freshDesc (index : BitVec 32) (raw : Descriptor) : DescEx :=
  { index := index, raw := raw, started := false, wrote := false, status := none, failed := none, failStore := none,
    result := 0, issued := 0, landed := 0, listPos := 0, entryFva := 0, entryLeft := 0, buf := [], readWait := false,
    readList := false, readSkip := 0, readLen := 0, beganAt := 0, lastPoll := none }

/-- Check 1 of R70: the common header. -/
def headerOk (raw : Descriptor) : Bool := decide (dfield raw 4 4 = 0 ∧ dfield raw 1 1 < 16)

/-- Check 2 of R70: the opcode and its class. -/
def opcodeOk (engine op : Nat) : Bool :=
  decide (op = opNop ∨ op = opWait) ||
  (decide (engine = engPorter) &&
    decide ((opCopy ≤ op ∧ op ≤ opSignal) ∨ (opPrefetch ≤ op ∧ op ≤ opUnmap))) ||
  decide (engine = engCaravan ∧ op = opColl) || decide (engine = engRoute ∧ (op = opRoute ∨ op = opPreload))

/-- A field holds an address a queue may name: under a tenant partition, an FVA of 57 bits (R25, R58). -/
def addrOk (p : Byte) (a : Nat) : Bool := decide (p = 0) || decide (a < 2 ^ 57)

/-- A PAGE field: only bits [56:30] may be set (R74). -/
def pageFieldOk (a : Nat) : Bool := decide (a % 2 ^ 30 = 0 ∧ a < 2 ^ 57)

/-- Check 4 of R70: the body of each command (R69, R71 to R78). A NOP, of which no table lists a body, has none to check,
and bytes that a command's table does not list are taken as reserved (log entry 74). -/
def bodyOk (p : Byte) (raw : Descriptor) : Bool :=
  let f := dfield raw
  let op := dOp raw
  if op = opCopy then
    decide (f 32 32 = 0 ∧ 1 ≤ f 24 8 ∧ f 24 8 ≤ 2 ^ 36) && addrOk p (f 8 8) && addrOk p (f 16 8)
  else if op = opFill then
    decide (f 32 32 = 0 ∧ 1 ≤ f 16 8 ∧ f 16 8 ≤ 2 ^ 36) && addrOk p (f 8 8)
  else if op = opSignal then
    decide (f 25 39 = 0 ∧ f 24 1 ≤ 1 ∧ f 8 8 % 8 = 0) && addrOk p (f 8 8)
  else if op = opGather ∨ op = opScatter then
    decide (f 28 36 = 0 ∧ 1 ≤ f 24 4 ∧ f 24 4 ≤ 65536 ∧ f 8 8 % 16 = 0) && addrOk p (f 8 8) && addrOk p (f 16 8)
  else if op = opPrefetch ∨ op = opAdvise ∨ op = opUnmap then
    decide (f 22 42 = 0 ∧ 1 ≤ f 16 4 ∧ f 16 4 ≤ 2 ^ 27) && pageFieldOk (f 8 8) &&
    (if op = opAdvise then decide (f 20 1 ≤ 3) else decide (f 20 1 = 0)) &&
    (decide (op = opUnmap) || decide (f 21 1 = 0))
  else if op = opMigrate then decide (f 24 40 = 0) && pageFieldOk (f 8 8)
  else if op = opRekey then
    decide (f 36 28 = 0 ∧ f 8 8 % 256 = 0 ∧ f 16 8 % 256 = 0 ∧ f 24 8 % 256 = 0 ∧ f 24 8 ≤ 2 ^ 36)
  else if op = opWait then
    decide (f 26 2 = 0 ∧ f 32 32 = 0 ∧ f 24 1 ≤ 2 ∧ f 25 1 ≤ 15 ∧ f 8 8 % 8 = 0) && addrOk p (f 8 8)
  else if op = opColl then
    decide (f 14 2 = 0 ∧ f 56 8 = 0 ∧ f 9 1 ≤ 6 ∧ 1 ≤ f 40 8 ∧ f 40 8 ≤ 2 ^ 40 ∧ f 48 4 ≤ 64) &&
    (decide (f 9 1 = 3 ∨ f 9 1 = 4) || decide (f 12 2 = 0)) &&
    addrOk p (f 16 8) && addrOk p (f 24 8) && addrOk p (f 32 8)
  else if op = opRoute then
    decide (f 60 4 = 0 ∧ f 59 1 ≤ 1) && addrOk p (f 8 8) && addrOk p (f 16 8) && addrOk p (f 24 8) &&
    addrOk p (f 32 8)
  else if op = opPreload then decide (f 16 48 = 0) && addrOk p (f 8 8)
  else true

/-- The status the checks 1 to 4 of R70 give a descriptor, in their order. -/
def checkDesc (engine : Nat) (p : Byte) (raw : Descriptor) : Byte :=
  if !(headerOk raw) || !(opcodeOk engine (dOp raw)) then stMalformed
  else if p ≠ 0 ∧ (dOp raw = opRekey ∨ dOp raw = opUnmap) then stDenied
  else if bodyOk p raw then stOk else stMalformed

/-- Replaces a queue's descriptor of an index. -/
def updDesc (q : Nat) (index : BitVec 32) (f : DescEx → DescEx) (s : State) : State :=
  let v := getQ q s
  putQ q { v with fetched := updFirst (fun d => decide (d.index = index)) f v.fetched } s

/-- Gives a descriptor its final status and RESULT. -/
def finishDesc (q : Nat) (index : BitVec 32) (st : Byte) (result : Word) (s : State) : State :=
  updDesc q index (fun d => { d with status := some st, result := result }) s

/-- A descriptor fails: the first status stays, but OUTCOME_UNKNOWN prevails (R86). -/
def failDesc (st : Byte) (d : DescEx) : DescEx :=
  { d with failed := if st = stUnknown then some st else some (d.failed.getD st) }

/-! ### When a descriptor is done (R80, R84) -/

/-- Requests of a descriptor without a final outcome. -/
def descReqs (q : Nat) (index : BitVec 32) (s : State) : List Request :=
  s.req.reqs.filter (fun r => decide (r.desc = some index) && !r.detached && (match r.who with
    | .queue n => decide (n.val = q)
    | .window _ => false))

/-- Every byte a descriptor moves has been sent (its reads of entries included). -/
def allIssued (d : DescEx) : Bool :=
  let f := dfield d.raw
  let op := dOp d.raw
  if op = opCopy then decide (f 24 8 ≤ d.issued)
  else if op = opFill then decide (f 16 8 ≤ d.issued)
  else if op = opSignal then decide (8 ≤ d.issued)
  else if op = opGather ∨ op = opScatter then decide (f 24 4 ≤ d.listPos ∧ d.entryLeft = 0)
  else if op = opRekey then decide (f 24 8 ≤ d.issued)
  else if op = opMigrate then d.status.isSome
  else true

/-- The commands that move data by requests of their own. -/
def movesData (raw : Descriptor) : Bool :=
  let op := dOp raw
  decide ((opCopy ≤ op ∧ op ≤ opSignal) ∨ op = opRekey)

/-- The final status of a descriptor, once it has one and no request of its own is without outcome (R80). -/
def finalStatus (q : Nat) (d : DescEx) (s : State) : Option Byte :=
  if !(descReqs q d.index s).isEmpty then none
  else if d.started = true ∧ dOp d.raw = opMigrate then d.status
  else
    match d.failed with
    | some st => some st
    | none =>
      match d.status with
      | some st => some st
      | none =>
        if d.started && movesData d.raw && allIssued d && decide (d.landed = d.issued) then some stOk else none

/-- RESULT of a descriptor (R79): bytes landed for the copying commands, else the command's own. -/
def descResult (d : DescEx) : Word :=
  let op := dOp d.raw
  if (opCopy ≤ op ∧ op ≤ opFill) ∨ op = opRekey then BitVec.ofNat 64 d.landed else d.result

/-! ### Faults' waiters and run-ahead (R39, R83, R85) -/

/-- A queue leaves the waiters of every fault; a fault that loses its last waiter closes (R83). -/
def leaveFaults (q : Fin 512) (s : State) : State :=
  let drop := fun (l : List XltFault) =>
    (l.map (fun f => { f with waiters := f.waiters.filter (fun w => decide (w ≠ q)) })).filter
      (fun f => !f.waiters.isEmpty)
  { s with xlt.faults := drop s.xlt.faults, xlt.waitingFaults := drop s.xlt.waitingFaults }

/-- Discards a queue's run-ahead work: descriptors fetched and not started, translations fetched ahead (R85). -/
def discardAhead (q : Nat) (s : State) : State :=
  let v := getQ q s
  let p := qPart q s
  let s := { s with xlt.cache := s.xlt.cache.filter (fun e =>
    !(decide (e.part = p) && !e.pinned && v.aheadPages.contains (if e.big then 32 * e.page else e.page))) }
  putQ q { v with fetched := v.fetched.filter (fun d => d.started), aheadPages := [] } s

/-- Held requests of a queue are withdrawn; what they carried will be sent afresh (R86). -/
def withdrawHeld (q : Nat) (s : State) : State :=
  let mine := fun (r : Request) => match r.who with
    | .queue n => decide (n.val = q)
    | .window _ => false
  let gone := s.req.reqs.filter (fun r => mine r && r.sentAt.isNone)
  let s := { s with req.reqs := s.req.reqs.filter (fun r => !(mine r && r.sentAt.isNone)) }
  gone.foldl (fun s r => match r.desc with
    | some i => updDesc q i (fun d => { d with issued := d.issued - r.bytes }) s
    | none => s) s

/-- The requests of a queue that were sent and have no final outcome. -/
def sentReqs (q : Nat) (s : State) : List Request :=
  s.req.reqs.filter (fun r => r.sentAt.isSome && (match r.who with
    | .queue n => decide (n.val = q)
    | .window _ => false))

/-- A queue is FENCED: it gives its porter back and drops the data it had read (R86, R88). -/
def enterFenced (q : Nat) (s : State) : State :=
  let v := getQ q s
  putQ q { v with st := .fenced, porter := none, fencing := none, fetched := v.fetched.map (fun d =>
    if movesData d.raw then { d with buf := [], readWait := false, readList := false } else d) } s

/-- What a queue has handed to the caravan or the scheduler and not begun is withdrawn: a COLL_START still waiting for
other members, a ROUTE_RUN not yet chosen, whose rooms are freed (R443). -/
def withdrawWork (q : Fin 512) (s : State) : State :=
  let undo := fun (s : State) (i : BitVec 32) => updDesc q.val i (fun d => { d with started := false }) s
  let colls := s.caravan.waiting.filter (fun w => decide (w.member.queue = q))
  let chosen := fun (r : RunRec) => decide (r.phase = .running ∨ r.phase = .saving)
  let runs := s.array.runs.filter (fun r => decide (r.queue = q) && !(chosen r))
  let s := { s with caravan.waiting := s.caravan.waiting.filter (fun w => decide (w.member.queue ≠ q)),
                    array.runs := s.array.runs.filter (fun r => !(decide (r.queue = q) && !(chosen r))) }
  let s := runs.foldl (fun s r => undo (freeRooms r.rooms s) r.index) s
  colls.foldl (fun s w => undo s w.member.index) s

/-- A FENCE begins (R83, R85, R86, R443): the queue leaves its fault, discards its run-ahead, sends nothing held and
marks what it has sent. A CARAVAN or ROUTE queue is FENCED at once, a PORTER queue once nothing it sent is open. -/
def beginFence (q : Fin 512) (s : State) : State :=
  let s := withdrawHeld q.val (discardAhead q.val (withdrawWork q (leaveFaults q s)))
  let mark := fun (r : Request) => match r.who with
    | .queue n => if n = q ∧ r.fencedAt.isNone then { r with fencedAt := some s.clock } else r
    | .window _ => r
  let s := { s with req.reqs := s.req.reqs.map mark }
  if qEngine q.val s ≠ engPorter ∨ (sentReqs q.val s).isEmpty then enterFenced q.val s
  else putQ q.val { getQ q.val s with fencing := some s.clock } s

/-! ### Running and completing (R79 to R82, R88) -/

/-- How many queues a porter serves, whatever their WEIGHT and state: its load (R88; log entry 57). -/
def porterLoad (i : Nat) (s : State) : Nat :=
  (s.queues.filter (fun e => decide (e.2.porter = some i))).length

/-- The least-loaded porter of a mask, the lowest of several (R88). -/
def pickPorter (mask : Nat) (s : State) : Option Nat :=
  let l := (List.range 8).filter (fun i => decide ((mask / 2 ^ i) % 2 = 1))
  match l with
  | [] => none
  | i :: t => some (t.foldl (fun b j => if porterLoad j s < porterLoad b s then j else b) i)

/-- A queue runs: a PORTER queue is given its porter (R88). -/
def enterRunning (q : Nat) (s : State) : State :=
  let v := getQ q s
  let p := if qEngine q s = engPorter then
      (match v.porter with
        | some i => some i
        | none => pickPorter (qMask q s) s)
    else none
  putQ q { v with st := .running, porter := p } s

/-- A queue is RUNNING if it has descriptors to do, else IDLE (R82). -/
def runOrIdle (q : Nat) (s : State) : State :=
  let v := getQ q s
  if v.producer = v.consumer then putQ q { v with st := .idle, porter := none } s else enterRunning q s

/-- The 16 bytes of a completion record (R79). -/
def cmplRecord (q : Nat) (d : DescEx) (st : Byte) (s : State) : List Byte :=
  let v := getQ q s
  let phase := bit1 (decide ((v.cmplCount.toNat / cmplEntries q s) % 2 = 0))
  bytesOfNat 2 (dTag d.raw) ++ [st, BitVec.ofNat 8 (phase * 128)] ++ bytesOfNat 2 q ++
    bytesOfNat 2 (d.index.toNat % descEntries q s) ++ bytesOfNat 8 (descResult d).toNat

/-- Writes a completion record where one is due (R79, R80). -/
def writeRecord (q : Nat) (d : DescEx) (st : Byte) (s : State) : State :=
  if st = stOk ∧ dCmpl d.raw = false then s
  else
    let v := getQ q s
    let w := getReg (rQcmpl q) s
    let s := ringWrite (qPart q s) w (16 * cmplEntries q s) (16 * (v.cmplCount.toNat % cmplEntries q s))
      (cmplRecord q d st s) s
    putQ q { getQ q s with cmplCount := v.cmplCount + 1 } s

/-- The queue's state after a descriptor completed with a status (R81, R82). -/
def afterStatus (q : Fin 512) (raw : Descriptor) (st : Byte) (s : State) : State :=
  let v := getQ q.val s
  if (v.st ≠ .running ∧ v.st ≠ .parked) ∨ v.fencing.isSome = true then s
  else if v.st = .parked ∧ (st = stOk ∨ dCont raw = true) then s
  else if st = stOk then (if v.producer = v.consumer then runOrIdle q.val s else s)
  else if st = stClosed ∨ st = stOos then beginFence q s
  else if dCont raw then (if v.producer = v.consumer then runOrIdle q.val s else s)
  else putField (rQstate q.val) 55 48 st.toNat (putQ q.val { v with st := .error } s)

/-- The completion ring has room, can be reached and is still allowed, so that no record is lost (R62, R80, R374). -/
def cmplRoom (q : Nat) (s : State) : Bool :=
  let v := getQ q s
  let w := getReg (rQcmpl q) s
  decide ((v.cmplCount - v.cmplHead).toNat ≠ cmplEntries q s) && ringReachable w s &&
    ringAllowed (qPart q s) w (16 * cmplEntries q s) s

/-- A PARKED queue whose fault an ABORT has ended: it waits only for the record of the descriptor that ABORT failed
(R81, R82; log entry 56). -/
def aborted (q : Fin 512) (s : State) : Bool :=
  decide ((getQ q.val s).st = .parked) &&
    !((s.xlt.faults ++ s.xlt.waitingFaults).any (fun f => f.waiters.contains q))

/-- A queue's state lets a descriptor complete: OK in any state, a failure in any but PARKED, from which R82 knows no way
for it before an ABORT (R81, R82). -/
def mayComplete (q : Fin 512) (st : Byte) (s : State) : Bool :=
  decide (st = stOk ∨ (getQ q.val s).st ≠ .parked) || aborted q s

/-- Completes the descriptor at CONSUMER if it is fetched and done (R79 to R82); none while the array domain is in reset
(R386). -/
def completeHead (q : Fin 512) (s : State) : State :=
  match (getQ q.val s).fetched with
  | [] => s
  | d :: t =>
    match finalStatus q.val d s with
    | none => s
    | some st =>
      if decide (d.index = (getQ q.val s).consumer) && mayComplete q st s && cmplRoom q.val s && !(inReset .ary s) then
        let s := prof bPOR q.val (qPart q.val s).toNat evOut 1 (writeRecord q.val d st s)
        let v := getQ q.val s
        let s := putQ q.val { v with fetched := t, consumer := v.consumer + 1 } s
        let s := whenTrue (dIrq d.raw) (raiseVector (qVector q.val s)) s
        afterStatus q d.raw st s
      else s

/-- Completes what is done, in ring order, up to `n` descriptors. -/
def completeUpTo : Nat → Fin 512 → State → State
  | 0, _, s => s
  | n + 1, q, s => completeUpTo n q (completeHead q s)

/-- The descriptor a queue works on: the first that is neither done nor failed and has not begun, has not sent all it
moves, or is a WAIT. -/
def workDesc (q : Nat) (s : State) : Option DescEx :=
  (getQ q s).fetched.find? (fun d => d.status.isNone && d.failed.isNone &&
    (!d.started || (movesData d.raw && !(allIssued d)) || decide (dOp d.raw = opWait)))

/-- Everything ahead of a descriptor lets it be committed (R84): all of it is fetched, each earlier one has started, has
not failed and has sent all its writes, none is a WAIT or carries FENCE, and its own FENCE finds nothing ahead. One that
has failed lets nothing pass before it has completed. -/
def committed (q : Nat) (d : DescEx) (s : State) : Bool :=
  let v := getQ q s
  let ahead := v.fetched.takeWhile (fun e => decide (e.index ≠ d.index))
  decide (ahead.length = (d.index - v.consumer).toNat) &&
  ahead.all (fun e => e.started && e.failed.isNone && decide (e.status.getD stOk = stOk) && allIssued e &&
    (descReqs q e.index s).all (fun r => r.sentAt.isSome) &&
    decide (dOp e.raw ≠ opWait) && !(dFence e.raw)) && (!(dFence d.raw) || ahead.isEmpty)

end Sys2Proof.Machine
end

