-- ==== Sys2Proof/Machine/Xlt.lean ====
section
/-! DEFINITION. Translation: the walk of R26 to R32, the translation cache (R34, R35, R55), faults and their ring (R38 to
R45), the RESUME actions (R43). -/
namespace Sys2Proof.Machine

/-! ### The walk (R26 to R32) -/

/-- The fault reasons of R40. -/
abbrev rsNotMapped : Nat := 1
abbrev rsPermission : Nat := 2
abbrev rsMalformed : Nat := 3
abbrev rsWithdrawn : Nat := 4

/-- What a walk gives: a leaf with its size and the offset of its entry, or a fault with reason and level. -/
inductive Walk where
  | leaf (big : Bool) (w : Word) (at_ : Nat)
  | fault (reason level : Nat)
  deriving DecidableEq, Repr

/-- One 64-bit table entry. -/
def tableEntry (a : Nat) (s : State) : Word := BitVec.ofNat 64 (readNat s a 8)

/-- The next table's offset in a pointer entry (R29). -/
def ptrOf (e : Word) : Nat := wfield e 47 8 * 256

/-- An offset in the part-private region (R23). -/
def inPrivate (a : Nat) : Bool := decide (tenantEnd ≤ a ∧ a < privEnd)

/-- The fields of a leaf (R28). -/
def leafEid (w : Word) : Nat := wfield w 63 48
def leafFrame (w : Word) : Nat := wfield w 47 30
def leafSlot (w : Word) : Nat := wfield w 19 14
def leafPolicy (w : Word) : Nat := wfield w 13 12
def leafShared (w : Word) : Bool := wbit w 11
def leafBig (w : Word) : Bool := wbit w 1

/-- A leaf that R30 calls malformed: KEY_POLICY 3, CLEAR without SHARED, a 32 GiB FRAME off its boundary. -/
def leafBad (w : Word) : Bool :=
  decide (leafPolicy w = 3) || (decide (leafPolicy w = 1) && !(leafShared w)) ||
    (leafBig w && decide (leafFrame w % 32 ≠ 0))

/-- The level-3 step of a walk. -/
def walk3 (table fva : Nat) (s : State) : Walk :=
  let a := table + 8 * field fva 34 30
  let e := tableEntry a s
  if !(wbit e 0) then .fault rsNotMapped 3
  else if leafBig e || leafBad e then .fault rsMalformed 3 else .leaf false e a

/-- The level-2 step of a walk. -/
def walk2 (table fva : Nat) (s : State) : Walk :=
  let a := table + 8 * field fva 41 35
  let e := tableEntry a s
  if !(wbit e 0) then .fault rsNotMapped 2
  else if leafBig e then (if leafBad e then .fault rsMalformed 2 else .leaf true e a)
  else if inPrivate (ptrOf e) then walk3 (ptrOf e) fva s else .fault rsMalformed 2

/-- The level-1 step of a walk. -/
def walk1 (table fva : Nat) (s : State) : Walk :=
  let e := tableEntry (table + 8 * field fva 56 42) s
  if !(wbit e 0) then .fault rsNotMapped 1
  else if wbit e 1 || !(inPrivate (ptrOf e)) then .fault rsMalformed 1 else walk2 (ptrOf e) fva s

/-- The walk of a partition's tables (R26, R30, R33). A root outside the part-private region counts as a pointer
outside it. -/
def walkTables (p : Byte) (fva : Nat) (s : State) : Walk :=
  match partSlot p s with
  | none => .fault rsNotMapped 1
  | some n =>
    let r := getReg (rXltRoot n) s
    if !(wbit r 0) then .fault rsNotMapped 1
    else if !(inPrivate (wfield r 47 18 * 2 ^ 18)) then .fault rsMalformed 1
    else walk1 (wfield r 47 18 * 2 ^ 18) fva s

/-- The bit of an access kind in ACCESS, and its PERM bit in a leaf (R28, R40). -/
def kindBit : Access → Nat
  | .r => 0
  | .w => 1
  | .a => 2
  | .c => 3

/-- A leaf permits an access kind (R32): never stores or atomics to a shared image. -/
def leafPermits (k : Access) (w : Word) : Bool :=
  wbit w (4 + kindBit k) && !(leafShared w && decide (k = .w ∨ k = .a))

/-- The FA a leaf gives an FVA (R31). -/
def leafFa (big : Bool) (w : Word) (fva : Nat) : Nat :=
  leafEid w * 2 ^ 48 + leafFrame w * 2 ^ 30 + (if big then fva % 2 ^ 35 else fva % 2 ^ 30)

/-! ### The cache (R34, R35, R55) -/

/-- An entry covers an FVA of a partition. -/
def covers (p : Byte) (fva : Nat) (e : CacheEntry) : Bool :=
  decide (e.part = p ∧ e.page = (if e.big then fva / 2 ^ 35 else fva / 2 ^ 30))

/-- The cached leaf of an FVA. -/
def cacheFind (p : Byte) (fva : Nat) (s : State) : Option CacheEntry := s.xlt.cache.find? (covers p fva)

/-- The entry of an FVA becomes the most recently used: the last of the list. -/
def cacheTouch (p : Byte) (fva : Nat) (s : State) : State :=
  match cacheFind p fva s with
  | some e => { s with xlt.cache := s.xlt.cache.filter (fun x => !(covers p fva x)) ++ [e] }
  | none => s

/-- An advice that covers a page. -/
def advises (p : Byte) (page : Nat) (a : Advice) : Bool :=
  decide (a.part = p ∧ a.first ≤ page ∧ page < a.first + a.count)

/-- READ_MOSTLY stands for a page: the newest hint that speaks of it is READ_MOSTLY (R55). -/
def readMostly (p : Byte) (page : Nat) (s : State) : Bool :=
  match s.xlt.advice.find? (fun a => advises p page a && decide (a.hint ≠ 2)) with
  | some a => decide (a.hint = 1)
  | none => false

/-- How many entries are pinned. -/
def pinnedCount (s : State) : Nat := (s.xlt.cache.filter (fun e => e.pinned)).length

/-- SEQUENTIAL stands for a page: the newest hint that speaks of it is SEQUENTIAL (R55). -/
def sequential (p : Byte) (page : Nat) (s : State) : Bool :=
  match s.xlt.advice.find? (fun a => advises p page a && decide (a.hint = 0 ∨ a.hint = 2)) with
  | some a => decide (a.hint = 2)
  | none => false

/-- Puts a leaf into the cache in place of the page's old one; the least recently used unpinned entry makes room
among 4,096 (R34). -/
def cacheLeaf (p : Byte) (fva : Nat) (big : Bool) (w : Word) (s : State) : State :=
  let rest := s.xlt.cache.filter (fun e => !(covers p fva e))
  let rest := if rest.length < 4096 then rest else eraseFirst (fun e => !e.pinned) rest
  let s := { s with xlt.cache := rest }
  let pin := readMostly p (fva / 2 ^ 30) s && decide (pinnedCount s < 1024)
  { s with xlt.cache := rest ++ [⟨p, big, if big then fva / 2 ^ 35 else fva / 2 ^ 30, w, pin⟩] }

/-- The 1 GiB pages of a cache entry overlap a range. -/
def entryIn (p : Byte) (first count : Nat) (e : CacheEntry) : Bool :=
  let lo := if e.big then 32 * e.page else e.page
  let n := if e.big then 32 else 1
  decide (e.part = p ∧ lo < first + count ∧ first < lo + n)

/-- Takes every entry of a range of pages out (R47). -/
def cacheDrop (p : Byte) (first count : Nat) (s : State) : State :=
  { s with xlt.cache := s.xlt.cache.filter (fun e => !(entryIn p first count e)) }

/-- Gives the hint of an ADVISE its effect on a range (R55). -/
def giveAdvice (p : Byte) (first count hint : Nat) (s : State) : State :=
  let s := { s with xlt.advice := ⟨p, first, count, hint⟩ :: s.xlt.advice }
  if hint = 3 then cacheDrop p first count s
  else if hint = 0 then
    { s with xlt.cache := updAll (entryIn p first count) (fun e => { e with pinned := false }) s.xlt.cache }
  else if hint = 1 then
    let pin := fun (acc : List CacheEntry × Nat) (e : CacheEntry) =>
      if entryIn p first count e && !e.pinned && decide (acc.2 < 1024) then
        (acc.1 ++ [{ e with pinned := true }], acc.2 + 1)
      else (acc.1 ++ [e], acc.2)
    { s with xlt.cache := (s.xlt.cache.foldl pin ([], pinnedCount s)).1 }
  else s

/-- What the cache gives an access (R25, R31, R35): an FA with its leaf, a malformed address, or no leaf that permits
it. -/
inductive Xlated where
  | fa (a : Nat) (leaf : Word)
  | malformed
  | miss
  deriving DecidableEq, Repr

/-- The translation of an FVA for an access kind by the cache. -/
def translate (p : Byte) (fva : Nat) (k : Access) (s : State) : Xlated :=
  if 2 ^ 57 ≤ fva then .malformed
  else match cacheFind p fva s with
    | some e => if leafPermits k e.leaf then .fa (leafFa e.big e.leaf fva) e.leaf else .miss
    | none => .miss

/-! ### Faults (R38 to R42) -/

/-- The FAULT_TAG a fault takes: the first after the last one taken that neither an open fault nor a waiting record
bears, never 0xFFFF (R40, R43). -/
def freeTag (s : State) : Nat :=
  nextFree ((s.xlt.faults ++ s.xlt.records).map (fun f => f.tag.toNat)) 65535 65535 s.xlt.nextTag

/-- Opens a fault under a tag of its own. -/
def openNew (f : XltFault) (s : State) : State :=
  { s with xlt.faults := s.xlt.faults ++ [{ f with tag := BitVec.ofNat 16 (freeTag s), openedAt := s.clock }],
           xlt.nextTag := (freeTag s + 1) % 65535 }

/-- Adds a queue and its access kind to a fault. -/
def joinFault (q : Fin 512) (k : Access) (f : XltFault) : XltFault :=
  { f with waiters := if f.waiters.contains q then f.waiters else f.waiters ++ [q],
           access := f.access ||| BitVec.ofNat 4 (2 ^ kindBit k) }

/-- A queue's walk faulted: it joins the fault of its page, or opens it; with 256 open the fault is pending (R39,
R42). On a page under MIGRATE it joins a fault that was open there before as it does any other, and ends with that one
(R54; log entry 73). -/
def raiseFault (q : Fin 512) (p : Byte) (fva reason level : Nat) (k : Access) (silent : Bool) (s : State) : State :=
  let page := fva / 2 ^ 30
  let same := fun (f : XltFault) => decide (f.part = p ∧ f.page = page)
  if s.xlt.faults.any same then
    { s with xlt.faults := updFirst same (joinFault q k) s.xlt.faults,
             xlt.records := updFirst (fun r => s.xlt.faults.any (fun f => same f && decide (f.tag = r.tag)))
               (joinFault q k) s.xlt.records }
  else if s.xlt.waitingFaults.any same then
    { s with xlt.waitingFaults := updFirst same (joinFault q k) s.xlt.waitingFaults }
  else
    let f : XltFault := ⟨0xFFFF, p, page, reason, level, BitVec.ofNat 4 (2 ^ kindBit k), [q], s.clock, false, silent⟩
    if s.xlt.faults.length < 256 then openNew f s
    else setFlag rXltStatus 3 { s with xlt.waitingFaults := s.xlt.waitingFaults ++ [f] }

/-- A queue is parked on a fault, its run-ahead discarded (R38, R85). -/
def parkQueue (q : Fin 512) (s : State) : State :=
  let s := discardAhead q.val s
  putQ q.val { getQ q.val s with st := .parked, parkedOn := none } s

/-- A page lies in a withdrawal that has begun: the withdrawal's kind (true for MIGRATE). -/
def withdrawing (p : Byte) (page : Nat) (s : State) : Option Bool :=
  (s.xlt.withdraws.find? (fun w => w.started &&
    decide (w.part = p ∧ w.first ≤ page ∧ page < w.first + w.count))).map (·.migrate)

/-- The result of a queue's walk: its leaf is cached; a fault parks the queue unless it ran ahead (R34, R35, R38, R48,
R54, R85). -/
def walkFor (q : Fin 512) (fva : Nat) (k : Access) (ahead : Bool) (s : State) : State :=
  let p := qPart q.val s
  let page := fva / 2 ^ 30
  let park := fun (reason level : Nat) (silent : Bool) (s : State) =>
    if ahead then s else parkQueue q (raiseFault q p fva reason level k silent s)
  if withdrawing p page s = some true then park rsWithdrawn 3 true s
  else
    match walkTables p fva s with
    | .fault r l => park (if r = rsNotMapped ∧ withdrawing p page s = some false then rsWithdrawn else r) l false s
    | .leaf big w _ =>
      let s := cacheLeaf p fva big w s
      let s := if ahead then putQ q.val { getQ q.val s with aheadPages := insertNew page (getQ q.val s).aheadPages } s
        else s
      if leafPermits k w then s else park rsPermission (if big then 2 else 3) false s

/-- A porter's walk ahead on a page with the hint SEQUENTIAL translates the next page too (R55, R74). -/
def walkNext (q : Fin 512) (fva : Nat) (k : Access) (s : State) : State :=
  let next := (fva / 2 ^ 30 + 1) * 2 ^ 30
  if qEngine q.val s = engPorter ∧ sequential (qPart q.val s) (fva / 2 ^ 30) s = true ∧ next < 2 ^ 57 then
    walkFor q next k true s
  else s

/-- XLT_WALK: a walk for a RUNNING queue of a tenant partition (R26 to R35, R38, R39, R42, R55). A queue of partition 0
and a malformed FVA walk nothing (R25, R58). -/
def execXltWalk (q : Fin 512) (fva : Word) (kind : Access) (ahead : Bool) (s : State) :
    Host.Outcome State Fault Refusal :=
  act s (fun s =>
    if (getQ q.val s).st = .running ∧ (getQ q.val s).fencing = none ∧ qPart q.val s ≠ 0 ∧ fva.toNat < 2 ^ 57 then
      whenTrue ahead (walkNext q fva.toNat kind) (walkFor q fva.toNat kind ahead s)
    else s)

/-! ### The rings of faults and settlements (R41, R42, R140, R141) -/

/-- Records a ring of R41 or R140 holds. -/
def evRingSize (ring : Nat) (s : State) : Nat := 64 * 2 ^ min 6 (getField ring 7 4 s)

/-- The ring lacks room for a record. -/
def evRingFull (ring ptrs : Nat) (s : State) : Bool :=
  decide ((getField ptrs 11 0 s + 1) % evRingSize ring s = getField ptrs 43 32 s)

/-- A record may be posted (R42, R141): the ring is enabled, has room and can be reached; a local ring lies in the
part-private region (R41). -/
def evRingReady (ring ptrs bytes : Nat) (s : State) : Bool :=
  let w := getReg ring s
  let b := wfield w 51 12 * 4096
  wbit w 0 && !(evRingFull ring ptrs s) &&
    (if wbit w 63 then inPrivate b && decide (b + bytes * evRingSize ring s ≤ privEnd) else cxlUp s)

/-- Writes one record at HEAD and advances it; true where the ring has come round. -/
def evRingWrite (ring ptrs : Nat) (rec : List Byte) (s : State) : Bool × State :=
  let w := getReg ring s
  let h := getField ptrs 11 0 s
  let a := wfield w 51 12 * 4096 + rec.length * h
  let s := if wbit w 63 then storeBytes a rec s else writeHost a rec s
  let n := (h + 1) % evRingSize ring s
  (decide (n = 0), putField ptrs 11 0 n s)

/-- The 64 bytes of a fault record (R40). -/
def faultRecord (f : XltFault) (phase : Bool) : List Byte :=
  let slots := (f.waiters.take 24).mapIdx (fun i q => (2 ^ 15 + q.val) * 2 ^ (128 + 16 * i))
  bytesOfNat 64 (f.page * 2 ^ 30 % 2 ^ 57 + f.part.toNat * 2 ^ 64 + f.reason * 2 ^ 72 + f.level * 2 ^ 76 +
    f.access.toNat * 2 ^ 80 + bit1 phase * 2 ^ 84 + f.waiters.length * 2 ^ 96 + f.tag.toNat * 2 ^ 112 +
    slots.foldl (· + ·) 0)

/-- RING_FULL where a record waits for ring space (R44). -/
def noteRingFull (s : State) : State :=
  if !s.xlt.records.isEmpty && getBit rFaultRing 0 s && evRingFull rFaultRing rFaultPtrs s then
    setFlag rXltStatus 2 s
  else s

/-- FAULT_GATHER_EXPIRY: 1 µs after a fault was opened its record is made (R39). A fault that a RESUME ended before has
none (log entry 70). -/
def execFaultGatherExpiry (tag : BitVec 16) (s : State) : Host.Outcome State Fault Refusal :=
  act s (fun s =>
    match s.xlt.faults.find? (fun f => decide (f.tag = tag)) with
    | some f =>
      if f.gathered || f.silent || !(due (f.openedAt + 1000) s) then s
      else
        noteRingFull { s with
          xlt.faults := updFirst (fun x => decide (x.tag = tag)) (fun x => { x with gathered := true }) s.xlt.faults,
          xlt.records := s.xlt.records ++ [{ f with gathered := true }] }
    | none => s)

/-- FAULT_RECORD_POST: the oldest record goes to the ring if it may (R40 to R42, R44, R369, R374). -/
def execFaultRecordPost (s : State) : Host.Outcome State Fault Refusal :=
  act s (fun s =>
    match s.xlt.records with
    | [] => s
    | f :: t =>
      if evRingReady rFaultRing rFaultPtrs 64 s then
        let (wrapped, s) := evRingWrite rFaultRing rFaultPtrs
          (faultRecord f (decide (s.xlt.faultPass % 2 = 0))) s
        setFlag rXltStatus 0 { s with xlt.records := t, xlt.faultPass := s.xlt.faultPass + bit1 wrapped }
      else noteRingFull s)

/-- PENDING_FAULT_CREATE: once an open fault has closed, the oldest pending one is created (R42). -/
def execPendingFaultCreate (s : State) : Host.Outcome State Fault Refusal :=
  act s (fun s =>
    match s.xlt.waitingFaults with
    | [] => s
    | f :: t =>
      if s.xlt.faults.length < 256 then openNew f { s with xlt.waitingFaults := t } else s)

/-- A write of a ring register by access types; ENABLE going from 0 to 1 sets HEAD to 0 (R42, R141). -/
def writeEvRing (ring ptrs : Nat) (v : Word) (s : State) : Bool × State :=
  let rising := !(getBit ring 0 s) && wbit v 0
  let fields := match regDesc ring with
    | some d => d.fields
    | none => []
  let s := putReg ring (accessWrite fields false (getReg ring s) v) s
  (rising, whenTrue rising (putField ptrs 11 0 0) s)

/-- A write to EPT_FAULT_RING (R41, R42). -/
def writeFaultRing (v : Word) (s : State) : State :=
  let (rising, s) := writeEvRing rFaultRing rFaultPtrs v s
  if rising then { s with xlt.faultPass := 0 } else s

/-- FAULT_RING_ENABLE (R41, R42). -/
def execFaultRingEnable (side : Side) (val : Word) (s : State) : Host.Outcome State Fault Refusal :=
  act s (fun s => guarded side bEPT false .ept s (writeFaultRing val))

/-- A write to EPT_SETTLE_RING (R140, R141). -/
def writeSettleRing (v : Word) (s : State) : State :=
  let (rising, s) := writeEvRing rSettleRing rSettlePtrs v s
  if rising then { s with req.settlePass := 0 } else s

/-- SETTLE_RING_ENABLE (R140, R141). -/
def execSettleRingEnable (side : Side) (val : Word) (s : State) : Host.Outcome State Fault Refusal :=
  act s (fun s => guarded side bEPT false .ept s (writeSettleRing val))

/-! ### RESUME (R43, R44) -/

/-- A RESUME that ends nothing is counted. -/
def badResume (s : State) : State :=
  refuse bEPT rXltStatus 1 (putField rXltStatus 31 16 (satAdd 65535 (getField rXltStatus 31 16 s) 1) s)

/-- The page's cached leaf goes, so that the next access walks again (R35). -/
def forceWalk (f : XltFault) (s : State) : State :=
  { s with xlt.cache := s.xlt.cache.filter (fun e => !(covers f.part (f.page * 2 ^ 30) e)) }

/-- RETRY of a fault: it closes and every waiter runs again (R35, R43, R82). -/
def retryFault (f : XltFault) (s : State) : State :=
  let s := forceWalk f { s with xlt.faults := s.xlt.faults.filter (fun x => decide (x.tag ≠ f.tag)) }
  f.waiters.foldl (fun s q => if (getQ q.val s).st = .parked then enterRunning q.val s else s) s

/-- The descriptor a parked queue stands at: the one in hand whose walk parked it, else the one it works on (R38, R43). -/
def parkedDesc (q : Fin 512) (s : State) : Option DescEx :=
  match (getQ q.val s).parkedOn with
  | some i => (getQ q.val s).fetched.find? (fun d => decide (d.index = i))
  | none => workDesc q.val s

/-- What the caravan or the scheduler has in hand for a descriptor that ABORT fails: its member takes no further part in its
collective; a run not yet chosen leaves, one that is going ends at the end of its pass (R43, R176, R227). -/
def abortWork (q : Fin 512) (index : BitVec 32) (s : State) : State :=
  let mine := fun (r : RunRec) => decide (r.queue = q ∧ r.index = index)
  let going := fun (r : RunRec) => decide (r.phase = .running)
  let gone := s.array.runs.filter (fun r => mine r && !(going r))
  let member := fun (m : CollMember) => decide (m.queue = q ∧ m.index = index) && m.status.isNone
  let runs := (s.array.runs.filter (fun r => !(mine r) || going r)).map (fun r =>
    if mine r then { r with status := stFault, early := true } else r)
  let s := { s with
    array.runs := runs
    caravan.colls := s.caravan.colls.map (fun c =>
      { c with members := updAll member (fun m => { m with status := some stFault }) c.members }) }
  gone.foldl (fun s r => freeRooms r.rooms s) s

/-- ABORT of a fault: each waiter's current descriptor completes with FAULT, and its queue follows R81: it runs on with
CONT, else it is PARKED until the record can be written and then in ERROR (R43, R80 to R82; log entry 56). -/
def abortFault (f : XltFault) (s : State) : State :=
  let s := { s with xlt.faults := s.xlt.faults.filter (fun x => decide (x.tag ≠ f.tag)) }
  f.waiters.foldl (fun s q =>
    if (getQ q.val s).st = .parked then
      match parkedDesc q s with
      | some d =>
        let s := abortWork q d.index (updDesc q.val d.index (failDesc stFault) s)
        completeUpTo (getQ q.val s).fetched.length q (whenTrue (dCont d.raw) (enterRunning q.val) s)
      | none => enterRunning q.val s
    else s) s

/-- The open fault a RESUME names; the silent fault of a MIGRATE is none (R54). -/
def openFault (tag : BitVec 16) (s : State) : Option XltFault :=
  s.xlt.faults.find? (fun f => decide (f.tag = tag) && !f.silent)

/-- A write to EPT_RESUME (R43). -/
def writeResume (v : Word) (s : State) : State :=
  match openFault (BitVec.ofNat 16 v.toNat) s with
  | none => badResume s
  | some f =>
    if wfield v 17 16 = 0 then retryFault f s
    else if wfield v 17 16 = 1 then abortFault f s else badResume s

/-- RETRY (R43). -/
def execRetry (side : Side) (tag : BitVec 16) (s : State) : Host.Outcome State Fault Refusal :=
  act s (fun s => guarded side bEPT false .ept s (writeResume (tag.setWidth 64)))

/-- ABORT (R43). -/
def execAbort (side : Side) (tag : BitVec 16) (s : State) : Host.Outcome State Fault Refusal :=
  act s (fun s => guarded side bEPT false .ept s (writeResume (tag.setWidth 64 ||| 0x10000)))

end Sys2Proof.Machine
end

