-- ==== Sys2Proof/Machine/Requester.lean ====
section
/-! DEFINITION. The part's own requesters: making and sending requests (R91 to R95, R104 to R107, R135, R136, R352 to
R354), their timeline (R133, R134), their responses (R108, R355, R441), settlement (R137 to R141), the host bridge (R112,
R113, R371, R372). -/
namespace Sys2Proof.Machine

/-! ### Streams and holds (R92, R104 to R107, R135, R354) -/

/-- The stream ID of a requester (R92). -/
def streamOf : Requester → Nat
  | .queue q => q.val
  | .window w => 0x200 + w.val

/-- The core input a requester's frames enter by (R259). -/
def requesterInput (who : Requester) (s : State) : Nat :=
  match who with
  | .queue q => 44 + ((getQ q.val s).porter.getD 0) % 2
  | .window _ => 46

/-- How many requests a stream has sent since the PWR reset (R92). -/
def sentCount (sid : Nat) (s : State) : Nat := tblGet 0 s.req.seqs sid

/-- The sequences a stream has used under a slot's present install (R354). -/
def installCount (slot sid : Nat) (s : State) : Nat := sentCount sid s - tblGet 0 s.req.installFirst (1024 * slot + sid)

/-- Two requests touch a common fabric line. -/
def sharesLine (f g : Frame) : Bool :=
  decide (f.dst = g.dst) && (requestLines f).any (fun l => (requestLines g).contains l)

/-- An earlier request to one of the lines holds this one, unless both are loads (R104). -/
def lineHeld (r : Request) (s : State) : Bool :=
  s.req.reqs.any (fun x => decide (x.who = r.who ∧ x.order < r.order) &&
    !(decide (x.kind = .load) && decide (r.kind = .load)) && sharesLine x.frame r.frame)

/-- An earlier store or atomic of the same requester without outcome (R105). -/
def storeAhead (r : Request) (s : State) : Bool :=
  s.req.reqs.any (fun x => decide (x.who = r.who ∧ x.order < r.order ∧ x.kind ≠ .load))

/-- A stream holds a store or atomic of 1,024 sequences before, neither settled nor past its deadline (R135). -/
def windowHeld (sid : Nat) (s : State) : Bool :=
  let n := sentCount sid s
  let far := fun (q : Seq) => decide (1024 ≤ ((BitVec.ofNat 24 n : Seq) - q).toNat)
  let open_ := fun (x : Settlement) => !(due (x.t0 + 2500000) s)
  s.req.reqs.any (fun x => x.sentAt.isSome && decide (streamOf x.who = sid ∧ x.kind ≠ .load) && far x.frame.seq) ||
    (s.req.settling ++ s.req.held).any (fun x => decide (streamOf x.who = sid) && far x.frame.seq && open_ x)

/-- The stream is held because 4,096 settlement records wait (R141). -/
def settleHeld (sid : Nat) (s : State) : Bool := s.req.held.any (fun x => decide (streamOf x.who = sid))

/-- The stream would send its 2^24-th new sequence under the install (R354). -/
def ivHeld (r : Request) (s : State) : Bool :=
  match r.keySlot with
  | some n => decide (2 ^ 24 ≤ installCount n (streamOf r.who) s + 1)
  | none => false

/-- A request flagged in the sense of R105: a flagged store, or an atomic sent under the flagged rule (R72). -/
def heldKind (r : Request) : Bool := decide (r.kind = .flagged ∨ r.kind = .atomic)

/-- A request may be sent now (R104, R105, R107, R135, R141); a porter sends none while its issue is stopped (R393,
R408). -/
def maySend (r : Request) (s : State) : Bool :=
  let sid := streamOf r.who
  !(lineHeld r s) && !(heldKind r && (storeAhead r s || r.earlier.isSome)) &&
    decide ((s.req.reqs.filter (fun x => x.sentAt.isSome && decide (x.who = r.who))).length < 1024) &&
    !(windowHeld sid s) && !(settleHeld sid s) && !(porterStopped s && (match r.who with
      | .queue _ => true
      | .window _ => false))

/-! ### Sending (R91, R136, R352, R353) -/

/-- The lowest unsettled sequence of a stream's atomics, else the ATOMIC's own (R136). -/
def releaseBelow (sid : Nat) (own : Seq) (s : State) : Seq :=
  let l := (s.req.reqs.filter (fun x => x.sentAt.isSome && decide (streamOf x.who = sid ∧ x.kind = .atomic))).map
      (·.frame.seq) ++
    ((s.req.settling ++ s.req.held).filter (fun x => decide (streamOf x.who = sid ∧ x.frame.ty = tyAtomic))).map
      (·.frame.seq)
  l.foldl (fun b q => if (own - b).toNat < (own - q).toNat then q else b) own

/-- An ATOMIC's data with its RELEASE_BELOW. -/
def withRelease (f : Frame) (rel : Seq) : Frame :=
  match f.data with
  | d :: t => { f with data := BitVec.ofNat 256 (d.toNat + rel.toNat * 2 ^ 32) :: t }
  | [] => f

/-- The seal of a copy under the current install of a slot (R353). -/
def sealUnder (slot : Option Nat) (copy : Nat) (s : State) : Option Seal :=
  slot.map (fun n => { epoch := (getSlot n s).epoch, copy := BitVec.ofNat 8 copy, ok := true })

/-- Replaces a request. -/
def putRequest (r : Request) (s : State) : State :=
  { s with req.reqs := updFirst (fun x => decide (x.order = r.order)) (fun _ => r) s.req.reqs }

/-- POR_ENG_STATUS.FRAMES of the porter that issues a frame. -/
def countFrame (who : Requester) (s : State) : State :=
  match who with
  | .queue q => match (getQ q.val s).porter with
    | some i => putField (rEngStatus i) 31 0 (getField (rEngStatus i) 31 0 s + 1) s
    | none => s
  | .window _ => s

/-- Sends one more copy of a request that has its sequence (R133, R353). One whose COPY would pass 255 is held (R354). -/
def sendCopy (r : Request) (s : State) : State :=
  if r.keySlot.isSome ∧ 255 < r.copies then setFlag rSecStatus 5 s else
  let f := { r.frame with sealed := sealUnder r.keySlot r.copies s }
  sendCore (requesterInput r.who s) f <| countFrame r.who
    (putRequest { r with lastSent := s.clock, copies := r.copies + 1, counted := r.counted + 1, busyUntil := none } s)

/-- Sends a request for the first time: it takes the stream's next sequence (R92), and passing 2^23 in one install
sets SEQ_WARN (R354). -/
def sendFirst (r : Request) (s : State) : State :=
  let sid := streamOf r.who
  let n := sentCount sid s
  let seq : Seq := BitVec.ofNat 24 n
  let f := { r.frame with seq := seq }
  let f := if r.kind = .atomic then withRelease f (releaseBelow sid seq s) else f
  let s := { s with req.seqs := tblSet 0 s.req.seqs sid (n + 1) }
  let warn := match r.keySlot with
    | some k => decide (2 ^ 23 < installCount k sid s)
    | none => false
  sendCopy { r with frame := f, sentAt := some s.clock } (whenTrue warn (setFlag rSecStatus 4) s)

/-- Sends a waiting request if it may go; a spent install holds it with IV_HOLD (R354). -/
def trySend (r : Request) (s : State) : State :=
  if r.sentAt.isSome then s
  else if ivHeld r s then setFlag rSecStatus 5 s
  else if maySend r s then sendFirst r s else s

/-- Takes a request up at its queue, in issue order. -/
def takeUp (r : Request) (s : State) : State :=
  let r := { r with order := s.req.nextOrder }
  { s with req.reqs := s.req.reqs ++ [r], req.nextOrder := s.req.nextOrder + 1 }

/-- Takes a request up and sends it if it may go. -/
def issue (r : Request) (s : State) : State := trySend { r with order := s.req.nextOrder } (takeUp r s)

/-- A request's frame as its source fills it (R91, R94, R95). -/
def requestFrame (p : Byte) (sid : Nat) (ty : BitVec 6) (fa len : Nat) (be : Byte) (data : List Slot) (enc : Bool)
    (s : State) : Frame :=
  { blankFrame with
    dst := BitVec.ofNat 16 (fa / 2 ^ 48), src := selfEid 0 s, ty := ty, cls := clReq, len := BitVec.ofNat 7 len,
    flagged := decide (ty = tyFlagged), strict := strictMode s, enc := enc, part := p,
    keyGen := (match slotRec p s with
      | some k => k.generation
      | none => 0),
    stream := BitVec.ofNat 16 sid, off := BitVec.ofNat 48 fa, be := be, data := data }

/-- A request not yet sent. -/
def newRequest (who : Requester) (desc : Option (BitVec 32)) (kind : ReqKind) (f : Frame) (slot : Option Nat)
    (page : Option (Byte × Nat)) (bytes : Nat) (hpa : Option Word) : Request :=
  { order := 0, who := who, desc := desc, kind := kind, frame := f, keySlot := slot, page := page, bytes := bytes,
    hpa := hpa, sentAt := none, lastSent := 0, copies := 0, counted := 0, busy := 0, busyUntil := none, lost := 0,
    lastSwitch := 0, fencedAt := none, earlier := none, detached := false }

/-- The slots that hold `n` bytes from an address aligned to a slot. -/
def slotSpan (a n : Nat) : Nat := ceilDiv (a % 32 + n) 32

/-- The masked form of bytes within one line: the summary, the carried slots and the mask slot (R95). -/
def maskedData (a : Nat) (bs : List Byte) : Byte × List Slot :=
  let lo := a % 256
  let at_ := fun (i : Nat) => if lo ≤ i then bs[i - lo]? else none
  let has := fun (k : Nat) => (List.range 32).any (fun j => (at_ (32 * k + j)).isSome)
  let ks := (List.range 8).filter has
  let be := ks.foldl (fun n k => n + 2 ^ k) 0
  let slots := ks.map (fun k => slotOf ((List.range 32).map (fun j => (at_ (32 * k + j)).getD 0)))
  let mask := (List.range 256).foldl (fun n i => if (at_ i).isSome then n + 2 ^ i else n) 0
  (BitVec.ofNat 8 be, slots ++ [BitVec.ofNat 256 mask])

/-! ### Outcomes (R105, R106, R108, R134) -/

/-- The earlier of two failures in issue order. -/
def earlierOf (a b : Option (Nat × Byte)) : Option (Nat × Byte) :=
  match a, b with
  | some x, some y => if y.1 < x.1 then some y else some x
  | some x, none => some x
  | none, b => b

/-- The log of a failed window access (R371). -/
def logHost (w : Nat) (write : Bool) (fa : Nat) (seq : Seq) (st : Byte) (s : State) : State :=
  let s := setFlag rHstStatus 0 s
  if getBit rHstErrA 63 s then putReg rHstErrA (getReg rHstErrA s ||| placeBit 62 true) s
  else
    putReg rHstErrB (BitVec.ofNat 64 fa)
      (putReg rHstErrA (placeBit 63 true ||| placeBit 61 write ||| place 57 56 w ||| place 55 48 st.toNat |||
        place 23 0 seq.toNat) s)

/-- Answers the host (R112, R371). -/
def answerHost (hpa : Word) (write : Bool) (data : List Slot) (poisoned : Bool) (s : State) : State :=
  { s with req.hostAnswers := s.req.hostAnswers ++ [⟨hpa, write, data, poisoned⟩] }

/-- A window access reaches its final outcome (R371); after a reset of the host port its result is discarded
(R374). -/
def windowOutcome (w : Nat) (r : Request) (st : Byte) (data : List Slot) (s : State) : State :=
  match r.hpa with
  | none => s
  | some hpa =>
    let write := decide (r.kind ≠ .load)
    let s := prof bHST w r.frame.part.toNat evOut 1 s
    if st = stOk then answerHost hpa write data false s
    else answerHost hpa write [] (!write)
      (logHost w write (r.frame.dst.toNat * 2 ^ 48 + r.frame.off.toNat) r.frame.seq st s)

/-- What a WAIT's condition says of a word (R76). -/
def waitHolds (raw : Descriptor) (w : Nat) : Bool :=
  let x := dfield raw 16 8
  match dfield raw 24 1 with
  | 0 => decide (x ≤ w)
  | 1 => decide (w = x)
  | _ => decide (w ≠ x)

/-- Data a descriptor was reading arrives: a WAIT's word, a list entry, or data to write. -/
def loadArrived (bs : List Byte) (d : DescEx) : DescEx :=
  let b := (bs.drop d.readSkip).take d.readLen
  let e := { d with readWait := false, readList := false }
  if !d.readWait then d
  else if dOp d.raw = opWait then (if waitHolds d.raw (natOfBytes b) then { e with status := some stOk } else e)
  else if d.readList then
    { e with listPos := d.listPos + 1, entryFva := natOfBytes (b.take 8), entryLeft := natOfBytes ((b.drop 8).take 4) }
  else { e with buf := d.buf ++ b }

/-- What a request's outcome does to its descriptor. -/
def descOutcome (r : Request) (st : Byte) (data : List Slot) (d : DescEx) : DescEx :=
  if r.kind = .load then
    if st = stOk then loadArrived (data.map slotBytes).flatten d
    else failDesc st { d with readWait := false, readList := false }
  else if st = stOk then
    { d with landed := d.landed + r.bytes,
             result := if r.kind = .atomic then BitVec.ofNat 64 (data.headD 0).toNat else d.result }
  else if st = stReleased then failDesc st { d with landed := d.landed + r.bytes }
  else failDesc st { d with failStore := earlierOf d.failStore (some (r.order, st)) }

/-- Withdrawals whose old translation a request used note its end (R49). -/
def noteWithdraws (r : Request) (st : Byte) (s : State) : State :=
  { s with xlt.withdraws := s.xlt.withdraws.map (fun w =>
      if w.inFlight.contains r.order then
        { w with inFlight := w.inFlight.filter (fun o => decide (o ≠ r.order)),
                 quietUntil := if st = stUnknown then max w.quietUntil (r.lastSent + 2000000) else w.quietUntil }
      else w) }

/-- The STATUS_QUERY for a request (R137). -/
def queryFrame (f : Frame) : Frame :=
  { blankFrame with dst := f.dst, src := f.src, ty := tyQuery, cls := clReq, part := f.part, keyGen := f.keyGen,
                    stream := f.stream, seq := f.seq, strict := f.strict }

/-- Sends a query for a settlement. -/
def sendQuery (x : Settlement) (s : State) : State := sendCore (requesterInput x.who s) (queryFrame x.frame) s

/-- A request that completed with OUTCOME_UNKNOWN is settled, the first query at once (R137); while 4,096 records wait
its stream is held instead (R141). -/
def beginSettle (r : Request) (t0 : Nat) (s : State) : State :=
  let idx : BitVec 16 := match r.who, r.desc with
    | .queue q, some i => BitVec.ofNat 16 (i.toNat % descEntries q.val s)
    | _, _ => 0xFFFF
  let x : Settlement := ⟨r.who, idx, r.frame, t0, s.clock⟩
  if 4096 ≤ s.req.records.length then { s with req.held := s.req.held ++ [x] }
  else sendQuery x { s with req.settling := s.req.settling ++ [x] }

/-- A request reaches its final outcome: it leaves, and its descriptor, window, withdrawals and the flagged requests
held behind it take note (R106, R108, R137). -/
def endOne (r : Request) (st : Byte) (data : List Slot) (s : State) : State :=
  let failed := decide (r.kind ≠ .load ∧ st ≠ stOk ∧ st ≠ stReleased)
  let rest := s.req.reqs.filter (fun x => decide (x.order ≠ r.order))
  let note := fun (x : Request) =>
    if failed && decide (x.who = r.who ∧ r.order < x.order) && x.sentAt.isNone && heldKind x then
      { x with earlier := earlierOf x.earlier (some (r.order, st)) }
    else x
  let s := noteWithdraws r st { s with req.reqs := rest.map note }
  let s := match r.who with
    | .window w => windowOutcome w.val r st data s
    | .queue q => match r.desc with
      | some i => if r.detached then s else updDesc q.val i (descOutcome r st data) s
      | none => s
  match r.sentAt with
  | some t0 => if st = stUnknown ∧ r.kind ≠ .load then beginSettle r t0 s else s
  | none => s

/-- A held flagged request behind a failure is never sent: it completes with the earliest failure's status once
nothing ahead of it can fail any more (R106). -/
def cancelHeld (who : Requester) (s : State) : State :=
  match s.req.reqs.find? (fun x => decide (x.who = who) && x.sentAt.isNone && heldKind x && x.earlier.isSome &&
      !(storeAhead x s)) with
  | some x => endOne x (x.earlier.getD (0, stOk)).2 [] s
  | none => s

/-- A request ends, and with it a held flagged request that it stops. -/
def endRequest (r : Request) (st : Byte) (data : List Slot) (s : State) : State :=
  cancelHeld r.who (endOne r st data s)

/-! ### Responses (R108, R134, R355, R441) -/

/-- The request a response answers (R91). -/
def findRequest (f : Frame) (s : State) : Option Request :=
  s.req.reqs.find? (fun r => r.sentAt.isSome && decide (streamOf r.who = f.stream.toNat ∧ r.frame.seq = f.seq ∧
    r.frame.dst = f.src ∧ rspType r.frame.ty = f.ty))

/-- A switch core's answer for one copy (R134, R355). -/
def switchMade (f : Frame) : Bool :=
  f.swRsp && decide (f.be = stAged ∨ f.be = stUnreachable ∨ f.be = stMalformed)

/-- The checks of R355 on a response to a request. -/
def authenticateRsp (f : Frame) (r : Request) (s : State) : Auth :=
  if f.part = 0 then .pass
  else
    match slotRec f.part s with
    | none => .stale
    | some k =>
      if k.generation ≠ f.keyGen then .stale
      else if f.enc then
        (if sealAccepted f k || (match r.keySlot with
            | some n => sealAccepted f (getSlot n s)
            | none => false) then .pass else .tag)
      else if r.frame.enc && !(switchMade f) then .tag else .pass

/-- The back-off after the n-th RETRY_BUSY in ns (R134). -/
def backoff (n : Nat) : Nat := 1000 * min 64 (2 ^ (n - 1))

/-- A response to a request: one copy's answer, or its final outcome (R108, R134, R441). -/
def takeResponse (f : Frame) (r : Request) (s : State) : State :=
  if switchMade f then putRequest { r with lost := r.lost + 1, lastSwitch := f.be } s
  else if f.be = stRetryBusy then
    putRequest { r with busy := r.busy + 1, counted := r.counted - 1,
                        busyUntil := some (s.clock + backoff (r.busy + 1)) } s
  else if 0x12 ≤ f.be.toNat then (if r.kind = .load then endRequest r stMalformed [] s else s)
  else endRequest r f.be f.data s

/-- A response arrives at its requester (R102, R108, R355). -/
def responseArrives (f : Frame) (s : State) : State :=
  let s := takeArrivedAny f s
  match findRequest f s with
  | none => s
  | some r =>
    match authenticateRsp f r s with
    | .stale => dropStale s
    | .tag => dropTag s
    | .pass => takeResponse f r s

/-- LOAD_RSP (R108, R134, R355, R441). -/
def execLoadRsp (f : Frame) (s : State) : Host.Outcome State Fault Refusal :=
  act s (whenTrue (decide (f.ty = tyLoadRsp)) (responseArrives f))

/-- BULK_ACK: as a STORE_ACK (R90). -/
def execBulkAck (f : Frame) (s : State) : Host.Outcome State Fault Refusal :=
  act s (whenTrue (decide (f.ty = tyBulkAck)) (responseArrives f))

/-- ATOMIC_RSP (R106, R108, R134, R355, R441). -/
def execAtomicRsp (f : Frame) (s : State) : Host.Outcome State Fault Refusal :=
  act s (whenTrue (decide (f.ty = tyAtomicRsp)) (responseArrives f))

/-- FLAGGED_STORE_RELEASE: the first held flagged request of a requester goes once everything ahead of it was answered
with OK (R72, R105). -/
def execFlaggedStoreRelease (who : Requester) (s : State) : Host.Outcome State Fault Refusal :=
  act s (fun s =>
    match s.req.reqs.find? (fun x => decide (x.who = who) && x.sentAt.isNone && heldKind x) with
    | some r => cancelHeld who (trySend r s)
    | none => s)

/-! ### The timeline (R133, R134) -/

/-- The sent request of a requester with a sequence. -/
def findSent (who : Requester) (seq : Seq) (s : State) : Option Request :=
  s.req.reqs.find? (fun r => r.sentAt.isSome && decide (r.who = who ∧ r.frame.seq = seq))

/-- The last moment a copy may be sent: 1 ms after the first, 60 µs after a fence. -/
def lastCopyAt (r : Request) : Nat :=
  let t := (r.sentAt.getD 0) + 1000000
  match r.fencedAt with
  | some f => min t (f + 60000)
  | none => t

/-- The outcome of a timeline that ends without a binding response. -/
def timelineEnd (r : Request) : Byte :=
  if r.busy = r.copies then stRetryBusy
  else if r.lost = r.copies then r.lastSwitch
  else if r.kind = .load then stUnreachable else stUnknown

/-- No further copy will be sent. -/
def noMoreCopies (r : Request) (s : State) : Bool :=
  match r.busyUntil with
  | some t => decide (lastCopyAt r < t ∨ lastCopyAt r < s.clock)
  | none => decide (4 ≤ r.counted ∨ lastCopyAt r < r.lastSent + 20000 ∨ lastCopyAt r < s.clock)

/-- REQUEST_RETRY_TIMEOUT: the next copy, 20 µs after the last (R133). -/
def execRequestRetryTimeout (who : Requester) (seq : BitVec 24) (s : State) : Host.Outcome State Fault Refusal :=
  act s (fun s =>
    match findSent who seq s with
    | some r =>
      if r.busyUntil.isNone && decide (r.counted < 4) && due (r.lastSent + 20000) s &&
          decide (s.clock ≤ lastCopyAt r) then sendCopy r s
      else s
    | none => s)

/-- REQUEST_FINAL_TIMEOUT: 40 µs after the last copy (R106, R108, R133, R134, R137). -/
def execRequestFinalTimeout (who : Requester) (seq : BitVec 24) (s : State) : Host.Outcome State Fault Refusal :=
  act s (fun s =>
    match findSent who seq s with
    | some r => if noMoreCopies r s && due (r.lastSent + 40000) s then endRequest r (timelineEnd r) [] s else s
    | none => s)

/-- RETRY_BUSY_BACKOFF: the copy after a back-off (R134). -/
def execRetryBusyBackoff (who : Requester) (seq : BitVec 24) (s : State) : Host.Outcome State Fault Refusal :=
  act s (fun s =>
    match findSent who seq s with
    | some r =>
      match r.busyUntil with
      | some t => if due t s && decide (s.clock ≤ lastCopyAt r) then sendCopy r s else s
      | none => s
    | none => s)

/-- FENCE_REQUEST_DEADLINE: 100 µs after a fence (R134, R137). -/
def execFenceRequestDeadline (who : Requester) (seq : BitVec 24) (s : State) : Host.Outcome State Fault Refusal :=
  act s (fun s =>
    match findSent who seq s with
    | some r =>
      match r.fencedAt with
      | some t => if due (t + 100000) s then endRequest r (timelineEnd r) [] s else s
      | none => s
    | none => s)

/-! ### Settlement (R137 to R141) -/

/-- The settlement of a requester's sequence. -/
def findSettling (who : Requester) (seq : Seq) (s : State) : Option Settlement :=
  s.req.settling.find? (fun x => decide (x.who = who ∧ x.frame.seq = seq))

/-- A settlement is over: its record waits for the ring (R140). While 4,096 wait, nothing is settled (R141). -/
def settle (x : Settlement) (outcome result : Nat) (s : State) : State :=
  if 4096 ≤ s.req.records.length then s
  else
    let rec_ : BitVec 256 := BitVec.ofNat 256 (streamOf x.who + x.descIndex.toNat * 2 ^ 16 +
      x.frame.dst.toNat * 2 ^ 32 + x.frame.seq.toNat * 2 ^ 48 + outcome * 2 ^ 72 + x.frame.ty.toNat * 2 ^ 88 +
      (result % 2 ^ 128) * 2 ^ 128)
    { s with req.settling := eraseFirst (fun y => decide (y = x)) s.req.settling,
             req.records := s.req.records ++ [rec_] }

/-- STATUS_QUERY_RETRY: another query every 100 µs, none after t0 + 2.4 ms (R137). -/
def execStatusQueryRetry (who : Requester) (seq : BitVec 24) (s : State) : Host.Outcome State Fault Refusal :=
  act s (fun s =>
    match findSettling who seq s with
    | some x =>
      if due (x.lastQuery + 100000) s && decide (s.clock ≤ x.t0 + 2400000) then
        let asked := fun (y : Settlement) => { y with lastQuery := s.clock }
        sendQuery x { s with req.settling := updFirst (fun y => decide (y = x)) asked s.req.settling }
      else s
    | none => s)

/-- What a STATUS_RSP says of its request (R139). -/
def statusAnswer (x : Settlement) (f : Frame) (s : State) : State :=
  let st := (slotByte (f.data.headD 0) 0).toNat
  let result := (f.data.headD 0).toNat / 2 ^ 128
  if f.be ≠ stOk ∧ f.be ≠ stReleased then s
  else if st = 1 then settle x (if f.be = stReleased then 2 else 1) result s
  else if st = 0 then settle x 0 0 s
  else if st = 2 then settle x (if s.clock ≤ x.t0 + 2500000 then 0 else 3) 0 s
  else if st = 3 then settle x 3 0 s else s

/-- STATUS_RSP (R139). -/
def execStatusRsp (f : Frame) (s : State) : Host.Outcome State Fault Refusal :=
  act s (whenTrue (decide (f.ty = tyStatusRsp)) (fun s =>
    let s := takeArrivedAny f s
    match s.req.settling.find? (fun x => decide (streamOf x.who = f.stream.toNat ∧ x.frame.seq = f.seq ∧
        x.frame.dst = f.src)) with
    | some x => statusAnswer x f s
    | none => s))

/-- SETTLEMENT_DEADLINE: at t0 + 2.5 ms the outcome is UNSETTLED (R139). -/
def execSettlementDeadline (who : Requester) (seq : BitVec 24) (s : State) : Host.Outcome State Fault Refusal :=
  act s (fun s =>
    match findSettling who seq s with
    | some x => if due (x.t0 + 2500000) s then settle x 3 0 s else s
    | none => s)

/-- A held stream's settlement begins when records no longer fill the part (R141). -/
def releaseSettle (s : State) : State :=
  match s.req.held with
  | [] => s
  | x :: t =>
    if 4096 ≤ s.req.records.length then s
    else
      let s := { s with req.held := t, req.settling := s.req.settling ++ [{ x with lastQuery := s.clock }] }
      if s.clock ≤ x.t0 + 2400000 then sendQuery x s else s

/-- SETTLEMENT_RECORD_POST: the oldest record goes to the ring if it may (R140, R141, R369, R374). -/
def execSettlementRecordPost (s : State) : Host.Outcome State Fault Refusal :=
  act s (fun s =>
    match s.req.records with
    | [] => s
    | r :: t =>
      if evRingReady rSettleRing rSettlePtrs 32 s then
        let phase := bit1 (decide (s.req.settlePass % 2 = 0))
        let (wrapped, s) := evRingWrite rSettleRing rSettlePtrs (bytesOfNat 32 (r.toNat + phase * 2 ^ 87)) s
        releaseSettle (setFlag rLedgerStatus 0 <| bump 0x1950028 1
          { s with req.records := t, req.settlePass := s.req.settlePass + bit1 wrapped })
      else s)

/-! ### The host bridge (R36, R37, R112, R113, R371) -/

/-- The window whose committed decoder holds a host physical address (R36). -/
def windowOf (hpa : Nat) (s : State) : Option (Fin 4 × Decoder) :=
  ((List.finRange 4).map (fun w => (w, tblGet decoder0 s.host.decoders w.val))).find? (fun e =>
    e.2.committed && decide (e.2.base.toNat ≤ hpa ∧ hpa < e.2.base.toNat + e.2.size.toNat))

/-- FA_BASE and PARTITION of a window, and the FA of an address in it (R36). -/
def winBase (w : Nat) (s : State) : Nat := getField (rHstWin w) 33 0 s * 2 ^ 30
def winPart (w : Nat) (s : State) : Byte := BitVec.ofNat 8 (getField (rHstWin w) 55 48 s)
def winFa (w : Nat) (d : Decoder) (hpa : Nat) (s : State) : Nat := winBase w s + (hpa - d.base.toNat)

/-- The status of a window access that sends nothing (R371). -/
def windowRefusal (w : Nat) (s : State) : Byte :=
  if !(isReady s) || !(getBit (rHstWin w) 63 s) then stUnreachable
  else if !(windowGranted (winPart w s) s) then stDenied else stOk

/-- One CXL.mem access through a window: refused at once, or a request on the window's stream (R94, R95, R352, R371). -/
def windowAccess (hpa : Nat) (write : Bool) (ty : BitVec 6) (build : Nat → Nat × Byte × List Slot) (s : State) :
    State :=
  if s.host.linkUp = false then s
  else
    match windowOf hpa s with
    | none => s
    | some (w, d) =>
      let fa := winFa w.val d hpa s
      let st := windowRefusal w.val s
      let s := prof bHST w.val (winPart w.val s).toNat evIn 1 s
      if st ≠ stOk then
        answerHost (BitVec.ofNat 64 hpa) write [] (!write)
          (logHost w.val write fa (BitVec.ofNat 24 (sentCount (0x200 + w.val) s)) st s)
      else
        let p := winPart w.val s
        let slot := if p = 0 then none else partSlot p s
        let (len, be, data) := build fa
        let at_ := if be = 0 then fa else fa / 256 * 256
        let f := requestFrame p (0x200 + w.val) ty at_ len be data slot.isSome s
        issue (newRequest (.window w) none (if write then .store else .load) f slot none 0
          (some (BitVec.ofNat 64 hpa))) s

/-- CXL_MEM_READ: one host line (R24, R36, R37, R112, R113, R371, R372). -/
def execCxlMemRead (hpa : Word) (s : State) : Host.Outcome State Fault Refusal :=
  act s (windowAccess (hpa.toNat / 64 * 64) false tyLoad (fun _ => (2, 0, [])))

/-- The slots and the mask of a host line's write, placed in its fabric line (R95). -/
def hostWriteForm (data : BitVec 512) (mask : BitVec 64) (fa : Nat) : Nat × Byte × List Slot :=
  let lo : Slot := BitVec.ofNat 256 data.toNat
  let hi : Slot := BitVec.ofNat 256 (data.toNat / 2 ^ 256)
  if mask = BitVec.allOnes 64 then (2, 0, [lo, hi])
  else
    let k := fa % 256 / 32
    (3, BitVec.ofNat 8 (3 * 2 ^ k), [lo, hi, BitVec.ofNat 256 (mask.toNat * 2 ^ (32 * k))])

/-- CXL_MEM_WRITE: one host line, whole or in part (R24, R36, R37, R94, R112, R113, R371, R372). -/
def execCxlMemWrite (hpa : Word) (data : BitVec 512) (mask : BitVec 64) (s : State) :
    Host.Outcome State Fault Refusal :=
  act s (windowAccess (hpa.toNat / 64 * 64) true tyStore (hostWriteForm data mask))

end Sys2Proof.Machine
end

