-- ==== Sys2Proof/Machine/Porter.lean ====
section
/-! DEFINITION. Queues and the porter commands: configuration, doorbells, fetching, starting and moving data, WAIT,
completion, fencing (R58 to R89, R443). -/
namespace Sys2Proof.Machine

/-! ### Configuration and control (R60 to R64) -/

/-- A configuration write is refused: CFG_BAD (R60). -/
def cfgBad (q : Nat) (s : State) : State := refuse bPOR (rQstate q) 56 s

/-- The fields of a register. -/
def regFields (o : Nat) : List FieldDesc :=
  match regDesc o with
  | some d => d.fields
  | none => []

/-- What a write would leave in a register without locked fields. -/
def written (o : Nat) (v : Word) (s : State) : Word := accessWrite (regFields o) false (getReg o s) v

/-- A COLL_START or ROUTE_RUN of the queue is still in flight (R60, R443). -/
def inFlightWork (q : Nat) (s : State) : Bool :=
  (getQ q s).fetched.any (fun d => d.started && d.status.isNone && decide (dOp d.raw = opColl ∨ dOp d.raw = opRoute))

/-- The conditions under which a write may set ENABLE (R60 to R62). -/
def enableOk (q : Nat) (v : Word) (s : State) : Bool :=
  let p : Byte := BitVec.ofNat 8 (wfield v 55 48)
  partitionActive p s && decide (wfield v 35 34 ≠ 3) && decide (wfield v 33 32 < 2) &&
    (decide (wfield v 35 34 ≠ 0) || decide (wfield v 47 40 ≠ 0)) &&
    ringAllowed p (getReg (rQring q) s) (64 * descEntries q s) s &&
    ringAllowed p (getReg (rQcmpl q) s) (16 * cmplEntries q s) s

/-- A write to POR_QCFG (R60). -/
def writeQcfg (q : Nat) (v : Word) (s : State) : State :=
  let o := rQcfg q
  let new := written o v s
  let old := getReg o s
  let others := ~~~(placeBit 63 true)
  if wbit old 63 then
    if new &&& others ≠ old &&& others then cfgBad q s
    else if wbit v 63 then s
    else
      let st := (getQ q s).st
      if st = .idle ∨ (st = .fenced ∧ inFlightWork q s = false) then putReg o new s else cfgBad q s
  else if wbit v 63 then (if enableOk q new s then putReg o new s else cfgBad q s)
  else putReg o new s

/-- A write to POR_QRING, POR_QCMPL or POR_QMEMDB: while ENABLE is 1 one that would change a field is ignored (R60). -/
def writeQreg (q o : Nat) (v : Word) (s : State) : State :=
  if qEnabled q s ∧ written o v s ≠ getReg o s then cfgBad q s else putReg o (written o v s) s

/-- A POR_QCTL action that is reserved or not valid now (R64). -/
def ctlBad (q : Nat) (s : State) : State := refuse bPOR (rQstate q) 58 s

/-- A write to POR_QCTL (R64, R82, R83, R86, R443). A RESTART in ERROR while a FENCE of the queue has not ended is refused
(log entry 75). -/
def writeQctl (q : Fin 512) (v : Word) (s : State) : State :=
  let k := getQ q.val s
  match wfield v 2 0 with
  | 1 =>
    if k.st = .fenced then ctlBad q.val s
    else if k.fencing.isSome then s else beginFence q s
  | 2 =>
    if (k.st = .fenced ∨ k.st = .error) ∧ k.fencing = none ∧ partitionActive (qPart q.val s) s = true then
      runOrIdle q.val s
    else ctlBad q.val s
  | 3 =>
    if (k.st = .idle ∨ k.st = .fenced) ∧ qEnabled q.val s = false then
      putQ q.val { k with producer := 0, consumer := 0, cmplCount := 0, cmplHead := 0, fetched := [],
                          refusedDb := [] } s
    else ctlBad q.val s
  | _ => ctlBad q.val s

/-- QCFG_WRITE (R58 to R62). -/
def execQcfgWrite (side : Side) (q : Fin 512) (val : Word) (s : State) : Host.Outcome State Fault Refusal :=
  act s (fun s => guarded side bPOR false .ary s (writeQcfg q.val val))

/-- FENCE (R64, R82, R83, R85, R86, R443). -/
def execFence (side : Side) (q : Fin 512) (s : State) : Host.Outcome State Fault Refusal :=
  act s (fun s => guarded side bPOR false .ary s (writeQctl q 1))

/-- RESTART (R64, R82, R83, R86, R443). -/
def execRestart (side : Side) (q : Fin 512) (s : State) : Host.Outcome State Fault Refusal :=
  act s (fun s => guarded side bPOR false .ary s (writeQctl q 2))

/-- RESET_PTRS (R64). -/
def execResetPtrs (side : Side) (q : Fin 512) (s : State) : Host.Outcome State Fault Refusal :=
  act s (fun s => guarded side bPOR false .ary s (writeQctl q 3))

/-- QUEUE_FENCED: everything the queue had sent has its final outcome (R82, R86). -/
def execQueueFenced (q : Fin 512) (s : State) : Host.Outcome State Fault Refusal :=
  act s (fun s =>
    if (getQ q.val s).fencing.isSome = true ∧ (sentReqs q.val s).isEmpty = true then enterFenced q.val s else s)

/-! ### Doorbells (R65 to R67) -/

/-- A BAR2 write that is no producer count: dropped before READY, counted while the array domain is in reset (R373,
R434, R437). -/
def bar2Write (s : State) (f : State → State) : State :=
  if !(isReady s) then refuseEarly s
  else if inReset .ary s then blockEvent bPOR s else f s

/-- The part refuses a producer count (R66). -/
def doorbellBad (q : Nat) (new : BitVec 32) (s : State) : Bool :=
  let v := getQ q s
  !(qEnabled q s) || decide (2 ^ 31 ≤ (new - v.producer).toNat) ||
    decide (descEntries q s < (new - v.consumer).toNat)

/-- A producer count is accepted: an IDLE queue with work runs (R66, R82, R88). -/
def acceptDoorbell (q : Nat) (new : BitVec 32) (s : State) : State :=
  let k := getQ q s
  let later := fun (e : BitVec 32 × Nat) => decide ((e.1 - k.consumer).toNat - 1 < 2 ^ 31 ∧ e.1 ≠ k.consumer)
  let v := { k with producer := new, dbTimes := k.dbTimes.filter later ++ [(new, s.clock)] }
  let s := putQ q v s
  if v.st = .idle ∧ new ≠ v.consumer ∧ inReset .ary s = false then enterRunning q s else s

/-- A write of the doorbell page is refused: DB_BAD, which a domain in reset does not hold (R66, R438). -/
def refuseDoorbell (q : Nat) (s : State) : State :=
  if inReset .ary s then blockEvent bPOR s else refuse bPOR (rQstate q) 57 s

/-- A write to POR_DB (R65, R66). -/
def writeDoorbell (q : Nat) (full : Bool) (val : Word) (s : State) : State :=
  let new : BitVec 32 := val.setWidth 32
  if !full then refuseDoorbell q s
  else if qDbMode q s = 1 ∨ doorbellBad q new s = true then refuseDoorbell q s
  else acceptDoorbell q new s

/-- DOORBELL_WRITE, which the part also accepts while the array domain is in reset (R65, R66, R82, R83, R88, R387,
R434). -/
def execDoorbellWrite (q : Fin 512) (full : Bool) (val : Word) (s : State) : Host.Outcome State Fault Refusal :=
  act s (fun s => if isReady s then writeDoorbell q.val full val s else refuseEarly s)

/-- A write to POR_DB_CMPL (R65, R80). -/
def writeCmplHead (q : Nat) (full : Bool) (val : Word) (s : State) : State :=
  if full then putQ q { getQ q s with cmplHead := val.setWidth 32 } s else refuse bPOR (rQstate q) 57 s

/-- What an aligned 64-bit read of the doorbell page gives: POR_DB, POR_DB_CMPL, POR_DB_STATUS, zero elsewhere (R65,
R434). -/
def readDoorbell (q off : Nat) (s : State) : Word :=
  let v := getQ q s
  if off = 0x000 then v.producer.setWidth 64
  else if off = 0x008 then v.cmplHead.setWidth 64
  else if off = 0x010 then place 63 61 (QState.code v.st) ||| v.consumer.setWidth 64
  else 0

/-- CMPL_HEAD_WRITE (R65, R80). -/
def execCmplHeadWrite (q : Fin 512) (full : Bool) (val : Word) (s : State) : Host.Outcome State Fault Refusal :=
  act s (fun s => bar2Write s (writeCmplHead q.val full val))

/-- The poll interval 250 ns × 2^POLL_EXP. -/
def pollInterval (e : Nat) : Nat := 250 * 2 ^ e

/-- An interval has passed since an earlier moment, if there was one. -/
def pollDue (last : Option Nat) (e : Nat) (s : State) : Bool :=
  match last with
  | some t => due (t + pollInterval e) s
  | none => true

/-- The count in a queue's doorbell word (R67). -/
def memoryCount (q : Nat) (s : State) : BitVec 32 :=
  BitVec.ofNat 32 (readNat s (getField (rQmemdb q) 47 3 s * 8) 4)

/-- MEMORY_DOORBELL_POLL: the doorbell word as a write to POR_DB; a refused value counts once (R66, R67). -/
def execMemoryDoorbellPoll (q : Fin 512) (s : State) : Host.Outcome State Fault Refusal :=
  act s (fun s =>
    let v := getQ q.val s
    if qEnabled q.val s && decide (qDbMode q.val s = 1) && !(inReset .ary s) &&
        pollDue v.lastPoll (getField (rQmemdb q.val) 55 52 s) s then
      let new := memoryCount q.val s
      let s := putQ q.val { v with lastPoll := some s.clock } s
      if !(doorbellBad q.val new s) then acceptDoorbell q.val new s
      else if v.refusedDb.contains new then s
      else refuse bPOR (rQstate q.val) 57
        (putQ q.val { getQ q.val s with refusedDb := v.refusedDb ++ [new] } s)
    else s)

/-! ### Fetching (R84, R374) -/

/-- A queue's engine works: RUNNING, no fence begun, its engine out of reset. -/
def working (q : Nat) (s : State) : Bool :=
  decide ((getQ q s).st = .running) && (getQ q s).fencing.isNone && !(inReset .ary s)

/-- How many descriptors a queue may fetch now: what its ring holds, within its run-ahead (R84). -/
def fetchRoom (q : Nat) (s : State) : Nat :=
  let v := getQ q s
  let ahead := (v.fetched.filter (fun d => !d.started)).length
  let limit := if qEngine q s = engPorter then 64 else 8
  min ((v.producer - v.consumer).toNat - v.fetched.length) (limit - ahead)

/-- The first `count` descriptors after CONSUMER that are not fetched, as indices: those behind what is fetched, and any
that a discard took out ahead of one that had started (R85, R443). -/
def toFetch (q : Nat) (s : State) : List (BitVec 32) :=
  let v := getQ q s
  let count := fetchRoom q s
  (((List.range (v.fetched.length + count)).map (fun i => v.consumer + BitVec.ofNat 32 i)).filter (fun i =>
    !(v.fetched.any (fun d => decide (d.index = i))))).take count

/-- Fetches descriptors: from this part's memory, or the given ones from host memory, in ring order (R60, R84, R85). -/
def fetchDescs (q : Nat) (host : List Descriptor) (s : State) : State :=
  let v := getQ q s
  let w := getReg (rQring q) s
  let n := descEntries q s
  let next := toFetch q s
  let raws := if ringLocal w then
      next.map (fun i => BitVec.ofNat 512 (readNat s (ringBase w + 64 * (i.toNat % n)) 64))
    else host.take next.length
  let s := prof bPOR q (qPart q s).toNat evIn raws.length s
  let new := (next.zip raws).map (fun x => freshDesc x.1 x.2)
  putQ q { v with fetched := sortBy (fun d => (d.index - v.consumer).toNat) (v.fetched ++ new) } s

/-- DESCRIPTOR_FETCH (R84, R111, R374). -/
def execDescriptorFetch (q : Fin 512) (host : List (BitVec 512)) (s : State) : Host.Outcome State Fault Refusal :=
  act s (fun s =>
    let w := getReg (rQring q.val) s
    if working q.val s && ringReachable w s && ringAllowed (qPart q.val s) w (64 * descEntries q.val s) s then
      fetchDescs q.val host s
    else s)

/-! ### Starting a descriptor (R69, R70, R84) -/

/-- The next descriptor to start, if it is committed and its queue works. -/
def nextToStart (q : Nat) (s : State) : Option DescEx :=
  match (getQ q s).fetched.find? (fun d => !d.started) with
  | some d => if working q s && committed q d s then some d else none
  | none => none

/-- A descriptor has started. -/
def markStarted (q : Nat) (d : DescEx) (s : State) : State :=
  updDesc q d.index (fun e => { e with started := true, beganAt := s.clock }) s

/-- A descriptor completes with a status as soon as it starts. -/
def startDone (q : Nat) (d : DescEx) (st : Byte) (s : State) : State :=
  finishDesc q d.index st 0 (markStarted q d s)

/-- Starts the next descriptor of a queue: a tenant's is refused while the part is OUT_OF_SERVICE (R391), a failed check
of R70 decides its status; a command of another opcode waits for its own row. -/
def startCommand (q : Fin 512) (op : Nat) (f : DescEx → State → State) (s : State) : State :=
  match nextToStart q.val s with
  | none => s
  | some d =>
    let st := if s.power.oos = true ∧ qPart q.val s ≠ 0 then stOos
      else checkDesc (qEngine q.val s) (qPart q.val s) d.raw
    if st ≠ stOk then startDone q.val d st s
    else if dOp d.raw = op then f d s else s

/-- NOP (R69, R70). -/
def execNop (q : Fin 512) (s : State) : Host.Outcome State Fault Refusal :=
  act s (startCommand q opNop (fun d s => startDone q.val d stOk s))

/-- Two ranges of one length overlap (R72). -/
def rangesOverlap (a b n : Nat) : Bool := decide (a < b + n ∧ b < a + n)

/-- COPY: overlapping ranges are MALFORMED; otherwise REQUEST_ISSUE moves the bytes (R71, R72). -/
def execCopy (q : Fin 512) (s : State) : Host.Outcome State Fault Refusal :=
  act s (startCommand q opCopy (fun d s =>
    if rangesOverlap (dfield d.raw 8 8) (dfield d.raw 16 8) (dfield d.raw 24 8) then startDone q.val d stMalformed s
    else markStarted q.val d s))

/-- GATHER (R73). -/
def execGather (q : Fin 512) (s : State) : Host.Outcome State Fault Refusal :=
  act s (startCommand q opGather (fun d s => markStarted q.val d s))

/-- SCATTER (R73). -/
def execScatter (q : Fin 512) (s : State) : Host.Outcome State Fault Refusal :=
  act s (startCommand q opScatter (fun d s => markStarted q.val d s))

/-- FILL (R71). -/
def execFill (q : Fin 512) (s : State) : Host.Outcome State Fault Refusal :=
  act s (startCommand q opFill (fun d s => markStarted q.val d s))

/-- SIGNAL (R71, R72). -/
def execSignal (q : Fin 512) (s : State) : Host.Outcome State Fault Refusal :=
  act s (startCommand q opSignal (fun d s => markStarted q.val d s))

/-- WAIT (R76). -/
def execWait (q : Fin 512) (s : State) : Host.Outcome State Fault Refusal :=
  act s (startCommand q opWait (fun d s => markStarted q.val d s))

/-- The walk of one page for PREFETCH: a page that faults is skipped (R53). -/
def prefetchPage (p : Byte) (page : Nat) (s : State) : State :=
  match withdrawing p page s with
  | some true => s
  | _ =>
    match walkTables p (page * 2 ^ 30) s with
    | .leaf big w _ => cacheLeaf p (page * 2 ^ 30) big w s
    | .fault _ _ => s

/-- PREFETCH (R53, R74). -/
def execPrefetch (q : Fin 512) (s : State) : Host.Outcome State Fault Refusal :=
  act s (startCommand q opPrefetch (fun d s =>
    let p := qPart q.val s
    let first := dfield d.raw 8 8 / 2 ^ 30
    let s := if p = 0 then s else
      (List.range (dfield d.raw 16 4)).foldl (fun s i => prefetchPage p (first + i) s) s
    startDone q.val d stOk s))

/-- ADVISE (R55, R74). -/
def execAdvise (q : Fin 512) (s : State) : Host.Outcome State Fault Refusal :=
  act s (startCommand q opAdvise (fun d s =>
    startDone q.val d stOk
      (giveAdvice (qPart q.val s) (dfield d.raw 8 8 / 2 ^ 30) (dfield d.raw 16 4) (dfield d.raw 20 1) s)))

/-- The hand-over permit a REKEY runs under covers its source (R75, R357). -/
def rekeyPermitted (raw : Descriptor) (s : State) : Bool :=
  let src := dfield raw 8 8
  let len := dfield raw 24 8
  s.tenant.permits.any (fun x =>
    decide (x.number.toNat = dfield raw 34 2 ∧ x.kind = 1 ∧ x.grantor.toNat = dfield raw 32 1 ∧
      x.grantee.toNat = dfield raw 33 1 ∧ src / 2 ^ 48 = (selfEid 0 s).toNat ∧
      x.first * pageSize ≤ src % 2 ^ 48 ∧ src % 2 ^ 48 + len ≤ (x.first + x.count) * pageSize))

/-- REKEY: DENIED without a permit; otherwise REQUEST_ISSUE moves the lines (R75, R357). -/
def execRekey (q : Fin 512) (s : State) : Host.Outcome State Fault Refusal :=
  act s (startCommand q opRekey (fun d s =>
    if rekeyPermitted d.raw s then markStarted q.val d s else startDone q.val d stDenied s))

/-! ### Moving data (R58, R71 to R76, R94, R95) -/

/-- Where an access of a descriptor goes: its FA, partition, sealing slot and page. -/
structure Target where
  fa : Nat
  part : Byte
  slot : Option Nat
  page : Option (Byte × Nat)
  deriving DecidableEq, Repr

/-- What an address gives an access. -/
inductive Place3 where
  | at_ (t : Target)
  | malformed
  | miss
  deriving DecidableEq, Repr

/-- The slot that seals a partition's own frames (R352). -/
def ownSlot (p : Byte) (s : State) : Option Nat := if p = 0 then none else partSlot p s

/-- An address used as an FA under a partition (R58, R75). -/
def directPlace (p : Byte) (a : Nat) (s : State) : Place3 := .at_ ⟨a % 2 ^ 64, p, ownSlot p s, none⟩

/-- An FVA of a partition, by the cached leaf and its KEY_POLICY (R28, R31, R35, R352). -/
def fvaPlace (p : Byte) (a : Nat) (k : Access) (s : State) : Place3 :=
  if p = 0 then directPlace 0 a s
  else
    match translate p a k s with
    | .malformed => .malformed
    | .miss => .miss
    | .fa x leaf =>
      let slot := if leafPolicy leaf = 1 then none
        else if leafPolicy leaf = 2 then some (leafSlot leaf) else ownSlot p s
      .at_ ⟨x, p, slot, some (p, a / 2 ^ 30)⟩

/-- The place of a descriptor's access: REKEY and MIGRATE name FAs (R54, R75), the others what their queue's partition
makes of them. -/
def placeFor (q : Nat) (d : DescEx) (write : Bool) (a : Nat) (k : Access) (s : State) : Place3 :=
  if dOp d.raw = opRekey then
    directPlace (BitVec.ofNat 8 (dfield d.raw (if write then 33 else 32) 1)) a s
  else if dOp d.raw = opMigrate then directPlace (qPart q s) a s
  else fvaPlace (qPart q s) a k s

/-- The use of a cached leaf counts for replacement (R34). -/
def useLeaf (t : Target) (s : State) : State :=
  match t.page with
  | some (p, g) => cacheTouch p (g * 2 ^ 30) s
  | none => s

/-- The earliest failed store of the queue's incomplete descriptors up to this one (R106). -/
def failAhead (q : Nat) (d : DescEx) (s : State) : Option (Nat × Byte) :=
  ((getQ q s).fetched.takeWhile (fun e => decide (e.index ≠ d.index))).foldl
    (fun b e => earlierOf b e.failStore) none

/-- Sends a descriptor's request and notes what it moved; a request that R104, R107 or R135 holds stays unsent, one
held under R105 is taken up. -/
def sendDesc (q : Fin 512) (d : DescEx) (kind : ReqKind) (f : Frame) (t : Target) (n : Nat) (note : DescEx → DescEx)
    (s : State) : State :=
  let r := { newRequest (.queue q) (some d.index) kind f t.slot t.page n none with
    order := s.req.nextOrder, earlier := if kind = .flagged ∨ kind = .atomic then failAhead q.val d s else none }
  let s := useLeaf t s
  if ivHeld r s then setFlag rSecStatus 5 s
  else if heldKind r then cancelHeld (.queue q) (trySend r (takeUp r (updDesc q.val d.index note s)))
  else if maySend r s then trySend r (takeUp r (updDesc q.val d.index note s))
  else s

/-- A descriptor whose address is malformed fails (R25). -/
def placeFails (q : Nat) (d : DescEx) (s : State) : State := updDesc q d.index (failDesc stMalformed) s

/-- Bytes left in the 1 GiB page of an address (R93). -/
def pageRoom (a : Nat) : Nat := 2 ^ 30 - a % 2 ^ 30

/-- Issues a read of up to `n` bytes of a descriptor (R94). -/
def issueRead (q : Fin 512) (d : DescEx) (a n : Nat) (list : Bool) (s : State) : State :=
  match placeFor q.val d false a .r s with
  | .malformed => placeFails q.val d s
  | .miss => s
  | .at_ t =>
    let n := min n (min (2048 - a % 32) (pageRoom a))
    let f := requestFrame t.part q.val tyLoad (t.fa / 32 * 32) (slotSpan a n) 0 [] t.slot.isSome s
    sendDesc q d .load f t n (fun e => { e with readWait := true, readList := list, readSkip := a % 32, readLen := n,
                                                lastPoll := some s.clock }) s

/-- The form of a store of some bytes at an address: how many go, LENGTH, the summary, the offset's alignment and the
slots (R94, R95). -/
def storeForm (a : Nat) (bs : List Byte) : Nat × Nat × Byte × Nat × List Slot :=
  if a % 32 = 0 ∧ 32 ≤ bs.length then
    let k := min (min (bs.length / 32) 64) (pageRoom a / 32)
    (32 * k, k, 0, 32, slotsOfBytes k (bs.take (32 * k)))
  else
    let n := min bs.length (256 - a % 256)
    let m := maskedData a (bs.take n)
    (n, m.2.length, m.1, 256, m.2)

/-- A descriptor notes `n` bytes sent: its cursor, its data and its list entry move on (R73, R86, R87). -/
def noteWrite (n : Nat) (d : DescEx) : DescEx :=
  let list := decide (dOp d.raw = opGather ∨ dOp d.raw = opScatter)
  { d with issued := d.issued + n, buf := d.buf.drop n, wrote := true,
           entryFva := if list then d.entryFva + n else d.entryFva,
           entryLeft := if list then d.entryLeft - n else d.entryLeft }

/-- Issues a store of some bytes of a descriptor. -/
def issueWrite (q : Fin 512) (d : DescEx) (a : Nat) (bs : List Byte) (flagged : Bool) (s : State) : State :=
  match placeFor q.val d true a .w s with
  | .malformed => placeFails q.val d s
  | .miss => s
  | .at_ t =>
    let (n, len, be, al, data) := storeForm a bs
    let f := requestFrame t.part q.val (if flagged then tyFlagged else tyStore) (t.fa / al * al) len be data
      t.slot.isSome s
    sendDesc q d (if flagged then .flagged else .store) f t n (noteWrite n) s

/-- The 64-bit atomic add of a SIGNAL (R71, R121). -/
def issueAdd (q : Fin 512) (d : DescEx) (a v : Nat) (s : State) : State :=
  match placeFor q.val d true a .a s with
  | .malformed => placeFails q.val d s
  | .miss => s
  | .at_ t =>
    let f := requestFrame t.part q.val tyAtomic t.fa 1 0 [BitVec.ofNat 256 (1 + 3 * 2 ^ 8 + v * 2 ^ 128)]
      t.slot.isSome s
    sendDesc q d .atomic f t 8 (noteWrite 8) s

/-- The bytes of a FILL at an address (R71). -/
def fillBytes (pattern a n : Nat) : List Byte :=
  (List.range n).map (fun i => BitVec.ofNat 8 (pattern / 2 ^ (8 * ((a + i) % 8))))

/-- How much of `n` bytes for a destination goes out now: up to its last line boundary, or all where they are the rest of
what is to be written (R72). -/
def wholeLines (dst n left : Nat) : Nat := if n = left then n else n - min n ((dst + n) % 256)

/-- A copy's next piece: what was read is written, once it fills a line of the destination or is the rest; else more is
read behind it. Every line of the destination therefore takes its bytes from what was read before any of them was
written (R72). -/
def copyPiece (q : Fin 512) (d : DescEx) (src dst left : Nat) (s : State) : State :=
  let n := wholeLines dst d.buf.length left
  if n ≠ 0 then issueWrite q d dst (d.buf.take n) false s
  else if d.readWait then s
  else issueRead q d (src + d.buf.length) (min (left - d.buf.length) 2048) false s

/-- The next request of a started descriptor (R71 to R75). -/
def movePiece (q : Fin 512) (d : DescEx) (s : State) : State :=
  let f := dfield d.raw
  let op := dOp d.raw
  if op = opCopy ∨ op = opRekey then
    copyPiece q d (f 8 8 + d.issued) (f 16 8 + d.issued) (f 24 8 - d.issued) s
  else if op = opFill then
    let a := f 8 8 + d.issued
    issueWrite q d a (fillBytes (f 24 8) a (min (f 16 8 - d.issued) 2048)) false s
  else if op = opSignal then
    if f 24 1 = 1 then issueAdd q d (f 8 8) (f 16 8) s
    else issueWrite q d (f 8 8) (bytesOfNat 8 (f 16 8)) true s
  else if op = opGather ∨ op = opScatter then
    if d.readWait then s
    else if d.entryLeft = 0 then
      (if d.listPos < f 24 4 then issueRead q d (f 8 8 + 16 * d.listPos) 16 true s else s)
    else if op = opGather then copyPiece q d d.entryFva (f 16 8 + d.issued) d.entryLeft s
    else copyPiece q d (f 16 8 + d.issued) d.entryFva d.entryLeft s
  else s

/-- The copy of a MIGRATE under way (R54): it moves as a COPY of the whole page between two FAs. -/
def migrating (q : Fin 512) (s : State) : Option (Withdraw × DescEx) :=
  match s.xlt.withdraws.find? (fun w => w.copying && decide (w.queue = q)) with
  | some w => ((getQ q.val s).fetched.find? (fun d => decide (d.index = w.index) && d.status.isNone &&
      d.failed.isNone && decide (d.issued < w.count * 2 ^ 30))).map (fun d => (w, d))
  | none => none

/-- A queue's next request, whosever turn it is. -/
def queueIssue (q : Fin 512) (s : State) : State :=
  if !(working q.val s) then s
  else
    match migrating q s with
    | some (w, d) =>
      let new := BitVec.ofNat 64 (dfield d.raw 16 8)
      copyPiece q d (w.oldFa + d.issued) (leafEid new * 2 ^ 48 + leafFrame new * 2 ^ 30 + d.issued)
        (w.count * 2 ^ 30 - d.issued) s
    | none =>
      match workDesc q.val s with
      | some d => if d.started then movePiece q d s else s
      | none => s

/-- A queue would send a frame now. -/
def wouldSend (q : Fin 512) (s : State) : Bool :=
  decide ((queueIssue q s).sw.coreIn.length ≠ s.sw.coreIn.length)

/-- The turns a queue has in a round of its porter (R88). -/
def qWeight (q : Nat) (s : State) : Nat := max 1 (getField (rQcfg q) 39 36 s)

/-- The queues that share a queue's porter. -/
def porterMates (q : Fin 512) (s : State) : List (Fin 512) :=
  (List.finRange 512).filter (fun j => decide (j ≠ q ∧ (getQ j.val s).porter = (getQ q.val s).porter ∧
    (getQ j.val s).st = .running))

/-- A queue may take a turn of its porter: it has turns left in the round, or no other queue of the porter that has a
frame to send has any left, and a new round begins (R88). -/
def turnOpen (q : Fin 512) (s : State) : Bool :=
  decide ((getQ q.val s).turns < qWeight q.val s) ||
    (porterMates q s).all (fun j => decide (qWeight j.val s ≤ (getQ j.val s).turns) || !(wouldSend j s))

/-- A queue's turn counts in its round, or in the new round that it begins (R88). -/
def countPorterTurn (q : Fin 512) (s : State) : State :=
  if (getQ q.val s).turns < qWeight q.val s then
    putQ q.val { getQ q.val s with turns := (getQ q.val s).turns + 1 } s
  else
    let s := (porterMates q s).foldl (fun s j => putQ j.val { getQ j.val s with turns := 0 } s) s
    putQ q.val { getQ q.val s with turns := 1 } s

/-- REQUEST_ISSUE: a requester sends its next frame, a queue in its turn (R48, R88, R91 to R93, R104, R107, R111, R133,
R135, R136, R352 to R354). -/
def requestIssue (who : Requester) (s : State) : State :=
  match who with
  | .window w =>
    match s.req.reqs.find? (fun r => decide (r.who = .window w) && r.sentAt.isNone) with
    | some r => trySend r s
    | none => s
  | .queue q =>
    if !(wouldSend q s) then queueIssue q s
    else if turnOpen q s then queueIssue q (countPorterTurn q s)
    else s

/-! ### WAIT (R76) -/

/-- The WAIT a queue stands in. -/
def waiting (q : Nat) (s : State) : Option DescEx :=
  (getQ q s).fetched.find? (fun d => d.started && d.status.isNone && d.failed.isNone && decide (dOp d.raw = opWait))

/-- WAIT_POLL: the word is read once per poll interval (R76). -/
def execWaitPoll (q : Fin 512) (s : State) : Host.Outcome State Fault Refusal :=
  act s (fun s =>
    match waiting q.val s with
    | some d =>
      if working q.val s && !d.readWait && pollDue d.lastPoll (dfield d.raw 25 1) s then
        issueRead q d (dfield d.raw 8 8) 8 false s
      else s
    | none => s)

/-- WAIT_TIMEOUT: TIMEOUT µs after the WAIT began it completes with AGED; 0 never ends (R76). -/
def execWaitTimeout (q : Fin 512) (s : State) : Host.Outcome State Fault Refusal :=
  act s (fun s =>
    match waiting q.val s with
    | some d =>
      let t := dfield d.raw 28 4
      if t ≠ 0 ∧ due (d.beganAt + 1000 * t) s = true then
        updDesc q.val d.index (fun e => { e with status := some stAged, readWait := false }) s
      else s
    | none => s)

/-- DESCRIPTOR_COMPLETE (R79 to R82, R84, R369). -/
def execDescriptorComplete (q : Fin 512) (s : State) : Host.Outcome State Fault Refusal :=
  act s (completeHead q)

end Sys2Proof.Machine
end

