-- ==== Sys2Proof/Machine/RopeLoss.lean ====
section
/-! DEFINITION. The mismatch record of a rope pair, how a capture goes on, and what the loss of the rope port does to the
pair (R202 to R204). -/
namespace Sys2Proof.Machine

/-- The 1,088 bytes of the mismatch record (R203). -/
def ropeRecord (c : RopeCapture) (row col : Nat) (found : Bool) (localSig partnerSig : Nat) (regs : List Vec) :
    List Byte :=
  bytesOfNat 4 c.run ++ bytesOfNat 4 c.chunk ++ bytesOfNat 4 c.routeId.toNat ++
  bytesOfNat 1 row ++ bytesOfNat 1 col ++ bytesOfNat 1 (1 + 2 * bit1 found) ++ bytesOfNat 1 0 ++
  bytesOfNat 8 c.localCrc.toNat ++ bytesOfNat 8 c.partnerCrc.toNat ++
  bytesOfNat 4 localSig ++ bytesOfNat 4 partnerSig ++ bytesOfNat 24 0 ++
  ((List.range 64).map (fun i => bytesOfNat 16 (regs.getD i 0).toNat)).flatten

/-- A capture ends with its record: MISMATCH and RECORD_VALID are set, and work stays held only under
STOP_ON_MISMATCH (R202). -/
def ropeRecorded (rec : List Byte) (s : State) : State :=
  setFlag rRopeStatus 0
    { s with rope.record := rec, rope.recordValid := true, rope.capture := none, rope.armed := false,
             rope.held := getBit rRopeCfg 61 s }

/-- The 64 registers of a cell. -/
def cellRegs (cell : Nat) (s : State) : List Vec := (List.range 64).map (fun i => tblGet 0 s.array.regs (64 * cell + i))

/-- Once the current run has finished, a capture sends this part's 4,096 signatures; one whose exchange cannot complete
records what this part holds, with no cell found: the signature and the registers are those of cell (0, 0) (R202, R204). -/
def ropeCaptureGo (s : State) : State :=
  match s.rope.capture with
  | none => s
  | some c =>
    if s.array.current.isSome then s
    else if c.lost then ropeRecorded (ropeRecord c 0 0 false (cellSig 0 s) 0 (cellRegs 0 s)) s
    else if c.sent then s
    else
      ropeOut .signatures ((List.range 4096).map (fun i => bytesOfNat 4 (cellSig i s))).flatten
        { s with rope.capture := some { c with sent := true } }

/-- The pair dissolves: a shadow's run of its primary's route has nothing more to read and ends, and a capture in progress can
no longer complete its exchange. -/
def ropeUnpair (s : State) : State :=
  let s := if s.array.current = some .rope then { s with array.current := none, array.pipe := [], rope.run := none } else s
  ropeCaptureGo { s with rope.paired := false, rope.crcs := [], rope.shadowBytes := [],
                         rope.capture := s.rope.capture.map (fun c => { c with lost := true }) }

/-- The rope port has left ACTIVE: the pair dissolves with LINK_LOST (R203, R204). -/
def ropePortLeft (p : Nat) (s : State) : State :=
  if s.rope.paired = true ∧ getField rRopeCfg 53 48 s = p then ropeUnpair (setFlag rRopeStatus 1 s) else s

end Sys2Proof.Machine
end

