-- ==== Sys2Proof/Machine/Routes.lean ====
section
/-! DEFINITION. The route scheduler: the route image and its checks (R226, R237 to R241), ROUTE_RUN and ROUTE_PRELOAD
(R78, R243 to R251), the rooms of a run (R246), the choice and start of runs (R229 to R231), loads of the shadow plane
(R249, R252), the run limit (R227). -/
namespace Sys2Proof.Machine

/-! ### The route image (R237 to R241) -/

/-- Length of an image. -/
abbrev imageBytes : Nat := 0x141000

/-- The header's fields, by the image's offset at local index 0 (R239). -/
def hdMagic (a : Nat) (s : State) : Nat := readNat s a 4
def hdVersion (a : Nat) (s : State) : Nat := readNat s (a + 4) 2
def hdLoop (a : Nat) (s : State) : Nat := readNat s (a + 6) 1
def hdFlags (a : Nat) (s : State) : Nat := readNat s (a + 7) 1
def hdRouteId (a : Nat) (s : State) : Nat := readNat s (a + 8) 4
def hdPassBase (a : Nat) (s : State) : Nat := readNat s (a + 12) 4
def hdElems (a : Nat) (s : State) : Nat := readNat s (a + 16) 4
def hdCrc (a : Nat) (s : State) : Nat := readNat s (a + 24) 8

/-- A slot and a switch block of the image (R240). -/
def imageSlot (a cell i : Nat) (s : State) : Word := BitVec.ofNat 64 (readNat s (a + 4096 + 320 * cell + 8 * i) 8)

def imageSwitch (a cell : Nat) (s : State) : BitVec 512 := BitVec.ofNat 512 (readNat s (a + 4096 + 320 * cell + 256) 64)

/-- The leaf of an address that a partition names, as the cache or the tables have it now. -/
def leafNow (p : Byte) (a : Nat) (s : State) : Option (Bool × Word) :=
  match cacheFind p a s with
  | some e => some (e.big, e.leaf)
  | none => match walkTables p a s with
    | .leaf big w _ => some (big, w)
    | .fault _ _ => none

/-- The size of the page an address lies in (R28, R31): 1 GiB for an FA of partition 0. -/
def spanAt (p : Byte) (a : Nat) (s : State) : Nat :=
  if p ≠ 0 ∧ ((leafNow p a s).map (·.1)).getD false = true then 2 ^ 35 else pageSize

/-- Bytes from an address lie in one page. -/
def inOnePage (p : Byte) (a n : Nat) (s : State) : Bool := decide (a % spanAt p a s + n ≤ spanAt p a s)

/-- The end of an address's page. -/
def pageEnd (p : Byte) (a : Nat) (s : State) : Nat := (a / spanAt p a s + 1) * spanAt p a s

/-- The 1 GiB pages of an address's page, the first and how many; none for an FA of partition 0. -/
def namedPages (p : Byte) (a : Nat) (s : State) : Option (Nat × Nat) :=
  if p = 0 then none else some (a / spanAt p a s * (spanAt p a s / pageSize), spanAt p a s / pageSize)

/-- The image is aligned and lies within one page (R237). -/
def imagePlaced (p : Byte) (a : Nat) (s : State) : Bool := decide (a % 4096 = 0) && inOnePage p a imageBytes s

/-- The checks of R241 on the header; `lib` says that a library ROUTE_ID is allowed there. -/
def headerGood (a : Nat) (lib : Bool) (s : State) : Bool :=
  decide (hdMagic a s = 0x4C4D5254 ∧ hdVersion a s = 1 ∧ hdFlags a s < 2 ∧ readNat s (a + 20) 4 = 0 ∧
    hdRouteId a s ≠ 0 ∧ 1 ≤ hdLoop a s ∧ hdLoop a s ≤ 32) && decide (readNat s (a + 32) 4064 = 0) &&
    (lib || decide (0xFFFF < hdRouteId a s))

/-- LANES and FMT agree, and the format may stand with the opcode (R208). -/
def laneOk (i : Word) : Bool :=
  let op := slOp i
  match Fmt.ofCode (slFmt i) with
  | none => false
  | some .raw =>
    decide (op = oLogic ∨ op = oShift ∨ op = oMov ∨ op = oSel ∨ op = oPerm) ||
      (decide (slRing i = 4) && decide (op = oOplus ∨ op = oOtimes ∨ op = oMac ∨ op = oHred))
  | some .fp6 => decide (op = oCvt)
  | some .int64 => decide (slLanes i = 0)
  | some f => decide (f.width (slLanes i) = 32 / 2 ^ slLanes i)

/-- The semiring and format allow the operation (R226). -/
def opAllowed (i : Word) : Bool :=
  let op := slOp i
  let fl := match Fmt.ofCode (slFmt i) with
    | some f => f.isFloat
    | none => false
  if op = oSub ∨ op = oDot then decide (slRing i = 0)
  else if op = oOplus ∨ op = oOtimes ∨ op = oMac ∨ op = oHred then !(decide (slRing i = 4) && fl)
  else if op = oCmpsel then decide (slLanes i = 0 ∧ (slFmt i = 0 ∨ slFmt i = 1))
  else if op = oScale then decide (slFmt i = 0)
  else if op = oCvt then decide (slSrcB i % 16 < 13)
  else true

/-- The operand codes a slot names, read or not, its destination last; SRCB of a CVT is a format (R209, R215). -/
def namedCodes (i : Word) : List Nat :=
  [slSrcA i] ++ (if slOp i = oCvt then [] else [slSrcB i]) ++ [slSrcC i, slDst i]

/-- A slot of an active cell passes R226. -/
def slotGood (cell : Nat) (i : Word) : Bool :=
  decide (slOp i ≤ oHred ∧ slRing i < 5) && laneOk i && opAllowed i &&
    decide (slSrcA i ≤ opArg ∧ slSrcC i ≤ opArg ∧ slDst i ≤ opZero) &&
    (decide (slOp i = oCvt) || decide (slSrcB i ≤ opArg)) &&
    (namedCodes i).all (fun c => if 0x40 ≤ c ∧ c < 0x44 then (neighbour cell (c - 0x40)).isSome else true)

/-- No two active cells of a row hold one ROW_DRIVE bit (R216). -/
def rowDrivesGood (a row : Nat) (s : State) : Bool :=
  ((List.range 64).foldl (fun (acc : Option Nat) c =>
    let w := imageSwitch a (64 * row + c) s
    if swActive w then
      acc.bind (fun m => if Nat.land m (w.toNat % 2 ^ 32) = 0 then some (Nat.lor m (w.toNat % 2 ^ 32)) else none)
    else acc) (some 0)).isSome

/-- The checks of R226 and R241 on the records, against the IMAGE_CRC of the header as it was read. -/
def recordsGood (a crc : Nat) (s : State) : Bool :=
  let loop := hdLoop a s
  let act := (List.range 4096).filter (fun c => swActive (imageSwitch a c s))
  decide (linesStatus (linesOf a imageBytes) s = stOk) &&
    decide (crcChunk (readMem s (a + 4096) (imageBytes - 4096)) = crc) &&
    act.all (fun c => (List.range loop).all (fun i => slotGood c (imageSlot a c i s))) &&
    (List.range 64).all (fun r => rowDrivesGood a r s) &&
    (decide (act.length = 4096) || act.all (fun c => (List.range loop).all (fun i =>
      !((namedCodes (imageSlot a c i s)).contains opColBus))))

/-- The image as a plane holds it. -/
def planeOf (base : Plane) (a : Nat) (s : State) : Plane :=
  let loop := hdLoop a s
  let cells := List.range 4096
  let act := cells.filter (fun c => swActive (imageSwitch a c s))
  let slots : Tbl Word := (cells.map (fun c => ((List.range loop).map (fun i => (32 * c + i, imageSlot a c i s))).filter
    (fun e => decide (e.2 ≠ 0)))).flatten
  let switch : Tbl (BitVec 512) := (cells.map (fun c => (c, imageSwitch a c s))).filter (fun e => decide (e.2 ≠ 0))
  let stages := (act.map (fun c => (List.range loop).foldl (fun m i => max m (slStage (imageSlot a c i s))) 0))
  { base with loaded := true, routeId := hdRouteId a s, loop := loop, orderDep := decide (hdFlags a s = 1),
              maxStage := stages.foldl max 0, active := act.length, slots := slots, switch := switch }

/-- The route draws random numbers or rounds stochastically in some issued slot (R196). -/
def imageDraws (a : Nat) (s : State) : Bool :=
  (List.range 4096).any (fun c => swActive (imageSwitch a c s) &&
    (List.range (hdLoop a s)).any (fun i =>
      decide (slOp (imageSlot a c i s) = oRand) || (slSr (imageSlot a c i s) && decide (slOp (imageSlot a c i s) = oCvt))))

/-! ### ROUTE_RUN (R78, R196, R199, R229, R243 to R248) -/

/-- Where an operand of a ROUTE_RUN lies. -/
inductive RouteAt where
  | bad (st : Byte)
  | miss
  | at_ (off : Nat) (fa : Nat)
  deriving DecidableEq, Repr

/-- An FA at local index 0 of this part that the partition may reach (R237, R246, R247, R351). -/
def reachAt (p : Byte) (fa : Nat) (k : Access) (s : State) : RouteAt :=
  let off := fa % 2 ^ 48
  if fa / 2 ^ 48 ≠ (selfEid 0 s).toNat ∨ privEnd ≤ off then .bad stMalformed
  else if permitted { blankFrame with ty := if k = .w then tyStore else tyLoad, part := p,
                                      off := BitVec.ofNat 48 off } s then .at_ off fa
  else .bad stDenied

/-- An operand of a queue by the cached leaf (R31, R237, R246, R247, R351). -/
def routeAt (q : Nat) (a : Nat) (k : Access) (s : State) : RouteAt :=
  match fvaPlace (qPart q s) a k s with
  | .malformed => .bad stMalformed
  | .miss => .miss
  | .at_ t => reachAt (qPart q s) t.fa k s

/-- A walk of the part's own that posts no fault and parks no queue: the leaf is cached (R34, R251). -/
def quietWalk (p : Byte) (a : Nat) (k : Access) (s : State) : State :=
  match translate p a k s with
  | .miss =>
    if withdrawing p (a / 2 ^ 30) s = some true then s
    else match walkTables p a s with
      | .leaf big w _ => cacheLeaf p a big w s
      | .fault _ _ => s
  | _ => s

/-- The FA of an address for work that a queue has in hand: by the cached leaf, else by a walk that parks the queue where
it faults (R34, R35, R38, R48, R58). A PARKED queue's work stands still; the walk of one that is FENCED or in ERROR posts
no fault (log entry 61). -/
def queueFa (q : Fin 512) (index : BitVec 32) (a : Nat) (k : Access) (s : State) : Option Nat × State :=
  let p := qPart q.val s
  let v := getQ q.val s
  if p = 0 then (some (a % 2 ^ 64), s)
  else if v.st = .parked then (none, s)
  else
    match translate p a k s with
    | .fa x _ => (some x, cacheTouch p a s)
    | .malformed => (none, s)
    | .miss =>
      let s := if v.st = .running ∧ v.fencing = none then walkFor q a k false s else quietWalk p a k s
      let s := if (getQ q.val s).st = .parked then putQ q.val { getQ q.val s with parkedOn := some index } s else s
      match translate p a k s with
      | .fa x _ => (some x, if (getQ q.val s).st = .parked then s else cacheTouch p a s)
      | _ => (none, s)

/-- The first operand that is refused. -/
def routeRefusal : List RouteAt → Option Byte
  | [] => none
  | .bad st :: _ => some st
  | _ :: t => routeRefusal t

/-- Some operand has no cached leaf yet. -/
def routeMiss (l : List RouteAt) : Bool := l.any (fun r => decide (r = .miss))

/-- The offset of an operand. -/
def RouteAt.off : RouteAt → Nat
  | .at_ o _ => o
  | _ => 0

/-- When the doorbell of a descriptor was accepted (R229). -/
def doorbellTime (q : Nat) (index : BitVec 32) (s : State) : Nat :=
  match (getQ q s).dbTimes.find? (fun e => decide ((e.1 - index).toNat - 1 < 2 ^ 31 ∧ e.1 ≠ index)) with
  | some e => e.2
  | none => s.clock

/-- The checks of a ROUTE_RUN once its image and argument block are placed: a status other than OK completes it. -/
def runChecks (q : Nat) (raw : Descriptor) (img : Nat) (r : RunRec) (s : State) : Byte :=
  let f := dfield raw
  if !(imagePlaced r.part r.image s) || decide (f 16 8 % 1024 ≠ 0) ||
      decide (r.inAt % 16 ≠ 0 ∨ r.outAt % 16 ≠ 0) then stMalformed
  else if strictMode s = true ∧ (hdFlags img s % 2 = 1 ∨ (f 59 1 = 0 ∧ imageDraws img s = true)) then stStrict
  else if r.passes = 0 ∨ 2 ^ 32 ≤ r.passes then stMalformed
  else if roomsUnderMax (holderOf (qPart q s) s) s + roomsUsed (holderOf (qPart q s) s) s < 64 * r.stripes ∨
      5120 < 64 * r.stripes then stExhausted
  else
    let bytes := 64 * r.stripes * 32768
    if (r.loadIn && !(inOnePage r.part r.roomSrc bytes s)) || (r.saveOut && !(inOnePage r.part r.roomDst bytes s)) then
      stMalformed
    else stOk

/-- The record of a ROUTE_RUN from its descriptor, image header and argument block (R243 to R248). -/
def runRecord (q : Fin 512) (d : DescEx) (img arg : Nat) (s : State) : RunRec :=
  let f := dfield d.raw
  let elems := hdElems img s
  let passes := hdPassBase img s + readNat s (arg + 4) 4 + (if elems = 0 then 0 else ceilDiv (f 40 8) elems)
  { queue := q, index := d.index, phase := .rooms, part := qPart q.val s, admitted := doorbellTime q.val d.index s,
    image := f 8 8, fa := (selfEid 0 s).toNat * 2 ^ 48 + img, crc := hdCrc img s,
    args := (List.range 64).map (fun i => BitVec.ofNat 128 (readNat s (arg + 16 * i) 16)), passes := passes,
    stripes := readNat s arg 1, loadIn := decide (readNat s (arg + 1) 1 % 2 = 1),
    saveOut := decide (readNat s (arg + 1) 1 / 2 % 2 = 1), roomSrc := readNat s (arg + 16) 8,
    roomDst := readNat s (arg + 24) 8, rooms := [], inAt := f 24 8, outAt := f 32 8,
    seeded := decide (f 59 1 = 1), seed := f 48 8, stream := f 56 3, status := stOk, early := false, result := 0 }

/-- ROUTE_RUN starts: it is refused, or taken up to wait for its rooms (R78, R196, R199, R201, R229, R243 to R248). -/
def routeRun (q : Fin 512) (d : DescEx) (s : State) : State :=
  let f := dfield d.raw
  if s.array.runs.any (fun r => decide (r.queue = q)) then s
  else if ropeShadow s then startDone q.val d stDenied s
  else
    let img := routeAt q.val (f 8 8) .r s
    let arg := routeAt q.val (f 16 8) .r s
    let inA := routeAt q.val (f 24 8) .r s
    let outA := routeAt q.val (f 32 8) .w s
    match routeRefusal [img, arg, inA, outA] with
    | some st => startDone q.val d st s
    | none =>
      if routeMiss [img, arg, inA, outA] then s
      else
        let flags := readNat s (arg.off + 1) 1
        let src := if flags % 2 = 1 then routeAt q.val (readNat s (arg.off + 16) 8) .c s else .at_ 0 0
        let dst := if flags / 2 % 2 = 1 then routeAt q.val (readNat s (arg.off + 24) 8) .w s else .at_ 0 0
        match routeRefusal [src, dst] with
        | some st => startDone q.val d st s
        | none =>
          if routeMiss [src, dst] then s
          else
            let r := runRecord q d img.off arg.off s
            let st := runChecks q.val d.raw img.off r s
            if st ≠ stOk then startDone q.val d st s
            else
              let r := if r.stripes = 0 then { r with phase := .ready } else r
              markStarted q.val d { s with array.runs := s.array.runs ++ [r] }

/-- ROUTE_RUN (R69, R70, R78, R89, R196, R199, R201, R229, R237, R245 to R248). -/
def execRouteRun (q : Fin 512) (s : State) : Host.Outcome State Fault Refusal :=
  act s (startCommand q opRoute (routeRun q))

/-- A page is walked for an address that a partition names; partition 0 names a fabric address (R58). -/
def walkNamed (p : Byte) (a : Nat) (s : State) : State := if p = 0 then s else quietWalk p a .r s

/-- The image at an address becomes the preload target, where it lies as it must (R237, R248, R251). -/
def preloadTarget (q : Fin 512) (a : Nat) (s : State) : State :=
  match routeAt q.val a .r s with
  | .at_ off fa =>
    if imagePlaced (qPart q.val s) a s then
      { s with array.preload := some ⟨qPart q.val s, a, fa, hdCrc off s⟩ }
    else s
  | _ => s

/-- ROUTE_PRELOAD's effect (R78, R251). -/
def routePreload (q : Fin 512) (d : DescEx) (s : State) : State :=
  let a := dfield d.raw 8 8
  startDone q.val d stOk (preloadTarget q a (walkNamed (qPart q.val s) a s))

/-- ROUTE_PRELOAD: the image becomes the preload target, or nothing happens (R78, R237, R248, R251). -/
def execRoutePreload (q : Fin 512) (s : State) : Host.Outcome State Fault Refusal :=
  act s (startCommand q opPreload (routePreload q))

/-! ### Ready runs (R229, R230) -/

/-- A ready run: what it is, its admission time, its image by FA and IMAGE_CRC and, for a ROUTE_RUN, by the address it
names, the partition that asks for it, and its rank among runs admitted at one time. -/
structure Ready where
  id : RunId
  admitted : Nat
  fa : Nat
  crc : Nat
  part : Byte
  image : Option Nat
  rank : Nat
  deriving DecidableEq, Repr

/-- The step a chunk works on. -/
def currentStep (k : CollChunk) : Option CollStepSt := k.steps.find? (fun st => !st.done)

/-- The step is the owner's last of the chunk. -/
def lastStep (c : Coll) (k : CollChunk) (st : CollStepSt) (s : State) : Bool :=
  decide (chunkOwner c.group c.call k.number s = myIndex c.group s) && !st.anchor &&
    ((k.steps.filter (fun x => !x.done)).length == 1)

/-- Every input of a step is filled and checked, and the array has not run it yet (R223, R229). -/
def stepFilled (st : CollStepSt) : Bool := !st.inputs.isEmpty && st.inputs.all (fun i => i.arrived.isSome) && st.ran.isNone

/-- The steps of collectives that are ready, in order of start and of chunk. -/
def readySteps (s : State) : List Ready :=
  if compStopped 7 s then []
  else
  ((s.caravan.colls.map (fun c => match c.admitted with
    | none => []
    | some t => ((sortBy (fun k => k.number) c.chunks).map (fun k => match currentStep k with
      | some st =>
        let n := stepRoute c.call st.stage st.anchor (lastStep c k st s)
        if stepFilled st && decide (n ≠ 0) then
          [(⟨.step c.group c.epoch k.number st.stage st.anchor, t, libraryFa n s,
            hdCrc (libraryFa n s % 2 ^ 48) s, grpPart c.group s, none, 0⟩ : Ready)]
        else []
      | none => [])).flatten)).flatten).mapIdx (fun i r => { r with rank := i })

/-- The ROUTE_RUNs that are ready. -/
def readyRoutes (s : State) : List Ready :=
  (s.array.runs.filter (fun r => decide (r.phase = .ready))).map (fun r =>
    ⟨.route r.queue r.index, r.admitted, r.fa, r.crc, r.part, some r.image, 2 ^ 40 + r.queue.val⟩)

/-- Every ready run. -/
def readyRuns (s : State) : List Ready := readySteps s ++ readyRoutes s

/-- The run of a list to take first: the earliest admitted, then by rank (R230). -/
def firstReady : List Ready → Option Ready
  | [] => none
  | r :: t => some (t.foldl (fun b x =>
      if x.admitted < b.admitted ∨ (x.admitted = b.admitted ∧ x.rank < b.rank) then x else b) r)

/-! ### Rooms of a run (R246) -/

/-- A step waits for rooms: all inputs offered, its own partial staged, global anchors for an integer round, and no
contribution's page faulting (R38, R158, R164). -/
def wantsRooms (c : Coll) (k : CollChunk) (st : CollStepSt) (s : State) : Bool :=
  let parked := fun (i : CollIn) => decide (st.stage = 0) &&
    c.members.any (fun m => decide (selfEid m.li s = i.src ∧ (getQ m.queue.val s).st = .parked))
  c.admitted.isSome && !st.inputs.isEmpty && !st.done &&
    st.inputs.all (fun i => i.offered && i.invitedAt.isNone && !(parked i)) &&
    (decide (c.call.operator ≠ 2) || st.anchor || k.anchors) &&
    (match currentStep k with
      | some x => decide (x.stage = st.stage ∧ x.anchor = st.anchor)
      | none => false)

/-- Some step of a collective waits for rooms. -/
def collWantsRooms (c : Coll) (s : State) : Bool := c.chunks.any (fun k => k.steps.any (fun st => wantsRooms c k st s))

/-- The run that takes its place first among those waiting for rooms. -/
def firstWaiting (s : State) : Option RunRec :=
  match s.array.runs.filter (fun r => decide (r.phase = .rooms)) with
  | [] => none
  | r :: t => some (t.foldl (fun b x => if x.admitted < b.admitted then x else b) r)

/-- ROOM_GRANT: the first waiting ROUTE_RUN receives its rooms if they are free and no step of a collective admitted
before it waits for rooms, one admitted at the same time going first (R164, R221, R230, R243, R246; log entry 38). -/
def execRoomGrant (s : State) : Host.Outcome State Fault Refusal :=
  act s (fun s =>
    match firstWaiting s with
    | none => s
    | some r =>
      let h := holderOf r.part s
      if inReset .ary s || decide (roomsUnderMax h s < 64 * r.stripes) || decide (roomsFreeTo h s < 64 * r.stripes) ||
          s.caravan.colls.any (fun c => decide (c.admitted.getD 0 ≤ r.admitted) && collWantsRooms c s) then s
      else
        match grantAllRows h r.stripes s with
        | some (l, s) => putRun { r with rooms := l, phase := .filling } s
        | none => s)

/-- The run of a queue in a phase. -/
def runIn (q : Fin 512) (p : RunPhase) (s : State) : Option RunRec :=
  s.array.runs.find? (fun r => decide (r.queue = q ∧ r.phase = p))

/-- The offset at local index 0 of an address that a run works on, or the status that refuses it; none while its queue's
walk has faulted (R38, R48, R246, R247). -/
def runPlace (r : RunRec) (a : Nat) (k : Access) (s : State) : RouteAt × State :=
  match queueFa r.queue r.index a k s with
  | (some fa, s) => (reachAt r.part fa k s, s)
  | (none, s) => (.miss, s)

/-- The granted rooms hold what was read, and the run is ready: its image's header is read (R229, R246, R248). -/
def roomsFilled (r : RunRec) (st : Byte) (bs : List Byte) (s : State) : State :=
  putRun { r with phase := .ready, crc := hdCrc (r.fa % 2 ^ 48) s, status := if r.status = stOk then st else r.status }
    (roomsWrite r.rooms 0 bs s)

/-- ROOM_LOAD_DONE: the granted rooms hold the room image, or zeros; the run is ready (R229, R246, R248). -/
def roomLoadDone (q : Fin 512) (s : State) : State :=
  match runIn q .filling s with
  | none => s
  | some r =>
    let n := r.rooms.length * 32768
    let zeros := List.replicate n (0 : Byte)
    if !r.loadIn then roomsFilled r stOk zeros s
    else
      match runPlace r r.roomSrc .c s with
      | (.miss, s) => s
      | (.bad st, s) => roomsFilled r st zeros s
      | (.at_ off _, s) =>
        let lines := linesOf off n
        let s := lines.foldl (fun s l => logLine l srcRead s) s
        roomsFilled r (linesStatus lines s) (readMem s off n) s

/-- A ROUTE_RUN ends: its rooms are freed and its descriptor has its status (R246). -/
def endRun (r : RunRec) (st : Byte) (result : Nat) (s : State) : State :=
  let s := prof bARY 0 r.part.toNat evOut 1 s
  let rest := s.array.runs.filter (fun x => !(decide (x.queue = r.queue ∧ x.index = r.index)))
  let s := freeRooms r.rooms { s with array.runs := rest }
  finishDesc r.queue.val r.index st (BitVec.ofNat 64 result) s

/-- The cycles R228 reports. -/
def runCycles (r : RunRec) (s : State) : Nat := loopPasses r s * (activePlane s).loop

/-- A run's rooms are in its room image and the run completes (R246); a room that cannot be read ends it with
UNCORRECTABLE (R227). -/
def roomsSaved (r : RunRec) (s : State) : State :=
  if roomsBad r.rooms s then endRun r stUncorrectable 0 s
  else
    match runPlace r r.roomDst .w s with
    | (.miss, s) => s
    | (.bad st, s) => endRun r st 0 s
    | (.at_ off _, s) =>
      endRun r stOk r.result (storeBytes off (roomsRead r.rooms 0 (r.rooms.length * 32768) s) s)

/-- ROOM_SAVE_DONE (R227, R246). -/
def execRoomSaveDone (q : Fin 512) (s : State) : Host.Outcome State Fault Refusal :=
  act s (fun s =>
    match runIn q .saving s with
    | none => s
    | some r => roomsSaved r s)

/-! ### Starting a run (R219, R230, R231) -/

/-- The clear of R219. -/
def clearArray (s : State) : State :=
  { s with array.regs := [], array.latches := [], array.bus := [], array.busNext := [], array.idx := [],
           array.sigs := [], array.scratch := [], array.inFifo := [], array.outQ := [], array.inNext := 0,
           array.outNext := 0, array.badRegs := [], array.badScratch := [], array.pipe := [], array.pass := 0,
           array.slot := 0, array.cycle := 0, array.issued := [] }

/-- RUN_LIMIT in ms: 0 acts as 1,000 (R235). MAX_RUNS: 0 acts as 32. -/
def runLimit (s : State) : Nat := if getField rArySched 15 0 s = 0 then 1000 else getField rArySched 15 0 s

def maxRuns (s : State) : Nat := if getField rArySched 23 16 s = 0 then 32 else getField rArySched 23 16 s

/-- The seed and stream of a run without SEEDED, taken from the part (R196). -/
def seedRun (r : RunRec) (s : State) : RunRec :=
  if r.seeded then r else { r with seed := (now s).toNat, stream := r.queue.val }

/-- What a primary sends of a run that starts: its image, and of a ROUTE_RUN its argument block, followed by its passes,
its seed and its stream (R201; log entry 32). -/
def ropeStart (x : Ready) (r : Option RunRec) (s : State) : State :=
  if ropePrimary s then
    let s := ropeSend .routeImage (readMem s (x.fa % 2 ^ 48) imageBytes)
      { s with rope.runNo := s.rope.runNo + 1, rope.chunkNo := 0 }
    match r with
    | some r => ropeSend .argumentBlock ((r.args.map (fun v => bytesOfNat 16 v.toNat)).flatten ++ bytesOfNat 8 r.passes ++
        bytesOfNat 8 r.seed ++ bytesOfNat 4 r.stream) s
    | none => s
  else s

/-- The record of a ROUTE_RUN by what the array calls it. -/
def runOfId (id : RunId) (s : State) : Option RunRec :=
  match id with
  | .route q i => s.array.runs.find? (fun r => decide (r.queue = q ∧ r.index = i))
  | _ => none

/-- A chosen run starts on the active plane (R218, R219, R230, R231, R235). -/
def startRun (x : Ready) (swap : Bool) (s : State) : State :=
  let more := !swap && decide (s.array.batchFa = x.fa) && decide (s.array.batch ≠ 0 ∧ s.array.batch < maxRuns s)
  let run := (runOfId x.id s).map (fun r => seedRun { r with phase := .running } s)
  let s := prof bARY 0 x.part.toNat evIn 1 (ropeStart x run (clearArray s))
  let s := { s with array.current := some x.id, array.runAt := s.clock, array.limitMs := runLimit s,
                    array.batch := if more then s.array.batch + 1 else 1, array.batchFa := x.fa }
  match run with
  | some r => putRun r s
  | none => s

/-- A run whose image failed its load checks completes when its turn comes (R226, R249); other errors found before its
start end it there. -/
def refusedRun (x : Ready) (s : State) : Option RunRec :=
  match x.id with
  | .route q i => s.array.runs.find? (fun r => decide (r.queue = q ∧ r.index = i ∧ r.status ≠ stOk))
  | _ => none

/-- A memory that holds an image a shadow received. -/
def ropeMem (bs : List Byte) (s : State) : State := { s with mem := writeCells bs 0 [] }

/-- The record of a shadow's run, from its primary's argument block (R201; log entry 32). -/
def ropeRun (a : List Byte) (s : State) : RunRec :=
  let n := fun (at_ len : Nat) => natOfBytes ((a.drop at_).take len)
  { queue := 0, index := 0, phase := .running, part := 0, admitted := s.clock, image := 0, fa := 0, crc := 0,
    args := (List.range 64).map (fun i => BitVec.ofNat 128 (n (16 * i) 16)), passes := n 1024 8, stripes := n 0 1,
    loadIn := false, saveOut := false, roomSrc := 0, roomDst := 0, rooms := [], inAt := 0, outAt := 0, seeded := true,
    seed := n 1032 8, stream := n 1040 4, status := stOk, early := false, result := 0 }

/-- A shadow starts the next run its primary sent: what is left of the last one goes; an image that no argument block
follows, a collective step's, is only counted (R201; log entry 36). -/
def ropeRunStart (s : State) : State :=
  let l := s.rope.shadowBytes.dropWhile (fun e => decide (e.1 ≠ .routeImage))
  match l with
  | (_, image) :: (.argumentBlock, args) :: t =>
    let m := ropeMem image s
    let s := clearArray { s with rope.shadowBytes := t, rope.runNo := s.rope.runNo + 1, rope.chunkNo := 0 }
    if headerGood 0 true m then
      putActive { planeOf plane0 0 m with fa := 0, crc := 0 }
        { s with array.current := some .rope, array.runAt := s.clock, array.limitMs := runLimit s, array.batch := 1,
                 array.batchFa := 0, rope.run := some (ropeRun args s), rope.shadowOut := [] }
    else s
  | _ :: t =>
    if t.isEmpty then s
    else { s with rope.shadowBytes := t, rope.runNo := s.rope.runNo + 1, rope.chunkNo := 0 }
  | [] => s

/-- RUN_START: the earliest ready run starts if its route is in a plane, after a swap if it is in the shadow; a shadow part
starts its primary's next run (R11, R196, R201, R213, R218, R219, R223, R230 to R232, R235, R243, R248, R249, R252,
R408). -/
def runStart (s : State) : State :=
  if s.array.current.isSome || arrayHeld s || inReset .ary s || compStopped 5 s then s
  else if ropeShadow s then ropeRunStart s
  else
    match firstReady (readyRuns s) with
    | none => s
    | some x =>
      match refusedRun x s with
      | some r => endRun r r.status 0 s
      | none =>
        if serves (activePlane s) x.fa x.crc then startRun x false s
        else if s.array.shadow = 2 ∧ serves (shadowPlane s) x.fa x.crc = true then
          startRun x true { s with array.activeB := !s.array.activeB,
                                   array.shadow := if (activePlane s).loaded && !(activePlane s).retired then 2 else 0 }
        else s

def execRunStart (s : State) : Host.Outcome State Fault Refusal := act s runStart

/-! ### Loading the shadow (R231, R241, R249, R252) -/

/-- What a load is for: the ready run that asks for it, none for the preload target; the partition, the address it names
and the image's FA and IMAGE_CRC. A collective step names the FA of a library image. -/
structure LoadTarget where
  who : Option RunId
  part : Byte
  image : Option Nat
  fa : Nat
  crc : Nat
  deriving DecidableEq, Repr

/-- What the shadow should hold: the route of the oldest ready run that the active plane does not serve, else the
preload target (R231). -/
def shadowTarget (s : State) : Option LoadTarget :=
  let need := (readyRuns s).filter (fun x => !(serves (activePlane s) x.fa x.crc) && (refusedRun x s).isNone)
  match firstReady need with
  | some x => some ⟨some x.id, x.part, x.image, x.fa, x.crc⟩
  | none => s.array.preload.map (fun p => ⟨none, p.part, some p.image, p.fa, p.crc⟩)

/-- The shadow holds or loads an image already. -/
def shadowHolds (fa crc : Nat) (s : State) : Bool :=
  decide (s.array.shadow ≠ 0 ∧ (shadowPlane s).fa = fa ∧ (shadowPlane s).crc = crc) && !(shadowPlane s).retired

/-- A library image that the caravan runs a ready step with, and of which the library area holds nothing: the step then
runs as R255 says without the image's bytes (R254; log entry 36). -/
def stepImage (fa : Nat) (s : State) : Bool :=
  (readySteps s).any (fun x => decide (x.fa = fa)) && decide (hdMagic (fa % 2 ^ 48) s = 0)

/-- An FA at local index 0 lies in the library area (R254). -/
def inLibrary (fa : Nat) : Bool :=
  decide (0x2E5C000000 ≤ fa % 2 ^ 48 ∧ fa % 2 ^ 48 < 0x2E60000000)

/-- A library ROUTE_ID may stand there: in the library area, or in a page whose leaf has SHARED (R241). -/
def libraryPlace (p : Plane) (s : State) : Bool :=
  inLibrary p.fa || (match p.pages with
    | some g => match leafNow p.part (g.1 * 2 ^ 30) s with
      | some e => leafShared e.2
      | none => false
    | none => false)

/-- The image's address is translated afresh for a load (R252): a run's walk may fault under R38, a preload's does not
(R251). None where no load begins; a run whose image may not be reached has its status. -/
def loadPlace (t : LoadTarget) (s : State) : Option Nat × State :=
  match t.who, t.image with
  | some (.route q i), some a =>
    match queueFa q i a .r s with
    | (none, s) => (none, s)
    | (some fa, s) => match reachAt t.part fa .r s with
      | .at_ _ fa => (some fa, s)
      | .bad st =>
        let mine := fun (r : RunRec) => decide (r.queue = q ∧ r.index = i)
        (none, { s with array.runs := updFirst mine (fun r => { r with status := st }) s.array.runs })
      | .miss => (none, s)
  | none, some a =>
    if t.part = 0 then (some t.fa, s)
    else
      let s := quietWalk t.part a .r s
      match translate t.part a .r s with
      | .fa fa _ => (match reachAt t.part fa .r s with
        | .at_ _ fa => (some fa, s)
        | _ => (none, s))
      | _ => (none, s)
  | _, _ => (some t.fa, s)

/-- The header of the load is the one that the run or the preload target is served by (R248, R250; log entry 60). -/
def noteHeader (t : LoadTarget) (fa crc : Nat) (s : State) : State :=
  match t.who with
  | some (.route q i) =>
    let mine := fun (r : RunRec) => decide (r.queue = q ∧ r.index = i)
    { s with array.runs := updFirst mine (fun r => { r with fa := fa, crc := crc }) s.array.runs }
  | some _ => s
  | none => { s with array.preload := s.array.preload.map (fun p => { p with fa := fa, crc := crc }) }

/-- A load fails: the shadow is EMPTY, LOAD_REFUSED is set, and the runs that wanted the image will complete with
MALFORMED (R226, R249). -/
def loadFails (s : State) : State :=
  let p := shadowPlane s
  let hit := fun (r : RunRec) => decide (r.fa = p.fa ∧ r.crc = p.crc ∧ r.status = stOk) && decide (r.phase ≠ .running ∧ r.phase ≠ .saving)
  let s := { s with array.runs := updAll hit (fun r => { r with status := stMalformed }) s.array.runs }
  let pre := match s.array.preload with
    | some t => if t.fa = p.fa ∧ t.crc = p.crc then none else some t
    | none => none
  setFlag rAryStatus 1 (discardShadow { s with array.preload := pre })

/-- The load of a header that has been read begins, or it is refused (R241, R249). -/
def beginLoad (t : LoadTarget) (fa crc : Nat) (s : State) : State :=
  let p : Plane := { plane0 with fa := fa, crc := crc, part := t.part,
                                 pages := t.image.bind (fun a => namedPages t.part a s) }
  let s := putShadow p { s with array.shadow := 1 }
  if stepImage fa s || headerGood (fa % 2 ^ 48) (libraryPlace p s) s then s else loadFails s

/-- The header that a load wants is read; a plane that already holds its image needs no load (R231, R248, R250). -/
def readHeader (t : LoadTarget) (s : State) : State :=
  match loadPlace t s with
  | (none, s) => s
  | (some fa, s) =>
    let crc := hdCrc (fa % 2 ^ 48) s
    let s := noteHeader t fa crc s
    if shadowHolds fa crc s || serves (activePlane s) fa crc then s else beginLoad t fa crc s

/-- SHADOW_LOAD_START: the header is read and checked (R231, R241, R249, R252). -/
def execShadowLoadStart (s : State) : Host.Outcome State Fault Refusal :=
  act s (fun s =>
    match shadowTarget s with
    | none => s
    | some t =>
      if inReset .ary s || shadowHolds t.fa t.crc s || serves (activePlane s) t.fa t.crc ||
          (t.who.isNone && decide (s.array.shadow = 1)) then s
      else readHeader t s)

/-- SHADOW_LOAD_DONE: the last record is written and every check done (R208, R215, R216, R226, R239, R241, R249,
R252). -/
def execShadowLoadDone (s : State) : Host.Outcome State Fault Refusal :=
  act s (fun s =>
    if s.array.shadow ≠ 1 then s
    else
      let p := shadowPlane s
      let a := p.fa % 2 ^ 48
      if stepImage p.fa s then
        putShadow { p with loaded := true, routeId := (a - 0x2E5C000000) / 0x200000 + 1 } { s with array.shadow := 2 }
      else if headerGood a (libraryPlace p s) s && recordsGood a p.crc s then
        putShadow (planeOf p a s) { s with array.shadow := 2 }
      else loadFails s)

/-! ### The streams of a run (R213, R225, R242, R247) -/

/-- The next word of IN into its cell's FIFO (R225). Past the end of IN's page a read of it ends the run with MALFORMED,
once a cell reads for it (R247). -/
def columnIn (r : RunRec) (cell : Nat) (s : State) : State :=
  let a := r.inAt + 16 * s.array.inNext
  if r.status = stFault then (if stallsOnInput r cell s then freeInput cell s else s)
  else if pageEnd r.part r.inAt s < a + 16 then
    (if stallsOnInput r cell s then freeInput cell (runFails stMalformed true s) else s)
  else if cell ≠ inCell s ∨ 8 ≤ (tblGet [] s.array.inFifo cell).length then s
  else
    match runPlace r a .r s with
    | (.miss, s) => s
    | (.bad st, s) => freeInput cell (runFails st true s)
    | (.at_ off _, s) => fetchWord cell off s

/-- The next word of OUT from its cell's queue to memory (R225); past the end of OUT's page it is dropped and the run ends
with MALFORMED (R247). The streams of a run that ABORT has failed move nothing (R43). -/
def columnOut (r : RunRec) (cell : Nat) (s : State) : State :=
  match tblGet [] s.array.outQ cell with
  | [] => s
  | v :: _ =>
    let a := r.outAt + 16 * s.array.outNext
    if cell ≠ outCell s then s
    else if r.status = stFault then popOutput cell s
    else if pageEnd r.part r.outAt s < a + 16 then runFails stMalformed true (popOutput cell s)
    else
      match runPlace r a .w s with
      | (.miss, s) => s
      | (.bad st, s) => runFails st true (popOutput cell s)
      | (.at_ off _, s) => storeBytes off (bytesOfNat 16 v.toNat) (popOutput cell s)

/-- The next word of a shadow's output, which it only compares (R201). -/
def ropeColumnOut (cell : Nat) (s : State) : State :=
  match tblGet [] s.array.outQ cell with
  | [] => s
  | v :: _ =>
    if cell ≠ outCell s then s
    else popOutput cell { s with rope.shadowOut := s.rope.shadowOut ++ bytesOfNat 16 v.toNat }

/-- COLUMN_BUS_TRANSFER: one word over a cell's column bus, in or out; a shadow's IN is what its primary reads (R201, R213,
R225, R242, R247). -/
def columnBusTransfer (cell : Nat) (inward : Bool) (s : State) : State :=
  match currentRun s with
  | some r =>
    if inReset .ary s then s
    else if inRope s then (if inward then s else ropeColumnOut cell s)
    else if inward then columnIn r cell s else columnOut r cell s
  | none => s

/-! ### The run limit (R227) -/

/-- The array is free again. -/
def arrayFree (s : State) : State := setFlag rAryStatus 0 { s with array.current := none, array.pipe := [] }

/-- The batch ends with a run after which the earliest ready run is none of its route's (R230). -/
def endBatch (s : State) : State :=
  match firstReady (readyRuns s) with
  | some x => if x.fa = s.array.batchFa then s else { s with array.batch := 0 }
  | none => { s with array.batch := 0 }

/-- The end of a run retires what was to be retired: a plane that serves no further run is emptied (R253); a capture that
waited for it goes on (R202). -/
def afterRun (s : State) : State :=
  let s := ropeCaptureGo (endBatch (arrayFree (bump 0x1930018 1 s)))
  if (activePlane s).retired then putActive plane0 s else s

/-- RUN_LIMIT_EXPIRY: a run still going after RUN_LIMIT ends with AGED (R227). A step stays ready and is run again (log
entry 37). -/
def execRunLimitExpiry (s : State) : Host.Outcome State Fault Refusal :=
  act s (fun s =>
    if s.array.current.isSome ∧ due (s.array.runAt + 1000000 * s.array.limitMs) s = true then
      match s.array.current, currentRun s with
      | some (.route _ _), some r => setFlag rAryStatus 3 (afterRun (endRun r stAged 0 s))
      | _, _ => setFlag rAryStatus 3 (afterRun s)
    else s)

end Sys2Proof.Machine
end

