-- ==== Sys2Proof/Machine/Caravan.lean ====
section
/-! DEFINITION. The caravan: starting and admitting collectives (R153, R163, R176), OFFER, INVITE and data (R154, R160 to
R166), steps and results (R156 to R158, R165, R167), SEAL and VOID (R167 to R175), what the end-point does as a member
(R169, R178), groups and quotas (R150 to R152, R162). -/
namespace Sys2Proof.Machine

/-! ### Records -/

/-- The collective of a group and epoch, and the one of a tag and epoch. -/
def findColl (g epoch : Nat) (s : State) : Option Coll :=
  s.caravan.colls.find? (fun c => decide (c.group = g ∧ c.epoch = epoch))

def collByTag (tag : BitVec 16) (epoch : Nat) (s : State) : Option Coll :=
  s.caravan.colls.find? (fun c => decide (grpTag c.group s = tag ∧ c.epoch = epoch))

/-- The group of a tag. -/
def groupByTag (tag : BitVec 16) (s : State) : Option Nat :=
  (List.range 256).find? (fun g => grpValid g s && decide (grpTag g s = tag))

/-- A collective with a new value. -/
def putColl (c : Coll) (s : State) : State :=
  { s with caravan.colls := updFirst (fun x => decide (x.group = c.group ∧ x.epoch = c.epoch)) (fun _ => c) s.caravan.colls }

/-- A collective's chunk in work. -/
def findChunk (c : Coll) (k : Nat) : Option CollChunk := c.chunks.find? (fun x => decide (x.number = k))

/-- A collective with one chunk replaced. -/
def withChunk (k : CollChunk) (c : Coll) : Coll :=
  { c with chunks := updFirst (fun x => decide (x.number = k.number)) (fun _ => k) c.chunks }

/-- A chunk with one step replaced. -/
def withStep (st : CollStepSt) (k : CollChunk) : CollChunk :=
  { k with steps := updFirst (fun x => decide (x.stage = st.stage ∧ x.anchor = st.anchor)) (fun _ => st) k.steps }

/-- Stores a chunk of a collective. -/
def putChunk (c : Coll) (k : CollChunk) (s : State) : State :=
  match findColl c.group c.epoch s with
  | some x => putColl (withChunk k x) s
  | none => s

/-- A chunk opened afresh in a place of the window. -/
def freshChunk (c : Coll) (k place : Nat) (s : State) : CollChunk :=
  { number := k, place := place, attempt := 0, voided := 0, steps := chunkSteps c.group c.call k s, anchors := false,
    anchorGot := [], result := false, got := [], served := [], owed := [], crc := 0, readback := false,
    sealHeld := false, sealFrom := none, refused := 0, seals := [] }

/-- The lowest free place of a collective's window. -/
def freePlace (c : Coll) : Nat :=
  ((List.range c.depth).find? (fun i => c.chunks.all (fun k => decide (k.place ≠ i)))).getD 0

/-- Opens chunks in their order until the window of D is full (R163, R165); a chunk this part has no work on is passed. -/
def fillWindow : Nat → Coll → State → Coll
  | 0, c, _ => c
  | n + 1, c, s =>
    if c.depth ≤ c.chunks.length ∨ chunkTotal c.group c.call s ≤ c.next then c
    else
      let k := c.next
      let c := { c with next := k + 1 }
      fillWindow n (if worksOn c.group c.call k s then
        { c with chunks := c.chunks ++ [freshChunk c k (freePlace c) s] } else c) s

/-! ### Staging (R159) -/

/-- Where one of the four staging places of a chunk begins: 0 and 1 hold what its steps gave and its anchor steps, 2 its
result, 3 its anchors. -/
def stageBase (c : Coll) (k : CollChunk) (i : Nat) : Nat :=
  0x2E60000000 + c.staging.getD (4 * k.place + i) 0 * 262144

/-- Bytes of a staging place. -/
def staged (c : Coll) (k : CollChunk) (i off n : Nat) (s : State) : List Byte := readMem s (stageBase c k i + off) n

/-- Bytes written to a staging place. -/
def stage (c : Coll) (k : CollChunk) (i off : Nat) (bs : List Byte) (s : State) : State :=
  storeBytes (stageBase c k i + off) bs s

/-- Bytes of a chunk in its delivered format, and its result as it is staged. -/
def resultLen (c : Coll) (k : CollChunk) (s : State) : Nat := memBytes c.call (chunkSize c.group c.call k.number s)

def resultBytes (c : Coll) (k : CollChunk) (s : State) : List Byte := staged c k 2 0 (resultLen c k s) s

/-- The chunk's anchor bytes as they are staged. -/
def anchorsOf (c : Coll) (k : CollChunk) (s : State) : List Byte :=
  staged c k 3 0 (ceilDiv (chunkSize c.group c.call k.number s) 32) s

/-- Bytes of a chunk that a member receives: none of a barrier's. -/
def memberLen (c : Coll) (k : CollChunk) (s : State) : Nat := if c.call.op = 6 then 0 else resultLen c k s

/-! ### Frames (R160, R161, R166, R168, R175) -/

/-- A collective frame of this part (R160, R352). -/
def collFrame (c : Coll) (ty : BitVec 6) (dst : Eid) (attempt chunk off : Nat) (data : List Slot) (s : State) : Frame :=
  let p := grpPart c.group s
  { blankFrame with
    dst := dst, src := selfEid 0 s, ty := ty, cls := if ty = tyCollData ∨ ty = tyCollResult then clColl else clCall,
    len := BitVec.ofNat 7 data.length, strict := grpStrict c.group s, enc := decide (p ≠ 0), part := p,
    keyGen := (match slotRec p s with
      | some k => k.generation
      | none => 0),
    stream := grpTag c.group s, seq := BitVec.ofNat 24 (attempt * 2 ^ 22 + chunk % 2 ^ 22), off := BitVec.ofNat 48 off,
    be := BitVec.ofNat 8 c.epoch, data := data, sealed := sealUnder (partSlot p s) 0 s }

/-- Attempt and chunk number of a frame. -/
def frameAttempt (f : Frame) : Nat := f.seq.toNat / 2 ^ 22
def frameChunk (f : Frame) : Nat := f.seq.toNat % 2 ^ 22

/-- The chunk in work a frame names, its number being modulo 2^22. -/
def chunkOf (c : Coll) (f : Frame) : Option CollChunk :=
  c.chunks.find? (fun k => decide (k.number % 2 ^ 22 = frameChunk f))

/-- The full number of a frame's chunk: the one nearest the oldest in work. -/
def fullChunk (c : Coll) (f : Frame) : Nat :=
  let base := match c.chunks with
    | k :: _ => k.number
    | [] => c.next
  let low := base / 2 ^ 22 * 2 ^ 22 + frameChunk f
  if low + 2 ^ 21 < base then low + 2 ^ 22
  else if base + 2 ^ 21 < low ∧ 2 ^ 22 ≤ low then low - 2 ^ 22 else low

/-- The IV fields of a frame without COPY, under its partition (R353). -/
def ivKey (f : Frame) (epoch : BitVec 32) : Nat :=
  f.src.toNat + f.dst.toNat * 2 ^ 16 + f.stream.toNat * 2 ^ 32 + f.seq.toNat * 2 ^ 48 + f.ty.toNat * 2 ^ 72 +
    f.be.toNat * 2 ^ 80 + f.off.toNat * 2 ^ 88 + epoch.toNat * 2 ^ 136 + f.part.toNat * 2 ^ 168

/-- A frame's collective would repeat its EPOCH or chunk field under the present install (R354). -/
def collRepeats (f : Frame) (s : State) : Bool :=
  match collByTag f.stream f.be.toNat s with
  | some c => decide (256 < tblGet 0 s.tenant.collsUsed c.group ∨ 2 ^ 22 ≤ fullChunk c f)
  | none => false

/-- The caravan's frames enter the core by an end-point port (R259). A sealed frame of this part takes the next COPY of
its IV fields (R353); one whose IV would repeat is held until the next SWITCH (R354). -/
def sendColl (f : Frame) (s : State) : State :=
  match f.sealed with
  | none => sendCore 36 f s
  | some x =>
    if f.src ≠ selfEid 0 s then sendCore 36 f s
    else
      let k := ivKey f x.epoch
      let n := tblGet 0 s.tenant.sentIv k
      if collRepeats f s || decide (255 < n) then
        setFlag rSecStatus 5 { s with tenant.ivHeld := s.tenant.ivHeld ++ [f] }
      else
        sendCore 36 { f with sealed := some { x with copy := BitVec.ofNat 8 n } }
          { s with tenant.sentIv := tblSet 0 s.tenant.sentIv k (n + 1) }

/-- Bytes cut into pieces of at most 2 KiB from an offset. -/
def pieces : Nat → Nat → List Byte → List (Nat × List Byte)
  | 0, _, _ => []
  | n + 1, off, bs => if bs.isEmpty then [] else (off, bs.take 2048) :: pieces n (off + 2048) (bs.drop 2048)

def cutPieces (off : Nat) (bs : List Byte) : List (Nat × List Byte) := pieces (bs.length / 2048 + 1) off bs

/-- The slots of a piece. -/
def pieceSlots (bs : List Byte) : List Slot := slotsOfBytes (ceilDiv bs.length 32) bs

/-- The target offset of a frame between parts (R160). -/
def stageOff (stage : Nat) (check anchor : Bool) (byte : Nat) : Nat :=
  stage * 2 ^ 44 + bit1 check * 2 ^ 43 + bit1 anchor * 2 ^ 42 + byte

def offStage (f : Frame) : Nat := field f.off.toNat 47 44
def offCheck (f : Frame) : Bool := f.off.getLsbD 43
def offAnchor (f : Frame) : Bool := f.off.getLsbD 42
def offByte (f : Frame) : Nat := f.off.toNat % 2 ^ 32

/-- Fields of a frame's first data slot. -/
def slotNat (f : Frame) (lo n : Nat) : Nat := ((f.data.headD 0).toNat / 2 ^ (8 * lo)) % 2 ^ (8 * n)

/-- The bytes a frame carries. -/
def frameBytes (f : Frame) : List Byte := (f.data.map slotBytes).flatten

/-- The data slot of a ROOM_CALL (R161). -/
def callSlot (op stage : Nat) (anchor repeated : Bool) (off bytes : Nat) (rest : Nat) : Slot :=
  BitVec.ofNat 256 (op + stage * 2 ^ 8 + (bit1 anchor + 2 * bit1 repeated) * 2 ^ 16 + (off % 2 ^ 32) * 2 ^ 32 +
    (bytes % 2 ^ 32) * 2 ^ 64 + rest)

/-- An OFFER and an INVITE (R161). -/
def offerFrame (c : Coll) (k : Nat) (attempt : Nat) (dst : Eid) (stage : Nat) (anchor : Bool) (lo len : Nat)
    (s : State) : Frame :=
  collFrame c tyRoomCall dst attempt k 0
    [callSlot 1 stage anchor false lo len (c.call.op * 2 ^ 96 + c.call.operator * 2 ^ 104 + c.call.format * 2 ^ 112 +
      (c.call.count % 2 ^ 64) * 2 ^ 192)] s

def inviteFrame (c : Coll) (k : CollChunk) (st : CollStepSt) (i : CollIn) (x : Nat × Nat × Nat) (repeated : Bool)
    (s : State) : Frame :=
  collFrame c tyRoomCall i.src k.attempt k.number 0
    [callSlot 2 st.stage st.anchor repeated (i.lo + x.1) x.2.1 ((x.2.2 % 2 ^ 64) * 2 ^ 128)] s

/-- The data slot of a SEAL or VOID (R168). -/
def sealSlot (crc signal bytes attempt reason : Nat) : Slot :=
  BitVec.ofNat 256 (crc % 2 ^ 64 + (signal % 2 ^ 64) * 2 ^ 64 + (bytes % 2 ^ 32) * 2 ^ 128 + (attempt % 256) * 2 ^ 160 +
    (reason % 256) * 2 ^ 168)

/-- A TREE frame to a set of part indices, and a LINE frame along an axis (R175, R271). -/
def treeMslot (c : Coll) (mask : Nat) (s : State) : Slot :=
  let g := c.group
  let box := boxLo g 0 s * 2 ^ 20 + boxLo g 1 s * 2 ^ 16 + boxLo g 2 s * 2 ^ 12 + boxLen g 0 s * 2 ^ 8 +
    boxLen g 1 s * 2 ^ 4 + boxLen g 2 s
  BitVec.ofNat 256 (mask % 2 ^ 64 + box * 2 ^ 96)

def lineMslot (axis plus minus : Nat) : Slot :=
  BitVec.ofNat 256 (2 ^ 64 + axis * 2 ^ 72 + plus * 2 ^ 80 + minus * 2 ^ 88)

/-- How many parts of the box lie beyond this one on each side of an axis. -/
def lineReach (g axis : Nat) (s : State) : Nat × Nat :=
  let n := boxLen g axis s
  let i := myRel g axis s
  if wraps g axis s then (n / 2, (n - 1) / 2) else (n - 1 - i, i)

/-- Fans a SEAL or VOID out: one TREE frame up to 64 parts, else LINE frames along the axes from the `j`-th of SPREAD on
(R175). -/
def fanOut (c : Coll) (f : Frame) (j : Nat) (s : State) : State :=
  let g := c.group
  if grpParts g s ≤ 1 then s
  else if grpParts g s ≤ 64 then
    if j = 0 then
      let mask := (2 ^ grpParts g s - 1) - 2 ^ myIndex g s
      sendColl { f with mcast := true, mslot := treeMslot c mask s } s
    else s
  else
    ((List.range 3).filter (fun a => decide (j ≤ a))).foldl (fun s a =>
      let axis := axisOf g (2 - a) s
      let r := lineReach g axis s
      if r.1 = 0 ∧ r.2 = 0 then s else sendColl { f with mcast := true, mslot := lineMslot axis r.1 r.2 } s) s

/-- A received LINE frame goes on along the axes after the one it came by (R175). -/
def fanOnward (c : Coll) (f : Frame) (s : State) : State :=
  if f.mcast && decide (slotByte f.mslot 8 = 1) then
    let axis := (slotByte f.mslot 9).toNat
    let j := ((List.range 3).find? (fun a => decide (axisOf c.group (2 - a) s = axis))).getD 2
    fanOut c { f with src := f.src } (j + 1) s
  else s

/-- The STORE_ACK that answers a SEAL, under the COPY of the SEAL (R169, R353). -/
def sealAnswer (f : Frame) (status : Byte) (s : State) : State :=
  let r := responseTo f status []
  let copy := match f.sealed with
    | some x => x.copy.toNat
    | none => 0
  sendCore 36 { r with src := selfEid 0 s, enc := f.enc,
                       sealed := if f.enc then sealUnder (partSlot f.part s) copy s else none } s

/-! ### The end of a collective (R170, R174, R176) -/

/-- Every room a collective's steps hold. -/
def collRooms (c : Coll) : List Nat :=
  ((c.chunks.map (fun k => (k.steps.map (fun st => (st.inputs.map (fun i => i.rooms)).flatten)).flatten)).flatten)

/-- A member's COLL_START has its final status, RESULT being the chunks signalled to it (R174, R176). -/
def endMember (m : CollMember) (st : Byte) (s : State) : State :=
  finishDesc m.queue.val m.index st (BitVec.ofNat 64 m.signalled) s

/-- A collective leaves: its rooms and staging are free, and each member without a status takes one (R176, R177). A run of
one of its steps goes on to its end (R230). -/
def endColl (c : Coll) (st : Byte) (s : State) : State :=
  let s := freeRooms (collRooms c) s
  let rest := s.caravan.colls.filter (fun x => !(decide (x.group = c.group ∧ x.epoch = c.epoch)))
  let s := { s with caravan.colls := rest }
  let s := c.members.foldl (fun s m => if m.status.isNone then endMember m st s else s) s
  let s := if st = stMemberLost then setFlag rCvnStatus 1 s else if st = stExhausted then setFlag rCvnStatus 2 s else s
  setFlag rCvnStatus 0 s

/-- The group-wide VOID (R170). -/
def groupVoid (c : Coll) (reason : Byte) (s : State) : State :=
  let f := collFrame c tyVoid (selfEid 0 s) 3 (2 ^ 22 - 1) 0 [sealSlot 0 0 0 3 reason.toNat] s
  if grpParts c.group s ≤ 1 then s else setFlag rCvnStatus 3 (fanOut c f 0 s)

/-- A collective fails at this part, which tells the others (R176). -/
def failColl (c : Coll) (st : Byte) (s : State) : State :=
  match findColl c.group c.epoch s with
  | some c => endColl c st (groupVoid c st s)
  | none => s

/-- A frame of a collective of this part draws UNREACHABLE at this core: the collective ends with MEMBER_LOST (R176). -/
def collUnreachable (f : Frame) (s : State) : State :=
  if f.ty = tyCollData ∨ f.ty = tyCollResult ∨ f.ty = tyRoomCall ∨ f.ty = tySeal ∨ f.ty = tyVoid then
    match collByTag f.stream f.be.toNat s with
    | some c => failColl c stMemberLost s
    | none => s
  else s

/-- A member ends alone, the others going on (R171). -/
def endMemberAlone (c : Coll) (li : Nat) (st : Byte) (s : State) : State :=
  match findColl c.group c.epoch s with
  | none => s
  | some c =>
    let hit := fun (m : CollMember) => decide (m.li = li) && m.status.isNone
    let s := (c.members.filter hit).foldl (fun s m => endMember m st s) s
    let s := putColl { c with members := updAll hit (fun m => { m with status := some st }) c.members } s
    if st = stMemberLost then setFlag rCvnStatus 1 s else s

/-- Members whose chunks are all signalled complete with OK once the part has no more work for them (R174; a member
that receives none waits for its part's share of every chunk, log entry 41). -/
def completeMembers (c : Coll) (s : State) : State :=
  match findColl c.group c.epoch s with
  | none => s
  | some c =>
    let total := fun (m : CollMember) => memberTotal c.group c.call (rankOf c.group m.li s) s
    let idle := c.chunks.isEmpty && decide (chunkTotal c.group c.call s ≤ c.next)
    let fin := fun (m : CollMember) => m.status.isNone && decide (m.signalled = total m) && (decide (total m ≠ 0) || idle)
    let s := (c.members.filter fin).foldl (fun s m => endMember m stOk s) s
    let c := { c with members := updAll fin (fun m => { m with status := some stOk }) c.members }
    let s := putColl c s
    if idle && c.members.all (fun m => m.status.isSome) then endColl c stOk s else s

/-- A chunk this part is done with leaves, and the window moves on (R163). -/
def dropChunk (c : Coll) (k : Nat) (s : State) : State :=
  match findColl c.group c.epoch s with
  | none => s
  | some c =>
    let held := match findChunk c k with
      | some x => (x.steps.map (fun st => (st.inputs.map (fun i => i.rooms)).flatten)).flatten
      | none => []
    let s := freeRooms held s
    let c := { c with chunks := c.chunks.filter (fun x => decide (x.number ≠ k)) }
    completeMembers c (putColl (fillWindow (chunkTotal c.group c.call s) c s) s)

/-! ### Starting and admitting (R89, R145 to R149, R153, R163, R176, R199, R201) -/

/-- COLL_STARTs of a queue in flight (R89). -/
def collsInFlight (q : Fin 512) (s : State) : Nat :=
  (s.caravan.colls.filter (fun c => c.members.any (fun m => decide (m.queue = q) && m.status.isNone))).length +
    (s.caravan.waiting.filter (fun w => decide (w.member.queue = q))).length

/-- The EID a buffer lies at, from the cached leaf, or from the FA itself under partition 0 (R58): none where no leaf is
cached, and an address that is malformed. -/
def bufferEid (p : Byte) (a : Nat) (s : State) : Option (Option Nat) :=
  if p = 0 then some (some (a / 2 ^ 48))
  else match translate p a .c s with
  | .malformed => some none
  | .miss => none
  | .fa x _ => some (some (x / 2 ^ 48))

/-- The local index a COLL_START's buffers lie at: DENIED where they differ or leave the group (R153). -/
def memberPlace (g : Nat) (l : List (Option Nat)) (s : State) : Option Nat :=
  match l with
  | some e :: t =>
    if t.all (fun x => decide (x = some e)) && decide (e / 16 = (partId s).toNat) && (localList g s).contains (e % 16) then
      some (e % 16)
    else none
  | _ => none

/-- A member's buffers end within the address space (log entry 63). -/
def buffersFit (g : Nat) (p : Byte) (c : CollCall) (li send recv signal : Nat) (s : State) : Bool :=
  let r := rankOf g li s
  let fits := fun (a n : Nat) => if p = 0 then decide (a % 2 ^ 48 + n ≤ 2 ^ 48) else decide (a + n ≤ 2 ^ 57)
  fits signal 8 && (decide (c.op = 6) || (fits send (sendBytes c r) && fits recv (recvBytes g c r s)))

/-- How many collectives of a group a member's earlier COLL_STARTs wait for. -/
def turnOf (g li : Nat) (l : List CollWaiting) : Nat :=
  (l.filter (fun w => decide (w.group = g ∧ w.member.li = li))).length

/-- The waiting COLL_STARTs of one turn: for each local index its entry of that number. -/
def turnEntries (g turn : Nat) (s : State) : List CollWaiting :=
  (localList g s).filterMap (fun li =>
    (s.caravan.waiting.filter (fun w => decide (w.group = g ∧ w.member.li = li)))[turn]?)

/-- COLL_START: it is refused, or waits for the group's other local members (R77, R89, R145 to R149, R153, R199, R201; log
entry 69 for the order of its checks). -/
def collStart (q : Fin 512) (d : DescEx) (s : State) : State :=
  let f := dfield d.raw
  let g := f 8 1
  let p := qPart q.val s
  let c : CollCall :=
    { op := f 9 1, operator := f 10 1, format := f 11 1, root := f 12 2, count := f 40 8,
      rooms := if f 48 4 = 0 then 8 else f 48 4 }
  if 8 ≤ collsInFlight q s then s
  else if ropeShadow s then startDone q.val d stDenied s
  else if !(grpValid g s) then startDone q.val d stMalformed s
  else if p ≠ grpPart g s then startDone q.val d stDenied s
  else if callStatus g c s ≠ stOk then startDone q.val d (callStatus g c s) s
  else
    let bufs := if c.op = 6 then [bufferEid p (f 32 8) s]
      else [bufferEid p (f 16 8) s, bufferEid p (f 24 8) s, bufferEid p (f 32 8) s]
    if bufs.any (fun b => b.isNone) then s
    else
      let eids := bufs.map (fun b => b.getD none)
      if eids.any (fun e => e.isNone) then startDone q.val d stMalformed s
      else
        match memberPlace g eids s with
        | none => startDone q.val d stDenied s
        | some li =>
          let turn := turnEntries g (turnOf g li s.caravan.waiting) s
          if !(buffersFit g p c li (f 16 8) (f 24 8) (f 32 8) s) then startDone q.val d stMalformed s
          else if turn.any (fun w => decide (w.call ≠ c)) then
            let s := turn.foldl (fun s w => endMember w.member stMalformed s) s
            let gone := fun (w : CollWaiting) => turn.any (fun x => decide (x = w))
            startDone q.val d stMalformed { s with caravan.waiting := s.caravan.waiting.filter (fun w => !(gone w)) }
          else
            let m : CollMember :=
              { li := li, queue := q, index := d.index, send := f 16 8, recv := f 24 8, signal := f 32 8, signalled := 0,
                timeout := if f 52 4 = 0 then 10000000 else 1000 * f 52 4, status := none }
            markStarted q.val d { s with caravan.waiting := s.caravan.waiting ++ [⟨g, c, m⟩] }

/-- COLL_START (R69, R70, R77, R89, R145 to R149, R153, R199, R201). -/
def execCollStart (q : Fin 512) (s : State) : Host.Outcome State Fault Refusal :=
  act s (startCommand q opColl (collStart q))

/-- Collectives admitted (R177). -/
def admittedCount (s : State) : Nat := (s.caravan.colls.filter (fun c => c.admitted.isSome)).length

/-- The staging buffers of one chunk, and those reserved (R159, R163). -/
def chunkBuffers (c : CollCall) : Nat := ceilDiv (formBytes c (chunkElems c)) 262144

def stagingUsed (s : State) : List Nat :=
  (s.caravan.colls.map (fun c => (c.staging.map (fun b => (List.range (chunkBuffers c.call)).map (fun i => b + i))).flatten)).flatten

/-- The lowest `b` consecutive buffers that are free (R159). -/
def freeBuffers (b : Nat) (used : List Nat) : Option Nat :=
  (List.range 2048).find? (fun i => decide (i + b ≤ 2048) && (List.range b).all (fun j => !(used.contains (i + j))))

/-- Allots `n` staging places of `b` consecutive buffers each: their first buffers, none where they do not fit (R159). -/
def allotStaging (b : Nat) : Nat → List Nat → Option (List Nat)
  | 0, _ => some []
  | n + 1, used =>
    match freeBuffers b used with
    | none => none
    | some i => (allotStaging b n ((List.range b).map (fun j => i + j) ++ used)).map (fun l => i :: l)

/-- The choices of R163, in their order. -/
def admitChoices (rooms : Nat) : List (Nat × Nat) :=
  ((List.range 8).map (fun i => (8 - i, rooms))) ++ ((List.range (rooms - 1)).map (fun i => (1, rooms - 1 - i)))

/-- The first choice that fits, with its staging places (R159, R163). -/
def admitChoice (c : Coll) (s : State) : Option (Nat × Nat × List Nat) :=
  let k := planInputs c.group c.call s
  let h := holderOf (grpPart c.group s) s
  (admitChoices c.call.rooms).findSome? (fun x =>
    if x.1 * k * x.2 ≤ roomsUnderMax h s ∧ x.1 * k * x.2 ≤ roomsFreeTo h s then
      (allotStaging (chunkBuffers c.call) (4 * x.1) (stagingUsed s)).map (fun l => (x.1, x.2, l))
    else none)

/-- The first collective that waits to be admitted. -/
def firstUnadmitted (s : State) : Option Coll := s.caravan.colls.find? (fun c => c.admitted.isNone)

/-- The first collective that waits is admitted with the first choice that fits (R163). -/
def collectiveAdmit (s : State) : State :=
  match firstUnadmitted s with
  | none => s
  | some c =>
    if 32 ≤ admittedCount s ∨ inReset .ary s = true ∨ compStopped 3 s = true then s
    else
      match admitChoice c s with
      | none => s
      | some x =>
        let c := { c with admitted := some s.clock, depth := x.1, grant := x.2.1, staging := x.2.2 }
        putColl (fillWindow (chunkTotal c.group c.call s) c s) s

/-- The ADMIT_TIMEOUT of a collective: the shortest its local members name (R77, R163). -/
def admitTimeout (c : Coll) : Nat :=
  let l := c.members.map (fun m => m.timeout)
  l.foldl min (l.headD 0)

/-- ADMIT_TIMEOUT: a collective not admitted in time ends with ROOMS_EXHAUSTED (R163, R176). -/
def execAdmitTimeout (g : Fin 256) (epoch : BitVec 8) (s : State) : Host.Outcome State Fault Refusal :=
  act s (fun s =>
    match findColl g.val epoch.toNat s with
    | some c => if c.admitted.isNone ∧ due (c.startedAt + admitTimeout c) s = true then failColl c stExhausted s else s
    | none => s)

/-! ### OFFER and INVITE (R154, R158, R160 to R164) -/

/-- The step of a chunk at this part that a row names. -/
def rowStep (g epoch : Nat) (x : CollStep) (s : State) : Option (Coll × CollChunk × CollStepSt) :=
  (findColl g epoch s).bind (fun c => (findChunk c x.chunk).bind (fun k =>
    (k.steps.find? (fun st => decide (st.stage = x.stage ∧ st.anchor = x.anchor))).map (fun st => (c, k, st))))

/-- SEND_OFFER: a step's partial is staged and goes on: its receivers are told (R156, R160, R161). -/
def execSendOffer (g : Fin 256) (epoch : BitVec 8) (st : CollStep) (s : State) : Host.Outcome State Fault Refusal :=
  act s (fun s =>
    match rowStep g.val epoch.toNat st s with
    | none => s
    | some (c, k, x) =>
      let outs := stepOutputs c.group c.call k.number x s
      if !x.done || x.offered || outs.isEmpty then s
      else
        let s := putChunk c (withStep { x with offered := true } k) s
        outs.foldl (fun s o =>
          sendColl (offerFrame c k.number k.attempt o.1 (offerStage c.call x) x.anchor o.2.1 o.2.2 s) s) s)

/-- A frame of a partition passes R355 as a collective frame. -/
def collAuth (f : Frame) (s : State) : Auth := authenticate f true s

/-- What a collective frame does once it is authentic. -/
def collArrives (f : Frame) (act_ : State → State) (s : State) : State :=
  let s := takeArrivedAny f s
  match collAuth f s with
  | .stale => dropStale s
  | .tag => dropTag s
  | .pass => act_ s

/-- An OFFER agrees with this part's collective (R154). -/
def offerAgrees (c : Coll) (f : Frame) : Bool :=
  decide (slotNat f 12 1 = c.call.op ∧ slotNat f 13 1 = c.call.operator ∧ slotNat f 14 1 = c.call.format ∧
    slotNat f 24 8 = c.call.count)

/-- Where a frame's chunk stands at this part: in work, done or none of the collective's, or not yet in the window. -/
inductive ChunkAt where
  | here (k : CollChunk)
  | past
  | ahead
  deriving DecidableEq, Repr

def chunkAt (c : Coll) (f : Frame) (s : State) : ChunkAt :=
  match chunkOf c f with
  | some k => .here k
  | none =>
    if fullChunk c f < c.next ∨ chunkTotal c.group c.call s ≤ fullChunk c f then .past else .ahead

/-- Notes an OFFER at the input it is for (R154, R164). -/
def noteOffer (c : Coll) (k : CollChunk) (f : Frame) (s : State) : State :=
  let hit := fun (i : CollIn) => decide (i.src = f.src ∧ i.lo = slotNat f 4 4)
  match k.steps.find? (fun st => decide (st.stage = slotNat f 1 1) && (st.anchor == decide (slotNat f 2 1 % 2 = 1))) with
  | some st => putChunk c (withStep { st with inputs := updAll hit (fun i => { i with offered := true }) st.inputs } k) s
  | none => s

/-- A collective frame whose collective has not started here yet (log entry 40). -/
def isEarly (f : Frame) (s : State) : Bool :=
  match groupByTag f.stream s with
  | some g => decide ((f.be.toNat + 256 - grpEpoch g s) % 256 < 128)
  | none => false

/-- A frame waits until its collective has started here and its chunk is in the window (R163; log entry 40). -/
def holdFrame (f : Frame) (s : State) : State := { s with caravan.early := s.caravan.early ++ [f] }

/-- A frame of a collective that has not started here waits; one of a collective that is over has no effect. -/
def keepEarly (f : Frame) (s : State) : State := if isEarly f s then holdFrame f s else s

/-- The oldest collective in work of a tag's group. -/
def oldestOf (tag : BitVec 16) (s : State) : Option Coll :=
  s.caravan.colls.find? (fun c => decide (grpTag c.group s = tag))

/-- OFFER: one that does not agree ends the collective; so does one of an epoch that is over while another collective of
the group is in work, the oldest then ending (R154; log entry 64). -/
def offerArrives (f : Frame) (s : State) : State :=
  match collByTag f.stream f.be.toNat s with
  | none =>
    if isEarly f s then holdFrame f s
    else match oldestOf f.stream s with
      | some c => failColl c stMalformed s
      | none => s
  | some c =>
    if offerAgrees c f then
      match chunkAt c f s with
      | .here k => noteOffer c k f s
      | .past => s
      | .ahead => holdFrame f s
    else failColl c stMalformed s

/-- Bytes of each input a round of R163 takes: whole MX blocks in LOCAL. -/
def roundLen (c : Coll) (st : CollStepSt) : Nat :=
  let n := c.grant * 32768
  if st.stage = 0 ∧ st.anchor = false ∧ fmtMx c.call.format = true then n / memBytes c.call 32 * memBytes c.call 32 else n

/-- Where an input's present round begins and how many bytes it has. -/
def roundRange (c : Coll) (st : CollStepSt) (i : CollIn) : Nat × Nat :=
  let base := st.round * roundLen c st
  (base, min (roundLen c st) (i.len - base))

/-- No step of a collective admitted before, no earlier chunk's of the same one, and no run admitted before waits for rooms
(R164, R246; log entry 38). Collectives stand in the order of their admission. -/
def roomTurn (c : Coll) (k : CollChunk) (s : State) : Bool :=
  let same := fun (x : Coll) => decide (x.group = c.group ∧ x.epoch = c.epoch)
  (s.caravan.colls.takeWhile (fun x => !(same x))).all (fun x => !(collWantsRooms x s)) &&
  c.chunks.all (fun y => !(decide (y.number < k.number) && y.steps.any (fun st => wantsRooms c y st s))) &&
  s.array.runs.all (fun r => !(decide (r.phase = .rooms ∧ r.admitted < c.admitted.getD 0)))

/-- The FA of an FVA of a member's buffer: a walk that faults parks its queue (R32, R34, R35, R38, R58); for a member that
has ended no fault is raised (log entry 62). -/
def memberFa (c : Coll) (m : CollMember) (a : Nat) (s : State) : Option Nat × State :=
  if m.status.isNone then queueFa m.queue m.index a .c s
  else
    let p := grpPart c.group s
    if p = 0 then (some (a % 2 ^ 64), s)
    else
      let s := quietWalk p a .c s
      match translate p a .c s with
      | .fa x _ => (some x, s)
      | _ => (none, s)

/-- Cuts `n` units of `u` bytes from unit `off` of a buffer at `a` where a 1 GiB page begins: offsets and lengths. -/
def pagePieces (u a : Nat) : Nat → Nat → Nat → List (Nat × Nat)
  | 0, _, _ => []
  | fuel + 1, off, n =>
    if n = 0 then []
    else
      let t := min n (ceilDiv (2 ^ 30 - (a + u * off) % 2 ^ 30) (max 1 u))
      (off, t) :: pagePieces u a fuel (off + t) (n - t)

/-- The member an input of LOCAL comes from. -/
def inputMember (c : Coll) (i : CollIn) (s : State) : Option CollMember :=
  c.members.find? (fun m => decide (selfEid m.li s = i.src))

/-- Gives each piece asked of a member its SOURCE_FA; none where one faults. -/
def piecesFa (c : Coll) (m : CollMember) (u a : Nat) : List (Nat × Nat) → State → Option (List (Nat × Nat × Nat)) × State
  | [], s => (some [], s)
  | p :: t, s =>
    match memberFa c m (a + u * p.1) s with
    | (none, s) => (none, s)
    | (some fa, s) =>
      match piecesFa c m u a t s with
      | (some l, s) => (some ((p.1, p.2, fa) :: l), s)
      | (none, s) => (none, s)

/-- What the INVITEs to one input ask for: from a member one for each page, by SOURCE_FA of the first byte, or in the anchor
round of the first block (R161); from staging the whole round. -/
def askInput (c : Coll) (k : CollChunk) (st : CollStepSt) (i : CollIn) (s : State) :
    Option (List (Nat × Nat × Nat)) × State :=
  let r := roundRange c st i
  match if st.stage = 0 then inputMember c i s else none with
  | none => (some [(r.1, r.2, 0)], s)
  | some m =>
    let u := if st.anchor then memBytes c.call 32 else 1
    let a := m.send + sendOffset c.group c.call k.number s
    piecesFa c m u a (pagePieces u a (u * r.2 / 2 ^ 30 + 2) r.1 r.2) s

/-- What the INVITEs to the inputs of a step ask for; none while a page of one faults. -/
def askInputs (c : Coll) (k : CollChunk) (st : CollStepSt) :
    List CollIn → State → Option (List (List (Nat × Nat × Nat))) × State
  | [], s => (some [], s)
  | i :: t, s =>
    match askInput c k st i s with
    | (none, s) => (none, s)
    | (some l, s) =>
      match askInputs c k st t s with
      | (some r, s) => (some (l :: r), s)
      | (none, s) => (none, s)

/-- A member that has ended owes a contribution to a step whose page is not there: the collective loses it (log entry
62). -/
def contributionLost (c : Coll) (st : CollStepSt) (s : State) : Bool :=
  decide (st.stage = 0) && st.inputs.any (fun i => match inputMember c i s with
    | some m => m.status.isSome
    | none => false)

/-- Gives each input of a step its rooms of a grant: rows by round-robin, input `i` in logical stripe `i`; rooms an input
does not need are freed again (R221). -/
def dealRooms (need : List Nat) (rows : List (List Nat)) (s : State) : List (List Nat) × State :=
  let perInput := need.mapIdx (fun i n => (rows.take n).filterMap (fun row => row[i]?))
  let spare := rows.flatten.filter (fun r => !(perInput.flatten.contains r))
  (perInput, freeRooms spare s)

/-- The INVITEs to one input. -/
def inviteInput (c : Coll) (k : CollChunk) (st : CollStepSt) (i : CollIn) (repeated : Bool) (s : State) : State :=
  i.asked.foldl (fun s x => sendColl (inviteFrame c k st i x repeated s) s) s

/-- SEND_INVITE: the step receives its rooms and asks every input for its bytes (R38, R156, R158, R161, R162, R164,
R221). -/
def sendInvite (c : Coll) (k : CollChunk) (st : CollStepSt) (s : State) : State :=
  let h := holderOf (grpPart c.group s) s
  let need := st.inputs.map (fun i => ceilDiv (roundRange c st i).2 32768)
  let total := need.foldl (· + ·) 0
  if !(wantsRooms c k st s) || !(roomTurn c k s) || decide (roomsUnderMax h s < total) || decide (roomsFreeTo h s < total) then
    s
  else
    match askInputs c k st st.inputs s with
    | (none, s) => if contributionLost c st s then failColl c stMemberLost s else s
    | (some asked, s) =>
      match grantRows h st.inputs.length (need.foldl max 0) s [] with
      | none => s
      | some (rows, s) =>
        let (given, s) := dealRooms need rows s
        let s := prof bCVN c.group (grpPart c.group s).toNat evIn 1 s
        let ins := st.inputs.mapIdx (fun j i =>
          { i with rooms := given.getD j [], invitedAt := some s.clock, asked := asked.getD j [] })
        let s := putChunk c (withStep { st with inputs := ins } k) s
        ins.foldl (fun s i => inviteInput c k st i false s) s

/-- SEND_INVITE (R158, R161, R162, R164). -/
def execSendInvite (g : Fin 256) (epoch : BitVec 8) (st : CollStep) (s : State) : Host.Outcome State Fault Refusal :=
  act s (fun s =>
    match rowStep g.val epoch.toNat st s with
    | some (c, k, x) => if inReset .ary s then s else sendInvite c k x s
    | none => s)

/-- Answers an INVITE: the bytes named, then their check (R166). -/
def answerInvite (c : Coll) (f : Frame) (bs : List Byte) (s : State) : State :=
  let stage := slotNat f 1 1
  let anchor := decide (slotNat f 2 1 % 2 = 1)
  let off := slotNat f 4 4
  let mk := fun (o : Nat) (data : List Slot) (s : State) =>
    collFrame c tyCollData f.src (frameAttempt f) (frameChunk f) o data s
  let s := (cutPieces off bs).foldl (fun s p => sendColl (mk (stageOff stage false anchor p.1) (pieceSlots p.2) s) s) s
  let chk := (crcChunk bs) + (off % 2 ^ 32) * 2 ^ 64 + (bs.length % 2 ^ 32) * 2 ^ 96
  sendColl (mk (stageOff stage true anchor off) [BitVec.ofNat 256 chk] s) s

/-- The bytes this part's end-point sends as a member: from SOURCE_FA, or the anchor bytes of the elements there
(R178). -/
def memberBytes (c : Coll) (f : Frame) (s : State) : List Byte :=
  let a := slotNat f 16 8 % 2 ^ 48
  let n := slotNat f 8 4
  if slotNat f 2 1 % 2 = 1 then
    let elems := min (32 * n) (chunkSize c.group c.call (fullChunk c f) s - 32 * slotNat f 4 4)
    anchorBytes c.call elems (readMem s a (memBytes c.call elems))
  else readMem s a n

/-- A chunk is served: every byte its outputs cover was sent, and this part has nothing more to do with it. -/
def servedAll (c : Coll) (k : CollChunk) (s : State) : Bool :=
  match k.steps.getLast? with
  | none => false
  | some st =>
    let outs := stepOutputs c.group c.call k.number st s
    !outs.isEmpty && (receivers c.group c.call k.number s).isEmpty && !(spreads c.call) &&
      decide ((outs.map (fun o => o.2.2)).foldl (· + ·) 0 ≤ (k.served.map (fun r => r.2)).foldl (· + ·) 0)

/-- INVITE: this part sends the bytes named from staging, or as a member from memory (R160, R164, R166, R178). -/
def inviteArrives (f : Frame) (s : State) : State :=
  match collByTag f.stream f.be.toNat s with
  | none => s
  | some c =>
    let s := if slotNat f 2 1 / 2 % 2 = 1 then setFlag rCvnStatus 4 s else s
    if slotNat f 16 8 ≠ 0 then answerInvite c f (memberBytes c f s) s
    else
      match chunkOf c f with
      | none => s
      | some k =>
        match k.steps.find? (fun st => decide (offerStage c.call st = slotNat f 1 1) &&
            (st.anchor == decide (slotNat f 2 1 % 2 = 1)) && st.done) with
        | none => s
        | some st =>
          let off := slotNat f 4 4
          let n := min (slotNat f 8 4) (st.staged - off)
          let s := answerInvite c f (staged c k (bit1 st.anchor) off n s) s
          let last := (k.steps.getLast?.map (fun x => decide (x.stage = st.stage ∧ x.anchor = st.anchor))).getD false
          let k := if last && !(k.served.contains (off, n)) then { k with served := k.served ++ [(off, n)] } else k
          let s := putChunk c k s
          if servedAll c k s then dropChunk c k.number s else s

/-! ### Data and its check (R160, R166, R223) -/

/-- Adds a range that is not there yet. -/
def addRange (r : Nat × Nat) (l : List (Nat × Nat)) : List (Nat × Nat) := if l.contains r then l else l ++ [r]

/-- The bytes a list of ranges covers. -/
def rangeTotal (l : List (Nat × Nat)) : Nat := l.foldl (fun n r => n + r.2) 0

/-- Replaces one input of a step. -/
def putInput (c : Coll) (k : CollChunk) (st : CollStepSt) (i : CollIn) (s : State) : State :=
  let same := fun (x : CollIn) => decide (x.src = i.src ∧ x.lo = i.lo)
  putChunk c (withStep { st with inputs := updFirst same (fun _ => i) st.inputs } k) s

/-- Repeats an INVITE; after three repeats the collective ends (R166). -/
def repeatInvite (c : Coll) (k : CollChunk) (st : CollStepSt) (i : CollIn) (fail : Byte) (s : State) : State :=
  if 3 ≤ i.repeats then failColl c fail s
  else
    let i := { i with repeats := i.repeats + 1, invitedAt := some s.clock, got := [], checks := [] }
    inviteInput c k st i true (setFlag rCvnStatus 4 (putInput c k st i s))

/-- Verifies an input once its bytes and its checks are there (R166). -/
def verifyInput (c : Coll) (k : CollChunk) (st : CollStepSt) (i : CollIn) (s : State) : State :=
  let r := roundRange c st i
  if rangeTotal i.got < r.2 ∨ rangeTotal (i.checks.map (fun x => (x.1, x.2.1))) < r.2 then putInput c k st i s
  else if i.checks.all (fun x => decide (crcChunk (roomsRead i.rooms x.1 x.2.1 s) = x.2.2.toNat)) then
    putInput c k st { i with arrived := some s.caravan.arrivals }
      { s with caravan.arrivals := s.caravan.arrivals + 1 }
  else repeatInvite c k st i stIntegrity (putInput c k st i s)

/-- Keeps a check, the last one of its range. -/
def addCheck (x : Nat × Nat × Word) (l : List (Nat × Nat × Word)) : List (Nat × Nat × Word) :=
  l.filter (fun y => decide (y.1 ≠ x.1)) ++ [x]

/-- COLL_DATA lands in the rooms of its input; the check is kept (R160, R166, R223, R229). -/
def dataArrives (f : Frame) (s : State) : State :=
  match collByTag f.stream f.be.toNat s with
  | none => s
  | some c =>
    match chunkOf c f with
    | none => s
    | some k =>
      if frameAttempt f < k.voided then s
      else
        match k.steps.find? (fun st => decide (st.stage = offStage f) && (st.anchor == offAnchor f) && !st.done) with
        | none => s
        | some st =>
          let b := if offCheck f then slotNat f 8 4 else offByte f
          let mine := fun (i : CollIn) => decide (i.src = f.src ∧ i.lo ≤ b ∧ b < i.lo + i.len) &&
            i.invitedAt.isSome && i.arrived.isNone
          match st.inputs.find? mine with
          | none => s
          | some i =>
            let r := roundRange c st i
            let at_ := b - i.lo - r.1
            if offCheck f then
              let n := min (slotNat f 12 4) (r.2 - at_)
              verifyInput c k st { i with checks := addCheck (at_, n, BitVec.ofNat 64 (slotNat f 0 8)) i.checks } s
            else
              let ends := i.asked.map (fun x => x.1 - r.1 + x.2.1)
              let stop := (ends.find? (fun e => decide (at_ < e))).getD r.2
              let bs := (frameBytes f).take (stop - at_)
              verifyInput c k st { i with got := addRange (at_, bs.length) i.got } (roomsWrite i.rooms at_ bs s)

/-- COLL_DATA (R160, R166, R223, R229). -/
def execCollData (f : Frame) (s : State) : Host.Outcome State Fault Refusal :=
  act s (whenTrue (decide (f.ty = tyCollData)) (collArrives f (dataArrives f)))

/-- INVITE_REPEAT_TIMEOUT: bytes or check missing 5 ms after the INVITE (R166). The input is named by its number in the
step. -/
def execInviteRepeatTimeout (g : Fin 256) (epoch : BitVec 8) (st : CollStep) (input : BitVec 16) (s : State) :
    Host.Outcome State Fault Refusal :=
  act s (fun s =>
    match rowStep g.val epoch.toNat st s with
    | none => s
    | some (c, k, x) =>
      match x.inputs[input.toNat]? with
      | none => s
      | some i =>
        match i.invitedAt with
        | none => s
        | some t => if i.arrived.isNone ∧ due (t + 5000000) s = true then repeatInvite c k x i stMemberLost s else s)

/-! ### Results (R156 to R158, R165, R167, R182, R185, R188 to R192, R255) -/

/-- The staging place a step's result goes to: the chunk's result for the owner's last step, else the partial's. -/
def stepPlace (c : Coll) (k : CollChunk) (st : CollStepSt) (s : State) : Nat :=
  if lastStep c k st s then 2 else bit1 st.anchor

/-- The staged result of the last finished step before one, in its round. -/
def stepBefore (c : Coll) (k : CollChunk) (st : CollStepSt) (s : State) : List Byte :=
  match (k.steps.takeWhile (fun x => !(decide (x.stage = st.stage ∧ x.anchor = st.anchor)))).reverse.find?
      (fun x => x.done && (x.anchor == st.anchor)) with
  | some x => staged c k (bit1 st.anchor) 0 x.staged s
  | none => []

/-- The inputs of a step in their order of arrival (R186). -/
def inArrival (l : List CollIn) : List CollIn :=
  sortBy (fun i => i.arrived.getD 0) l

/-- What an input contributes: its bytes, or under SUM_ANCHORED its integers at the block anchors (R158, R190). -/
def inputForm (c : Coll) (k : CollChunk) (st : CollStepSt) (i : CollIn) (s : State) : List Byte :=
  let r := roundRange c st i
  let bs := roomsRead i.rooms 0 r.2 s
  if c.call.operator = 2 ∧ st.stage = 0 ∧ st.anchor = false then
    let skip := r.1 / max 1 (memBytes c.call 32)
    let n := min (32 * (r.2 / max 1 (memBytes c.call 32)) + (if fmtMx c.call.format then 0
      else r.2 % memBytes c.call 32 / max 1 (memBytes c.call 1))) (chunkSize c.group c.call k.number s)
    toAnchored c.call n ((anchorsOf c k s).drop skip) bs
  else bs

/-- The output of a step's round: in LOCAL and DIRECT the combined inputs are appended, on an axis they are combined into
what passes through (R156). -/
def roundOut (c : Coll) (k : CollChunk) (st : CollStepSt) (s : State) : List Byte :=
  let ins := inArrival st.inputs
  let out := staged c k (stepPlace c k st s) 0 st.staged s
  if st.stage = 0 ∨ st.stage = 8 then
    match ins with
    | [] => if c.call.op = 6 then List.replicate 8 0 else out
    | i :: t => out ++ t.foldl (fun acc x => combineBytes c.call st.anchor acc (inputForm c k st x s)) (inputForm c k st i s)
  else
    ins.foldl (fun acc x => combineInto c.call st.anchor (x.lo + (roundRange c st x).1) acc (inputForm c k st x s))
      (if st.round = 0 then stepBefore c k st s else out)

/-- A step's library route, 0 where the array does not run it. -/
def routeOf (c : Coll) (k : CollChunk) (st : CollStepSt) (s : State) : Nat :=
  if st.inputs.isEmpty then 0 else stepRoute c.call st.stage st.anchor (lastStep c k st s)

/-- Where a chunk begins in a member's RECV buffer. -/
def recvAt (c : Coll) (m : CollMember) (k : Nat) (s : State) : Nat := m.recv + recvOffset c.group c.call k s

/-- The pieces of a chunk's result for a member: at most 2 KiB, none across a page. -/
def resultPieces (c : Coll) (k : CollChunk) (m : CollMember) (s : State) : List (Nat × Nat) :=
  let n := memberLen c k s
  ((pagePieces 1 (recvAt c m k.number s) (n / 2 ^ 30 + 2) 0 n).map (fun p =>
    (List.range (ceilDiv p.2 2048)).map (fun i => (p.1 + 2048 * i, min 2048 (p.2 - 2048 * i))))).flatten

/-- Sends the pieces a member is owed, up to the first whose page faults: what is left (R38, R160, R167). -/
def payPieces (c : Coll) (k : CollChunk) (m : CollMember) : List (Nat × Nat) → State → List (Nat × Nat) × State
  | [], s => ([], s)
  | p :: t, s =>
    match memberFa c m (recvAt c m k.number s + p.1) s with
    | (some fa, s) =>
      payPieces c k m t (sendColl (collFrame c tyCollResult (BitVec.ofNat 16 (fa / 2 ^ 48)) k.attempt k.number (fa % 2 ^ 48)
        (pieceSlots (staged c k 2 p.1 p.2 s)) s) s)
    | (none, s) => (p :: t, s)

/-- The chunk of a collective as the state has it. -/
def chunkNow (c : Coll) (n : Nat) (s : State) : Option (Coll × CollChunk) :=
  (findColl c.group c.epoch s).bind (fun c => (findChunk c n).map (fun k => (c, k)))

/-- Sends a member what it is owed of a chunk. -/
def payMember (c : Coll) (n : Nat) (m : CollMember) (s : State) : State :=
  match chunkNow c n s with
  | none => s
  | some (c, k) =>
    let mine := fun (x : Nat × Nat × Nat) => decide (x.1 = m.li)
    let (left, s) := payPieces c k m ((k.owed.filter mine).map (·.2)) s
    putChunk c { k with owed := k.owed.filter (fun x => !(mine x)) ++ left.map (fun p => (m.li, p)) } s

/-- Delivers a chunk's result to one local member: COLL_RESULT to its RECV buffer (R156, R160, R167). -/
def deliverTo (c : Coll) (n : Nat) (m : CollMember) (s : State) : State :=
  match chunkNow c n s with
  | none => s
  | some (c, k) =>
    let others := k.owed.filter (fun x => decide (x.1 ≠ m.li))
    payMember c n m (putChunk c { k with owed := others ++ (resultPieces c k m s).map (fun p => (m.li, p)) } s)

/-- The local members without a status that receive a chunk. -/
def openReceivers (c : Coll) (k : Nat) (s : State) : List CollMember :=
  c.members.filter (fun m => m.status.isNone && receives c.group c.call k (rankOf c.group m.li s) s)

/-- Sends a result, or block anchors, from staging to one part of SPREAD (R160, R167). -/
def spreadTo (c : Coll) (k : CollChunk) (anchor : Bool) (t : Eid × Nat × Nat × Nat) (s : State) : State :=
  (cutPieces t.2.2.1 (staged c k (if anchor then 3 else 2) t.2.2.1 t.2.2.2 s)).foldl (fun s p =>
    sendColl (collFrame c tyCollResult t.1 k.attempt k.number (stageOff t.2.1 false anchor p.1) (pieceSlots p.2) s) s) s

/-- A chunk's result exists at this part: it goes on in SPREAD and to the local members at once (R167). -/
def resultExists (c : Coll) (k : CollChunk) (s : State) : State :=
  let s := if spreads c.call then
      (spreadTargets c.group c.call k.number false s).foldl (fun s t => spreadTo c k false t s) s
    else s
  (openReceivers c k.number s).foldl (fun s m => deliverTo c k.number m s) s

/-- Block anchors exist at this part: they go on in SPREAD (R158). -/
def anchorsExist (c : Coll) (k : CollChunk) (s : State) : State :=
  (spreadTargets c.group c.call k.number true s).foldl (fun s t => spreadTo c k true t s) s

/-- A step is the last of its round at the owner: its result is the anchors or the chunk's result. -/
def endsRound (c : Coll) (k : CollChunk) (st : CollStepSt) (s : State) : Bool :=
  let lastOf := (k.steps.filter (fun x => x.anchor == st.anchor)).getLast?
  decide (chunkOwner c.group c.call k.number s = myIndex c.group s) &&
    (lastOf.map (fun x => decide (x.stage = st.stage))).getD false

/-- A step is done with its whole result: its partial stands in staging, or at the owner it is the anchors or the chunk's
result (R157 to R159, R167, R191). -/
def stepDone (c : Coll) (k : CollChunk) (st : CollStepSt) (out : List Byte) (s : State) : State :=
  let s := prof bCVN c.group (grpPart c.group s).toNat evOut 1 s
  if endsRound c k st s && st.anchor then
    let k := { k with anchors := true }
    anchorsExist c k (putChunk c k (stage c k 3 0 out s))
  else if endsRound c k st s then
    let bs := if c.call.operator = 2 then
        fromAnchored c.call (chunkSize c.group c.call k.number s) (anchorsOf c k s) out
      else out
    let k := { k with result := true, crc := BitVec.ofNat 64 (crcChunk bs) }
    resultExists c k (putChunk c k (stage c k 2 0 bs s))
  else s

/-- A step has more rounds to take (R163). -/
def moreRounds (c : Coll) (st : CollStepSt) : Bool :=
  st.inputs.any (fun i => decide ((roundRange c st i).1 + roundLen c st < i.len))

/-- The rooms of a step. -/
def stepRooms (st : CollStepSt) : List Nat := (st.inputs.map (fun i => i.rooms)).flatten

/-- STEP_RESULT_STAGED: a round's result is staged, read back and checked; its rooms are freed, but for the owner's last
REDUCE step's; the next round or step follows (R156, R158, R159, R163, R165, R167). -/
def stepStaged (c : Coll) (k : CollChunk) (st : CollStepSt) (out : List Byte) (s : State) : State :=
  let more := moreRounds c st
  let keep := lastStep c k st s && decide (1 ≤ st.stage ∧ st.stage ≤ 3) && !more
  let s := if keep then s else freeRooms (stepRooms st) s
  let s := stage c k (stepPlace c k st s) 0 out s
  if more then
    putChunk c (withStep { st with inputs := st.inputs.map againIn, round := st.round + 1, ran := none,
                                   staged := out.length } k) s
  else
    let ins := if keep then st.inputs else st.inputs.map (fun i => { i with rooms := [] })
    let st := { st with inputs := ins, ran := none, staged := out.length, done := true }
    let k := withStep st k
    stepDone c k st out (putChunk c k s)

/-- The bytes a step's run reads, in the order in which the array takes them: what passes through, then its inputs (R201). -/
def stepReads (c : Coll) (k : CollChunk) (st : CollStepSt) (s : State) : List Byte :=
  (if st.stage = 0 ∨ st.stage = 8 then [] else if st.round = 0 then stepBefore c k st s
    else staged c k (stepPlace c k st s) 0 st.staged s) ++
  ((inArrival st.inputs).map (fun i => roomsRead i.rooms 0 (roundRange c st i).2 s)).flatten

/-- The end of a step's run: its output waits to be staged; a room that could not be read makes it fail (R165, R201,
R227). -/
def stepRunEnds (g epoch chunk stage : Nat) (anchor : Bool) (s : State) : State :=
  let s := match rowStep g epoch ⟨chunk, stage, anchor⟩ s with
    | some (c, k, st) =>
      let out := roundOut c k st s
      let bad := roomsBad (stepRooms st) s
      let s := ropeSend .stepBytes (stepReads c k st s) s
      let s := if moreRounds c st then s else ropeChunk (activePlane s).routeId (BitVec.ofNat 64 (crcChunk out)) s
      putChunk c (withStep { st with ran := some out, bad := bad } k) (prof bARY 0 0 evOut 1 s)
    | none => s
  afterRun s

/-- A run's output as it was written: a shadow's is what it put out. -/
def routeOutput (r : RunRec) (s : State) : List Byte :=
  if inRope s then s.rope.shadowOut
  else
    let off := if r.part = 0 then r.outAt % 2 ^ 48 else match leafNow r.part r.outAt s with
      | some (big, w) => leafFa big w r.outAt % 2 ^ 48
      | none => 0
    readMem s off (16 * s.array.outNext)

/-- The chunk CRCs of a route run's output, 256 KiB each, in output order (R201). -/
def routeCrcs (r : RunRec) (s : State) : List Word :=
  let bs := routeOutput r s
  (List.range (ceilDiv bs.length 262144)).map (fun i =>
    BitVec.ofNat 64 (crcChunk ((bs.drop (262144 * i)).take 262144)))

/-- RUN_END: a run whose passes are over and whose results and output words have landed, or that an error ends at the end
of its pass, completes; its rooms are saved first under SAVE_OUT (R78, R218, R227, R228, R246). -/
def runEnd (s : State) : State :=
  match s.array.current with
  | none => s
  | some (.step g e c st a) => stepRunEnds g e c st a s
  | some _ =>
    match currentRun s with
    | none => s
    | some r =>
      let ended := decide (loopPasses r s ≤ s.array.pass) && s.array.pipe.isEmpty && s.array.outQ.isEmpty
      let early := r.early && decide (s.array.slot = 0 ∧ s.array.cycle ≠ 0) && s.array.issued.isEmpty
      if !ended && !early then s
      else
        let s := (routeCrcs r s).foldl (fun s x => ropeChunk (activePlane s).routeId x s) s
        if inRope s then afterRun { s with rope.run := none }
        else if r.status ≠ stOk then afterRun (endRun r r.status 0 s)
        else if r.saveOut then afterRun (putRun { r with phase := .saving, result := runCycles r s } s)
        else afterRun (endRun r stOk (runCycles r s) s)

def execRunEnd (s : State) : Host.Outcome State Fault Refusal := act s runEnd

/-! ### COLL_RESULT (R156, R158, R167, R170, R178) -/

/-- Result bytes or anchors of SPREAD arrive at a part and are staged (R156, R158, R159, R167). -/
def spreadArrives (c : Coll) (k : CollChunk) (f : Frame) (s : State) : State :=
  let n := chunkSize c.group c.call k.number s
  let b := offByte f
  let bs := (frameBytes f).take (spreadEnd c.group c.call k.number (offStage f) (offAnchor f) b s - b)
  if frameAttempt f < k.voided ∨ spreadBytes c.call (offAnchor f) n ≤ b then s
  else if offAnchor f then
    let s := stage c k 3 b bs s
    let k := { k with anchorGot := addRange (b, bs.length) k.anchorGot }
    if !k.anchors && decide (spreadBytes c.call true n ≤ rangeTotal k.anchorGot) then
      let k := { k with anchors := true }
      anchorsExist c k (putChunk c k s)
    else putChunk c k s
  else
    let k := if k.attempt < frameAttempt f then { k with attempt := frameAttempt f, got := [], result := false } else k
    let s := stage c k 2 b bs s
    let k := { k with got := addRange (b, bs.length) k.got }
    if !k.result && decide (memBytes c.call n ≤ rangeTotal k.got) then
      let k := { k with result := true }
      resultExists c k (putChunk c k s)
    else putChunk c k s

/-- A record is of the chunk a frame names. -/
def landedIs (f : Frame) (l : Landed) : Bool :=
  decide (l.tag = f.stream ∧ l.epoch = f.be.toNat ∧ l.chunk = frameChunk f)

/-- What the end-point keeps of a frame's chunk as a member. -/
def landedOf (f : Frame) (s : State) : Option Landed := s.caravan.landed.find? (landedIs f)

def putLanded (f : Frame) (l : Landed) (s : State) : State :=
  { s with caravan.landed := updFirst (landedIs f) (fun _ => l) s.caravan.landed }

/-- A record no longer needed: its chunk is signalled, or its collective is over here and no SEAL waits. -/
def landedSpent (l : Landed) (s : State) : Bool :=
  l.signalled || (l.seals.isEmpty && (collByTag l.tag l.epoch s).isNone)

/-- The end-point keeps 64 chunks at once (R178); where they are all taken, the oldest record no longer needed gives way
(log entry 66). The record of a frame's chunk; none where there is no room for one. -/
def takeLanded (f : Frame) (s : State) : Option Landed × State :=
  match landedOf f s with
  | some l => (some l, s)
  | none =>
    let new : Landed := ⟨f.stream, f.be.toNat, frameChunk f, 0, [], 0, [], false⟩
    let add := fun (l : List Landed) => (some new, { s with caravan.landed := l ++ [new] })
    if s.caravan.landed.length < 64 then add s.caravan.landed
    else match s.caravan.landed.find? (fun l => landedSpent l s) with
      | some old => add (s.caravan.landed.filter (fun l => !(decide (l = old))))
      | none => (none, s)

/-- How many bytes of a COLL_RESULT to this part's end-point are the chunk's: the slots beyond the chunk's last byte, or
beyond the page's, hold none. -/
def landsLeft (f : Frame) (s : State) : Nat :=
  let page := 2 ^ 30 - f.off.toNat % 2 ^ 30
  match (collByTag f.stream f.be.toNat s).bind (fun c =>
      (c.members.find? (fun m => decide (m.li = 0))).map (fun m => (c, m))) with
  | none => page
  | some (c, m) =>
    let n := memBytes c.call (chunkSize c.group c.call (fullChunk c f) s)
    let p := grpPart c.group s
    let a := recvAt c m (fullChunk c f) s + n - 1
    let last := if p = 0 then a % 2 ^ 48 else match leafNow p a s with
      | some (big, w) => leafFa big w a % 2 ^ 48
      | none => f.off.toNat + page - 1
    if last / 2 ^ 30 = f.off.toNat / 2 ^ 30 then last + 1 - f.off.toNat else page

/-- The end-point as a member writes result bytes into its memory and counts them (R178). -/
def memberLands (f : Frame) (s : State) : State :=
  let bs := (frameBytes f).take (landsLeft f s)
  match takeLanded f s with
  | (none, s) => storeBytes f.off.toNat bs s
  | (some l, s) =>
    if frameAttempt f < l.voided then s
    else
      let l := if l.attempt < frameAttempt f then { l with attempt := frameAttempt f, ranges := [] } else l
      putLanded f { l with ranges := addRange (f.off.toNat, bs.length) l.ranges } (storeBytes f.off.toNat bs s)

/-- COLL_RESULT: from this part's own caravan it lands as a member's, from another part it is SPREAD's (R160, R163,
R178). -/
def collResult (f : Frame) (s : State) : State :=
  if f.src = selfEid 0 s then memberLands f s
  else match collByTag f.stream f.be.toNat s with
    | none => keepEarly f s
    | some c => match chunkAt c f s with
      | .here k => spreadArrives c k f s
      | .past => s
      | .ahead => holdFrame f s

/-! ### SEAL (R167 to R169, R171, R173 to R175) -/

/-- The SEAL of a chunk to a local member, its counter at an FA (R168, R169). -/
def memberSeal (c : Coll) (k : CollChunk) (m : CollMember) (fa : Nat) (s : State) : Frame :=
  let n := memberLen c k s
  collFrame c tySeal (selfEid m.li s) k.attempt k.number 0
    [sealSlot (crcChunk (staged c k 2 0 n s)) fa n k.attempt 0] s

/-- The SEAL of a chunk to another part (R168): the CRC is the one taken as the result left the array. -/
def partSeal (c : Coll) (k : CollChunk) (dst : Eid) (s : State) : Frame :=
  collFrame c tySeal dst k.attempt k.number 0 [sealSlot k.crc.toNat 0 (resultLen c k s) k.attempt 0] s

/-- Replaces or adds the wait for a SEAL's answer. -/
def putWait (w : SealWait) (k : CollChunk) : CollChunk :=
  if k.seals.any (fun x => decide (x.eid = w.eid)) then
    { k with seals := updFirst (fun x => decide (x.eid = w.eid)) (fun _ => w) k.seals }
  else { k with seals := k.seals ++ [w] }

/-- A chunk may be signalled here: the owner's read-back was clean, or its SEAL came. -/
def chunkSealed (k : CollChunk) : Bool := (k.readback && !k.sealHeld) || k.sealFrom.isSome

/-- A SEAL of another collective or chunk awaits an answer from an end-point that could not be told from the answer to
this chunk's: such a SEAL is held back until then (R91, R160, R169; log entry 43). -/
def sealBusy (c : Coll) (k : CollChunk) (e : Eid) (s : State) : Bool :=
  s.caravan.colls.any (fun x => decide (x.group = c.group) && x.chunks.any (fun y =>
    decide (y.number % 2 ^ 22 = k.number % 2 ^ 22 ∧ ¬(x.epoch = c.epoch ∧ y.number = k.number)) &&
      y.seals.any (fun w => decide (w.eid = e) && !w.ok)))

/-- A member is owed pieces of a chunk. -/
def owedTo (k : CollChunk) (m : CollMember) : Bool := k.owed.any (fun x => decide (x.1 = m.li))

/-- Sends one member a chunk's SEAL, once all of the chunk has been sent to it and the page of its counter is there (R38,
R169). -/
def sendMemberSeal (c : Coll) (n : Nat) (m : CollMember) (w : SealWait) (s : State) : State :=
  match chunkNow c n s with
  | none => s
  | some (_, k) =>
    if owedTo k m then s
    else match memberFa c m m.signal s with
      | (none, s) => s
      | (some fa, s) => sendColl (memberSeal c k m fa s) (putChunk c (putWait w k) s)

/-- Sends one member the SEAL that is next in its chunk order (R169, R174). -/
def pumpMember (c : Coll) (m : CollMember) (s : State) : State :=
  match findColl c.group c.epoch s with
  | none => s
  | some c =>
    let rank := rankOf c.group m.li s
    let next := fun (k : CollChunk) => chunkSealed k && receives c.group c.call k.number rank s &&
      decide (memberChunk c.group c.call k.number s = m.signalled) && !(k.seals.any (fun w => decide (w.eid = selfEid m.li s)))
    match c.chunks.find? next with
    | some k =>
      if m.status.isSome || sealBusy c k (selfEid m.li s) s then s
      else sendMemberSeal c k.number m ⟨selfEid m.li s, s.clock, 0, false⟩ s
    | none => s

/-- Sends every local member the SEAL it may have now. -/
def pumpSeals (c : Coll) (s : State) : State :=
  match findColl c.group c.epoch s with
  | some c => c.members.foldl (fun s m => pumpMember c m s) s
  | none => s

/-- All local members of a chunk have answered OK, or ended. -/
def membersAnswered (c : Coll) (k : CollChunk) (s : State) : Bool :=
  (openReceivers c k.number s).all (fun m => k.seals.any (fun w => decide (w.eid = selfEid m.li s) && w.ok))

/-- This part is done with a sealed chunk: a receiving part answers the owner, the owner waits for every part (R169,
R171). -/
def settleChunk (c : Coll) (n : Nat) (s : State) : State :=
  match findColl c.group c.epoch s with
  | none => s
  | some c =>
    match findChunk c n with
    | none => s
    | some k =>
      if !(chunkSealed k) || !(membersAnswered c k s) then s
      else
        match k.sealFrom with
        | some f => dropChunk c n (sealAnswer f stOk s)
        | none => if k.seals.all (fun w => w.ok || decide (eidPart w.eid = (partId s).toNat)) then dropChunk c n s else s

/-- The parts besides the owner that receive a chunk. -/
def receivingParts (c : Coll) (s : State) : List Eid :=
  if spreads c.call then
    ((List.range (grpParts c.group s)).filter (fun i => decide (i ≠ myIndex c.group s))).map (fun i => partEid c.group i s)
  else []

/-- The owner sends a chunk's SEAL to every part that receives it, or holds it back while an answer could be mistaken
(R169, R175; log entry 43). -/
def sendSeals (c : Coll) (k : CollChunk) (s : State) : State :=
  let parts := receivingParts c s
  if parts.any (fun e => sealBusy c k e s) then putChunk c { k with sealHeld := true } s
  else
    let k := { k with sealHeld := false, seals := parts.map (fun e => ⟨e, s.clock, 0, false⟩) }
    let s := putChunk c k s
    let s := if parts.isEmpty then s else fanOut c (partSeal c k (selfEid 0 s) s) 0 s
    settleChunk c k.number (pumpSeals c s)

/-- Sends what SEALs of a group were held back and need not be any longer. -/
def pumpGroup (g : Nat) (s : State) : State :=
  s.caravan.colls.foldl (fun s c =>
    if c.group ≠ g then s
    else pumpSeals c (c.chunks.foldl (fun s k =>
      match (findColl c.group c.epoch s).bind (fun c => findChunk c k.number) with
      | some k => if k.sealHeld then sendSeals c k s else s
      | none => s) s)) s

/-- The owner seals a chunk (R167, R169, R175); its held rooms are freed (R165). -/
def sealChunk (c : Coll) (k : CollChunk) (s : State) : State :=
  let s := freeRooms (k.steps.map stepRooms).flatten s
  let k := { k with
    readback := true
    steps := k.steps.map (fun st => { st with inputs := st.inputs.map (fun i => { i with rooms := [] }) }) }
  sendSeals c k s

/-- A step's rooms still hold its contributions whole. -/
def stepHeld (st : CollStepSt) : Bool := st.inputs.all (fun i => !i.rooms.isEmpty) && decide (st.round = 0) && !st.bad

/-- The combining a void has to do again: the step whose rooms could not be read, else the last. -/
def stepToRedo (k : CollChunk) : Option CollStepSt :=
  match k.steps.find? (fun st => st.bad) with
  | some st => some st
  | none => k.steps.getLast?

/-- A step is to be done again: from the rooms where they still hold its contributions whole, else from new contributions,
the rooms being freed (R165, R170, R227; log entry 42). -/
def redoStep (k : CollChunk) (s : State) : CollChunk × State :=
  match stepToRedo k with
  | none => (k, s)
  | some st =>
    if stepHeld st then (withStep (againStep st.inputs st) k, s)
    else (withStep (againStep (st.inputs.map againIn) st) k, freeRooms (stepRooms st) s)

/-- The owner voids an attempt: it recomputes the chunk, or after attempt 2 ends the collective with CHUNK_VOID (R167,
R170). -/
def voidAttempt (c : Coll) (k : CollChunk) (s : State) : State :=
  let f := collFrame c tyVoid (selfEid 0 s) k.attempt k.number 0 [sealSlot 0 0 0 k.attempt stChunkVoid.toNat] s
  let s := setFlag rCvnStatus 3 s
  let s := if (receivingParts c s).isEmpty then s else fanOut c f 0 s
  let s := (openReceivers c k.number s).foldl (fun s m => sendColl { f with dst := selfEid m.li s } s) s
  if 2 ≤ k.attempt then failColl c stChunkVoid s
  else
    let (k, s) := redoStep k s
    putChunk c { k with attempt := k.attempt + 1, voided := k.attempt + 1, result := false, owed := [], readback := false,
                        sealHeld := false, seals := [] } s

/-- A step's run failed: at the owner the chunk is voided, at another part the step is done again (R170, R227; log entry
65). -/
def stepFailed (c : Coll) (k : CollChunk) (s : State) : State :=
  if chunkOwner c.group c.call k.number s = myIndex c.group s then voidAttempt c k s
  else
    let (k, s) := redoStep k s
    putChunk c k s

/-- STEP_RESULT_STAGED (R156, R158, R159, R163, R165, R167, R227). -/
def stepResult (c : Coll) (k : CollChunk) (x : CollStepSt) (s : State) : State :=
  let mine := match currentStep k with
    | some y => decide (y.stage = x.stage ∧ y.anchor = x.anchor)
    | none => false
  if !mine then s
  else if x.bad then stepFailed c k s
  else
    match x.ran with
    | some out => stepStaged c k x out s
    | none =>
      if routeOf c k x s = 0 ∧ x.inputs.all (fun i => i.arrived.isSome) = true ∧
          (c.call.operator ≠ 2 ∨ x.anchor = true ∨ k.anchors = true) then
        stepStaged c k x (roundOut c k x s) s
      else s

/-- The owner has read its result back from staging: SEAL, or VOID where the read-back failed or the CRC differs from the
one taken as the result left the array (R167, R168, R170, R173, R175). -/
def readbackDone (c : Coll) (k : CollChunk) (clean : Bool) (s : State) : State :=
  let n := resultLen c k s
  let good := clean && decide (linesStatus (linesOf (stageBase c k 2) n) s = stOk ∧
    crcChunk (resultBytes c k s) = k.crc.toNat)
  if k.sealHeld then pumpGroup c.group s
  else if !k.result || k.readback || decide (chunkOwner c.group c.call k.number s ≠ myIndex c.group s) then s
  else if good then sealChunk c k s else voidAttempt c k s

/-- A staged copy that disagrees with its SEAL is refused; at the fourth refusal of an attempt the part's members end with
INTEGRITY, the others going on (R169, R171; log entry 67). -/
def refuseSeal (c : Coll) (k : CollChunk) (f : Frame) (s : State) : State :=
  let s := sealAnswer f stIntegrity (putChunk c { k with refused := k.refused + 1 } s)
  if k.refused < 3 then s
  else dropChunk c k.number ((openReceivers c k.number s).foldl (fun s m => endMemberAlone c m.li stIntegrity s) s)

/-- A SEAL arrives at a part that receives the chunk: its staged copy is checked and the SEAL goes on to its members
(R169). -/
def partSealArrives (c : Coll) (k : CollChunk) (f : Frame) (s : State) : State :=
  if k.sealFrom.isSome then s
  else if k.result && decide (crcChunk (resultBytes c k s) = slotNat f 0 8) || decide (c.call.op = 6) then
    settleChunk c k.number (pumpSeals c (putChunk c { k with result := true, sealFrom := some f } s))
  else refuseSeal c k f s

/-- SEAL: to the end-point as a member where it carries SIGNAL_FA, else to the part (R163, R168, R169, R173, R175, R178).
The end-point that has no room for the chunk answers RETRY_BUSY. -/
def sealArrives (f : Frame) (s : State) : State :=
  if slotNat f 8 8 ≠ 0 then
    match takeLanded f s with
    | (some l, s) => putLanded f { l with seals := l.seals ++ [(f, s.clock)] } s
    | (none, s) => sealAnswer f stRetryBusy s
  else match collByTag f.stream f.be.toNat s with
    | none => if isEarly f s then holdFrame f s else sealAnswer f stOk s
    | some c =>
      match chunkAt c f s with
      | .here k => partSealArrives c k f (fanOnward c f s)
      | .past => sealAnswer f stOk (fanOnward c f s)
      | .ahead => holdFrame f s

/-- The bytes of a chunk a member holds, in ascending address. -/
def landedBytes (l : Landed) (s : State) : List Byte :=
  ((sortBy (fun r => r.1) l.ranges).map (fun r => readMem s r.1 r.2)).flatten

/-- The end-point answers the first SEAL that waits: a matching CRC adds 1 to the word at SIGNAL_FA, once for a chunk; after
another answer the next SEAL waits for the resent bytes (R169, R173, R174). -/
def answerSeal (l : Landed) (f : Frame) (s : State) : State :=
  let l := { l with seals := l.seals.tail }
  if l.signalled then sealAnswer f stOk (putLanded f l s)
  else if crcChunk (landedBytes l s) = slotNat f 0 8 ∧ rangeTotal l.ranges = slotNat f 16 4 then
    let a := slotNat f 8 8 % 2 ^ 48
    sealAnswer f stOk (storeBytes a (bytesOfNat 8 ((readNat s a 8 + 1) % 2 ^ 64)) (putLanded f { l with signalled := true } s))
  else sealAnswer f stIntegrity (putLanded f { l with ranges := [] } s)

/-- The record of a chunk by group, with the first SEAL that waits for its answer. -/
def sealWaiting (g epoch chunk : Nat) (s : State) : Option (Landed × Frame × Nat) :=
  (s.caravan.landed.find? (fun l =>
    decide (l.tag = grpTag g s ∧ l.epoch = epoch ∧ l.chunk = chunk % 2 ^ 22))).bind (fun l =>
      l.seals.head?.map (fun x => (l, x.1, x.2)))

/-- SEAL_SIGNAL: all bytes of the chunk have landed at this part's end-point (R169, R174). -/
def execSealSignal (g : Fin 256) (epoch : BitVec 8) (chunk : Nat) (s : State) : Host.Outcome State Fault Refusal :=
  act s (fun s =>
    match sealWaiting g.val epoch.toNat chunk s with
    | some (l, f, _) => if l.signalled = true ∨ slotNat f 16 4 ≤ rangeTotal l.ranges then answerSeal l f s else s
    | none => s)

/-- SEAL_WAIT_TIMEOUT: 2 ms after the SEAL the end-point answers with what has landed (R169). -/
def execSealWaitTimeout (g : Fin 256) (epoch : BitVec 8) (chunk : Nat) (s : State) : Host.Outcome State Fault Refusal :=
  act s (fun s =>
    match sealWaiting g.val epoch.toNat chunk s with
    | some (l, f, t) => if due (t + 2000000) s then answerSeal l f s else s
    | none => s)

/-- Sends a chunk, if it is asked for, and its SEAL to a receiver again (R171). -/
def resendTo (c : Coll) (k : CollChunk) (w : SealWait) (data : Bool) (s : State) : State :=
  let e := w.eid
  if eidPart e = (partId s).toNat then
    match c.members.find? (fun m => decide (selfEid m.li s = e)) with
    | some m => sendMemberSeal c k.number m w (whenTrue data (deliverTo c k.number m) s)
    | none => s
  else
    let n := resultLen c k s
    let part := ((List.range (grpParts c.group s)).find? (fun i => decide (partEid c.group i s = e))).getD 0
    let h := spreadHalf c.group c.call k.number part 4 false s
    let s := if data then spreadTo c k false (e, 4, h, n - h) (spreadTo c k false (e, 4, 0, min h n) s) else s
    sendColl (partSeal c k e s) s

/-- A receiver has not accepted a SEAL: it is repeated up to three times, after the chunk where that disagreed; then the
member ends alone, and a part's silence ends the collective (R171, R176, R177; log entry 39). -/
def sealFailed (c : Coll) (k : CollChunk) (w : SealWait) (silent : Bool) (s : State) : State :=
  if w.repeats < 3 then
    let w := { w with sentAt := s.clock, repeats := w.repeats + 1 }
    resendTo c k w (!silent) (whenTrue (!silent) (setFlag rCvnStatus 4) (putChunk c (putWait w k) s))
  else if eidPart w.eid = (partId s).toNat then
    settleChunk c k.number (endMemberAlone c (localIndex w.eid) (if silent then stMemberLost else stIntegrity) s)
  else if silent then failColl c stMemberLost s
  else settleChunk c k.number (putChunk c (putWait { w with ok := true } k) s)

/-- A member has signalled a chunk (R169, R174). -/
def memberSignalled (c : Coll) (li n : Nat) (s : State) : State :=
  match findColl c.group c.epoch s with
  | none => s
  | some c =>
    let up := fun (m : CollMember) => { m with signalled := m.signalled + 1 }
    let c := { c with members := updAll (fun m => decide (m.li = li)) up c.members }
    completeMembers c (settleChunk c n (pumpSeals c (putColl c s)))

/-- An answer to a SEAL (R165, R169, R171, R174, R176). -/
def sealAnswered (c : Coll) (k : CollChunk) (w : SealWait) (st : Byte) (s : State) : State :=
  if st = stOk then
    let s := putChunk c (putWait { w with ok := true } k) s
    if eidPart w.eid = (partId s).toNat then memberSignalled c (localIndex w.eid) k.number s
    else settleChunk c k.number s
  else if st = stIntegrity then sealFailed c k w false s
  else if st = stUnreachable then failColl c stMemberLost s
  else s

/-- The collective and chunk whose SEAL a STORE_ACK answers: it bears the group's tag and the chunk, and its sender has
one outstanding (log entry 43). -/
def findSealed (f : Frame) (s : State) : Option (Coll × CollChunk × SealWait) :=
  let inChunk := fun (k : CollChunk) =>
    if k.number % 2 ^ 22 = frameChunk f then (k.seals.find? (fun w => decide (w.eid = f.src) && !w.ok)).map (fun w => (k, w))
    else none
  (s.caravan.colls.filter (fun c => decide (grpTag c.group s = f.stream))).findSome? (fun c =>
    (c.chunks.findSome? inChunk).map (fun x => (c, x)))

/-! ### VOID (R165, R168, R170, R173, R176) -/

/-- A VOID of one attempt at a receiver: it is recorded and goes on to the local members (R170). -/
def voidChunk (c : Coll) (k : CollChunk) (f : Frame) (s : State) : State :=
  let n := (slotNat f 20 1) + 1
  let k := if k.voided < n then
      { k with voided := n, attempt := n, result := false, got := [], owed := [], sealFrom := none, refused := 0,
               seals := [] }
    else k
  let s := putChunk c k s
  (openReceivers c k.number s).foldl (fun s m =>
    sendColl { f with dst := selfEid m.li s, src := selfEid 0 s, mcast := false, mslot := 0 } s) s

/-- The end-point as a member drops a voided attempt and answers its SEALs no more (R170, R178). -/
def voidLanded (f : Frame) (s : State) : State :=
  match takeLanded f s with
  | (none, s) => s
  | (some l, s) =>
    let n := slotNat f 20 1 + 1
    if l.voided < n then putLanded f { l with voided := n, ranges := [], seals := [] } s else s

/-- A VOID that ends the whole collective (R170). -/
def isGroupVoid (f : Frame) : Bool := decide (slotNat f 20 1 = 3 ∧ frameChunk f = 2 ^ 22 - 1)

/-- SEALs of a collective that have been delivered and not yet taken go before its group-wide VOID of the same cycle
(R173). -/
def sealsFirst (f : Frame) (s : State) : State :=
  if !(isGroupVoid f) then s
  else
    let l := (s.tgt.arrived.map (·.2)).filter (fun g => decide (g.ty = tySeal ∧ g.stream = f.stream ∧ g.be = f.be))
    l.foldl (fun s g => collArrives g (sealArrives g) s) s

/-- VOID: group-wide it ends the collective, else one attempt of a chunk (R163, R168, R170, R176). -/
def voidArrives (f : Frame) (s : State) : State :=
  if f.src = selfEid 0 s then voidLanded f s
  else match collByTag f.stream f.be.toNat s with
    | none => keepEarly f s
    | some c =>
      if isGroupVoid f then endColl c (BitVec.ofNat 8 (slotNat f 21 1)) (fanOnward c f s)
      else match chunkAt c f s with
        | .here k => voidChunk c k f (fanOnward c f s)
        | .past => fanOnward c f s
        | .ahead => holdFrame f s

/-! ### Frames that waited (R163; log entry 40) -/

/-- A frame that waited may take its effect, or has none any more: its chunk is in the window or done, or its collective
is over. -/
def ripe (f : Frame) (s : State) : Bool :=
  match collByTag f.stream f.be.toNat s with
  | none => !(isEarly f s)
  | some c => isGroupVoid f || (match chunkAt c f s with
    | .ahead => false
    | _ => true)

/-- What a frame that waited does. -/
def takeHeld (f : Frame) (s : State) : State :=
  if f.ty = tyRoomCall then offerArrives f s
  else if f.ty = tySeal then sealArrives f s
  else if f.ty = tyVoid then voidArrives f s
  else collResult f s

/-- The frames that waited and may take their effect take it, in the order in which they came. -/
def drainHeld : Nat → State → State
  | 0, s => s
  | n + 1, s =>
    match s.caravan.early.find? (fun f => ripe f s) with
    | none => s
    | some f => drainHeld n (takeHeld f { s with caravan.early := eraseFirst (fun x => decide (x = f)) s.caravan.early })

/-- A caravan effect that may move a window on: the frames that waited for it follow. -/
def withHeld (f : State → State) (s : State) : State :=
  let s := f s
  drainHeld s.caravan.early.length s

/-! ### Starting and resuming (R38, R89, R153) -/

/-- A waiting COLL_START is the first of its queue. -/
def firstOfQueue (w : CollWaiting) (s : State) : Bool :=
  decide (s.caravan.waiting.find? (fun x => decide (x.member.queue = w.member.queue)) = some w)

/-- The next collective of a group starts once every local member has submitted, in each queue's ring order; it takes the
next EPOCH, and what the end-point kept of an older one of that EPOCH goes (R89, R153, R178; log entry 68). -/
def collectiveStart (g : Nat) (s : State) : State :=
  let turn := turnEntries g 0 s
  match turn with
  | [] => s
  | w :: _ =>
    if turn.length ≠ localCount g s ∨ inReset .ary s = true ∨ turn.all (fun w => firstOfQueue w s) = false then s
    else
      let e := grpEpoch g s
      let c : Coll :=
        { group := g, epoch := e, startedAt := s.clock, call := w.call, members := turn.map (fun x => x.member),
          admitted := none, depth := 0, grant := 0, staging := [], next := 0, chunks := [] }
      let gone := fun (x : CollWaiting) => turn.any (fun y => decide (y = x))
      let old := fun (l : Landed) => decide (l.tag = grpTag g s ∧ l.epoch = e)
      putReg (rGroup g + 0x10) (BitVec.ofNat 64 ((e + 1) % 256))
        { s with caravan.waiting := s.caravan.waiting.filter (fun x => !(gone x)),
                 caravan.colls := s.caravan.colls ++ [c],
                 caravan.landed := s.caravan.landed.filter (fun l => !(old l)),
                 tenant.collsUsed := tblSet 0 s.tenant.collsUsed g (tblGet 0 s.tenant.collsUsed g + 1) }

/-- A queue's collectives take up again what waited for a page: a member's pieces, then the SEAL that follows them (R38,
R43). -/
def resumeMember (c : Coll) (m : CollMember) (s : State) : State :=
  let owing := c.chunks.filter (fun k => owedTo k m)
  let s := owing.foldl (fun s k => payMember c k.number m s) s
  let s := owing.foldl (fun s k =>
    match (chunkNow c k.number s).bind (fun x => x.2.seals.find? (fun w => decide (w.eid = selfEid m.li s) && !w.ok)) with
    | some w => sendMemberSeal c k.number m { w with sentAt := s.clock } s
    | none => s) s
  pumpMember c m s

/-- REQUEST_ISSUE of a CARAVAN queue that works: its collectives take up what waited (R38, R43). -/
def caravanIssue (q : Fin 512) (s : State) : State :=
  if !(working q.val s) then s
  else s.caravan.colls.foldl (fun s c =>
    (c.members.filter (fun m => decide (m.queue = q) && m.status.isNone)).foldl (fun s m => resumeMember c m s) s) s

/-! ### The caravan's commands -/

/-- COLLECTIVE_START (R89, R153). -/
def execCollectiveStart (g : Fin 256) (s : State) : Host.Outcome State Fault Refusal :=
  act s (withHeld (collectiveStart g.val))

/-- COLLECTIVE_ADMIT (R163). -/
def execCollectiveAdmit (s : State) : Host.Outcome State Fault Refusal := act s (withHeld collectiveAdmit)

/-- REQUEST_ISSUE: of a porter queue or a window its next request, of a caravan queue what waited for a page (R38, R58, R94,
R104, R111). -/
def execRequestIssue (who : Requester) (s : State) : Host.Outcome State Fault Refusal :=
  act s (fun s =>
    match who with
    | .queue q => if qEngine q.val s = engCaravan then caravanIssue q s else requestIssue who s
    | .window _ => requestIssue who s)

/-- OFFER (R154). -/
def execOffer (f : Frame) (s : State) : Host.Outcome State Fault Refusal :=
  act s (whenTrue (decide (f.ty = tyRoomCall ∧ slotNat f 0 1 = 1)) (collArrives f (withHeld (offerArrives f))))

/-- INVITE (R160, R164, R166, R178). -/
def execInvite (f : Frame) (s : State) : Host.Outcome State Fault Refusal :=
  act s (whenTrue (decide (f.ty = tyRoomCall ∧ slotNat f 0 1 = 2)) (collArrives f (withHeld (inviteArrives f))))

/-- STEP_RESULT_STAGED (R156, R158, R159, R163, R165, R167, R227). -/
def execStepResultStaged (g : Fin 256) (epoch : BitVec 8) (st : CollStep) (s : State) :
    Host.Outcome State Fault Refusal :=
  act s (fun s =>
    match rowStep g.val epoch.toNat st s with
    | none => s
    | some (c, k, x) => withHeld (stepResult c k x) s)

/-- COLL_RESULT (R156, R158, R160, R167, R170, R178). -/
def execCollResult (f : Frame) (s : State) : Host.Outcome State Fault Refusal :=
  act s (whenTrue (decide (f.ty = tyCollResult)) (collArrives f (withHeld (collResult f))))

/-- CHUNK_READBACK_DONE (R167, R168, R170, R173, R175). -/
def execChunkReadbackDone (g : Fin 256) (epoch : BitVec 8) (chunk : Nat) (clean : Bool) (s : State) :
    Host.Outcome State Fault Refusal :=
  act s (fun s =>
    match (findColl g.val epoch.toNat s).bind (fun c => (findChunk c chunk).map (fun k => (c, k))) with
    | none => s
    | some (c, k) => withHeld (readbackDone c k clean) s)

/-- SEAL (R168, R169, R171, R173, R175, R178). -/
def execSeal (f : Frame) (s : State) : Host.Outcome State Fault Refusal :=
  act s (whenTrue (decide (f.ty = tySeal)) (collArrives f (withHeld (sealArrives f))))

/-- The answer to a SEAL, or to one of the part's stores (R106, R108, R134, R165, R169, R171, R174, R176, R355, R441). -/
def storeAckArrives (f : Frame) (s : State) : State :=
  match findSealed f s with
  | some (c, k, w) => collArrives f (withHeld (fun s => pumpGroup c.group (sealAnswered c k w f.be s))) s
  | none => responseArrives f s

/-- STORE_ACK (R108, R169). -/
def execStoreAck (f : Frame) (s : State) : Host.Outcome State Fault Refusal :=
  act s (whenTrue (decide (f.ty = tyStoreAck)) (storeAckArrives f))

/-- SEAL_REPEAT_TIMEOUT: no answer 5 ms after a SEAL (R171). -/
def execSealRepeatTimeout (g : Fin 256) (epoch : BitVec 8) (chunk : Nat) (eid : BitVec 16) (s : State) :
    Host.Outcome State Fault Refusal :=
  act s (fun s =>
    match (findColl g.val epoch.toNat s).bind (fun c => (findChunk c chunk).bind (fun k =>
        (k.seals.find? (fun w => decide (w.eid = eid) && !w.ok)).map (fun w => (c, k, w)))) with
    | none => s
    | some (c, k, w) =>
      if due (w.sentAt + 5000000) s then withHeld (fun s => pumpGroup g.val (sealFailed c k w true s)) s else s)

/-- VOID (R168, R170, R173, R176). -/
def execVoid (f : Frame) (s : State) : Host.Outcome State Fault Refusal :=
  act s (whenTrue (decide (f.ty = tyVoid)) (fun s => collArrives f (withHeld (voidArrives f)) (sealsFirst f s)))

/-! ### Groups and quotas (R150, R152, R162) -/

/-- A write to a word of a group descriptor: refused while a collective of the group is in flight (R152). -/
def writeGroup (g word : Nat) (v : Word) (s : State) : State :=
  if s.caravan.colls.any (fun c => decide (c.group = g)) then refuse bCVN rCvnStatus 5 s
  else
    let o := rGroup g + 8 * word
    putReg o (written o v s) s

/-- GROUP_WRITE (R150, R152). -/
def execGroupWrite (side : Side) (g : Fin 256) (word : Fin 3) (val : Word) (s : State) :
    Host.Outcome State Fault Refusal :=
  act s (fun s => guarded side bCVN false .ary s (writeGroup g.val word.val val))

/-- A write to a room quota: refused where the FLOORs would exceed 5,120 or FLOOR exceeds MAX (R162). -/
def writeQuota (n : Nat) (v : Word) (s : State) : State :=
  let o := rRoomQuota n
  let new := written o v s
  let others := (List.range 64).foldl (fun t k => if k = n then t else t + quotaFloor k s) 0
  if 5120 < others + wfield new 12 0 ∨ wfield new 28 16 < wfield new 12 0 then refuse bCVN rCvnStatus 6 s
  else putReg o new s

/-- QUOTA_WRITE (R162). -/
def execQuotaWrite (side : Side) (n : Fin 64) (val : Word) (s : State) : Host.Outcome State Fault Refusal :=
  act s (fun s => guarded side bCVN false .ary s (writeQuota n.val val))

/-- A partition's collectives end with the group-wide VOID when it is fenced (R176, R358). -/
def fenceColls (p : Byte) (st : Byte) (s : State) : State :=
  (s.caravan.colls.filter (fun c => decide (grpPart c.group s = p))).foldl (fun s c => failColl c st s) s

/-- Every collective of the part ends with OUT_OF_SERVICE where an effect has put the part out of service (R176, R391). -/
def settleOos (f : State → State) (s : State) : State :=
  let t := f s
  if !s.power.oos && t.power.oos then t.caravan.colls.foldl (fun s c => failColl c stOos s) t else t

end Sys2Proof.Machine
end

