-- ==== Sys2Proof/Machine/Lanes.lean ====
section
/-! DEFINITION. The lanes and the line code of a Zhoan link: PAM4 levels, blocks, scrambling, codewords, dealing to lanes,
alignment blocks, deskew, test patterns (R290 to R294, R311, R314). What a port exchanges with its partner is held flit by
flit; the functions here say which bits and levels that is. -/
namespace Sys2Proof.Machine

/-! ### Symbols (R290) -/

/-- The level of a pair of bits, the first the more significant: Gray coding (R290). -/
def pamLevel (hi lo : Bool) : Int :=
  match hi, lo with
  | false, false => -3
  | false, true => -1
  | true, true => 1
  | true, false => 3

/-- The levels a lane sends for some bits, in order (R290). -/
def pamLevels : List Bool → List Int
  | a :: b :: t => pamLevel a b :: pamLevels t
  | _ => []

/-! ### Blocks and scrambling (R291) -/

/-- The bits of a number from bit 0 on. -/
def bitsLow : Nat → Nat → List Bool
  | 0, _ => []
  | n + 1, v => decide (v % 2 = 1) :: bitsLow n (v / 2)

/-- The bits of a number from the most significant of `n` on. -/
def bitsHigh (n v : Nat) : List Bool := (bitsLow n v).reverse

/-- The number that bits spell, the first the most significant. -/
def natOfBits (l : List Bool) : Nat := l.foldl (fun n b => 2 * n + bit1 b) 0

/-- One bit through the scrambler x^58 + x^39 + 1: what is sent, and the last 58 bits sent, newest first (R291). -/
def scrambleBit (reg : List Bool) (b : Bool) : Bool × List Bool :=
  let y := (b ^^ reg.getD 38 false) ^^ reg.getD 57 false
  (y, (y :: reg).take 58)

/-- Bits through the scrambler (R291). -/
def scramble : List Bool → List Bool → List Bool × List Bool
  | [], reg => ([], reg)
  | b :: t, reg =>
    let r := scrambleBit reg b
    let q := scramble t r.2
    (r.1 :: q.1, q.2)

/-- Bits received through the descrambler, which restores its register from what it receives (R291). -/
def descramble : List Bool → List Bool → List Bool × List Bool
  | [], reg => ([], reg)
  | y :: t, reg =>
    let q := descramble t ((y :: reg).take 58)
    (((y ^^ reg.getD 38 false) ^^ reg.getD 57 false) :: q.1, q.2)

/-- A data block: header 1, then its 32 bytes, byte `i` at bits 8i + 1 to 8i + 8, least significant bit first, scrambled
(R291). -/
def dataBlock (payload : Slot) (reg : List Bool) : List Bool × List Bool :=
  let r := scramble (bitsLow 256 payload.toNat) reg
  (true :: r.1, r.2)

/-- A control block: header 0, its payload as it is (R291). -/
def controlBlock (payload : Slot) : List Bool := false :: bitsLow 256 payload.toNat

/-! ### Codewords (R291) -/

/-- A product in GF(2^10) with the primitive polynomial x^10 + x^3 + 1 (R291). -/
def gfMul (a b : Nat) : Nat :=
  (List.range 10).foldr (fun i r =>
    let d := 2 * r
    let d := if 1024 ≤ d then Nat.xor d 0x409 else d
    if (b / 2 ^ i) % 2 = 1 then Nat.xor d a else d) 0

/-- The powers of the primitive element. -/
def gfPow : Nat → Nat
  | 0 => 1
  | n + 1 => gfMul (gfPow n) 2

/-- The product of a polynomial, leading coefficient first, with x + c. -/
def gfTimesRoot (p : List Nat) (c : Nat) : List Nat :=
  (p ++ [0]).zipWith Nat.xor (0 :: p.map (fun x => gfMul x c))

/-- The generator of RS(544,514): its roots are the first 30 powers of the primitive element (PRESUMED, log
entry 47: R291 does not name them). -/
def rsGenerator : List Nat := (List.range 30).foldl (fun p i => gfTimesRoot p (gfPow i)) [1]

/-- The parity of message symbols: the remainder of the message times x^30, the first symbol at the highest power. -/
def rsParity (message : List Nat) : List Nat :=
  message.foldl (fun r m =>
    let c := Nat.xor m (r.getD 0 0)
    (r.drop 1 ++ [0]).zipWith (fun x g => Nat.xor x (gfMul c g)) (rsGenerator.drop 1)) (List.replicate 30 0)

/-- Bits cut into symbols of 10, the first bit of each the most significant (R291). -/
def symbolsOf : Nat → List Bool → List Nat
  | 0, _ => []
  | n + 1, l => natOfBits (l.take 10) :: symbolsOf n (l.drop 10)

/-- The codeword of twenty blocks: 514 message symbols and 30 of parity (R291). -/
def codeword (blocks : List (List Bool)) : List Nat :=
  let m := symbolsOf 514 blocks.flatten
  m ++ rsParity m

/-- The bits a lane sends for a codeword, from its first to its last (R290, R291). -/
def codewordBits (w : List Nat) : List Bool := (w.map (bitsHigh 10)).flatten

/-- At how many places two codewords differ. -/
def symbolErrors (sent got : List Nat) : Nat :=
  ((sent.zip got).filter (fun x => decide (x.1 ≠ x.2))).length

/-- A codeword with this many symbol errors cannot be corrected (R291). -/
def uncorrectable (wrong : Nat) : Bool := decide (15 < wrong)

/-- What the decoder makes of a received codeword: the one sent, if at most 15 symbols differ (R291). -/
def rsDecode (sent got : List Nat) : Option (List Nat) :=
  if uncorrectable (symbolErrors sent got) then none else some sent

/-! ### Lanes (R292, R293, R294) -/

/-- The lanes of a mask, in ascending number. -/
def lanesOf (m : Byte) : List Nat := (List.range 8).filter (fun l => m.getLsbD l)

/-- The stream of a port dealt to its active lanes: block `j` to lane `j` mod `w` of them (R292). -/
def dealBlocks {α : Type} (lanes : List Nat) (stream : List α) : List (Nat × List α) :=
  lanes.mapIdx (fun i l =>
    (l, (stream.zipIdx.filter (fun x => decide (x.2 % lanes.length = i))).map (·.1)))

/-- The stream gathered again from `n` blocks dealt to lanes, given in ascending number (R292). -/
def gatherBlocks {α : Type} (dealt : List (List α)) (n : Nat) : List α :=
  (List.range n).filterMap (fun j => (dealt.getD (j % dealt.length) [])[j / dealt.length]?)

/-- The lanes a port's blocks are dealt to, in ascending number (R292). -/
def activeLanes (p : Nat) (s : State) : List Nat := lanesOf (linkOf p s).active

/-- The pattern in an alignment block's first 8 bytes (R293). -/
abbrev comma : Nat := 0xF0C3A55A3C0F96E1

/-- An alignment block (R293). -/
def alignBlock (lane : Nat) (mask : Byte) (marker id port : Nat) (wake : Bool) : Slot :=
  BitVec.ofNat 256 (comma + lane % 256 * 2 ^ 64 + mask.toNat * 2 ^ 72 + marker % 2 ^ 48 * 2 ^ 80 +
    id % 2 ^ 16 * 2 ^ 128 + port % 256 * 2 ^ 144 + bit1 wake * 2 ^ 152)

/-- The codewords a port has sent on each lane since its training began: one each 17.0 ns, or 34.0 ns at 160 Gb/s
(R291, R315). -/
def codewordsSent (p : Nat) (s : State) : Nat :=
  (s.clock - (linkOf p s).beganAt) / (if (linkOf p s).rate160 then 34 else 17)

/-- The alignment blocks a port has sent since its training began, which MARKER counts; it runs on in electrical idle
(R293, R310). -/
def markerOf (p : Nat) (s : State) : Nat := (codewordsSent p s + 4095) / 4096

/-- Block 0 of every 4,096th codeword of a lane is an alignment block (R293). -/
def alignsAt (n : Nat) : Bool := decide (n % 4096 = 0)

/-- The lanes a port sends on: those in use, or all of them while it trains. -/
def sendMask (p : Nat) (s : State) : Byte :=
  if (linkOf p s).active = 0 then 0xFF else (linkOf p s).active

/-- The alignment block a port sends on a lane, and the one of a wake codeword (R293, R311). -/
def sentAlign (p lane : Nat) (wake : Bool) (s : State) : Slot :=
  alignBlock lane (sendMask p s) (markerOf p s) (partId s).toNat p wake

/-- The burst that wakes a link: 2,048 symbols, a 1010 pattern at the outer levels (R311). -/
def wakeBurst : List Int := (List.range 2048).map (fun i => if i % 2 = 0 then 3 else -3)

/-- LANE, WIDTH_MASK and MARKER of an alignment block received (R293). -/
def alignLane (b : Slot) : Nat := (slotByte b 8).toNat
def alignMask (b : Slot) : Byte := slotByte b 9
def alignMarker (b : Slot) : Nat := field b.toNat 127 80

/-- A block that gives its lane an identity: COMMA, and a LANE in WIDTH_MASK that no other lane gives (R294). -/
def laneNamed (l : List AlignRx) (x : AlignRx) : Bool :=
  decide (field x.block.toNat 63 0 = comma) && decide (alignLane x.block < 8) &&
    (alignMask x.block).getLsbD (alignLane x.block) &&
    decide ((l.filter (fun y => decide (alignLane y.block = alignLane x.block))).length = 1)

/-- The lanes that deskew, each with the number its partner calls it: those named whose blocks carry the MARKER of the
lowest of them and came at most 32 ns after the earliest of these (R294; which lane fails where two are too far apart:
log entry 48). -/
def deskewLanes (l : List AlignRx) : List (Nat × Nat) :=
  let named := sortBy (fun x => alignLane x.block) (l.filter (laneNamed l))
  match named with
  | [] => []
  | first :: _ =>
    let same := named.filter (fun x => decide (alignMarker x.block = alignMarker first.block))
    let t0 := same.foldl (fun t x => min t x.at_) first.at_
    (same.filter (fun x => decide (x.at_ ≤ t0 + 32))).map (fun x => (x.lane.val, alignLane x.block))

/-- The lanes that passed, by the numbers their partner calls them (R294, R304). -/
def laneMask (l : List (Nat × Nat)) : Byte :=
  l.foldl (fun m x => m ||| BitVec.ofNat 8 (2 ^ x.2)) 0

/-! ### Test patterns (R314) -/

/-- The next bit of a shift register with two to four taps, oldest bit at place `n - 1`, and the register after it. -/
def lfsrStep (n : Nat) (taps : List Nat) (r : Nat) : Bool × Nat :=
  let b := taps.foldl (fun x i => x ^^ decide ((r / 2 ^ i) % 2 = 1)) false
  (b, (2 * r + bit1 b) % 2 ^ n)

/-- `k` bits of a test pattern from a register: PRBS13, x^13 + x^12 + x^2 + x + 1, or PRBS31, x^31 + x^28 + 1 (R314). -/
def testBits (prbs31 : Bool) : Nat → Nat → List Bool
  | 0, _ => []
  | k + 1, r =>
    let x := if prbs31 then lfsrStep 31 [30, 27] r else lfsrStep 13 [12, 11, 1, 0] r
    x.1 :: testBits prbs31 k x.2

/-- The pattern generator runs on a lane: test mode, GEN on, the lane in LANE_MASK (R313, R314). -/
def generating (p l : Nat) (s : State) : Bool :=
  getBit (rPrtTest p) 63 s && getBit (rPrtTest p) 62 s && getBit (rPrtTest p) (48 + l) s

/-- The levels a lane under test sends from a register of the generator: its bits Gray-coded, without a line code
(R314). -/
def testLevels (p l k r : Nat) (s : State) : List Int :=
  if generating p l s then pamLevels (testBits (getBit (rPrtTest p) 58 s) k r) else []

end Sys2Proof.Machine
end

