-- ==== Sys2Proof/Machine/Switch.lean ====
section
/-! DEFINITION. The switch core: checks, metering, routing, the frame buffer, departure, ageing, the audit, the
congestion maps and the SWC and RTE registers with actions (R256 to R289). -/
namespace Sys2Proof.Machine

/-! ### Configuration read from the registers -/

/-- The code of a port's state (R305). -/
def PortState.code : PortState → Nat
  | .down => 0
  | .detect => 1
  | .calibrate => 2
  | .align => 3
  | .fecLock => 4
  | .deskew => 5
  | .linkInit => 6
  | .active => 7
  | .idle => 8
  | .retrain => 9
  | .degraded => 10
  | .lost => 11

/-- The role of a port: 0 UNUSED, 1 END, 2 TORUS, 3 GATEWAY (R16). -/
def portRole (p : Nat) (s : State) : Nat := getField (rPrtCfg p) 57 56 s

/-- The route group of a TORUS port, 1 to 6 (R18, R281); 0 for every other port. -/
def portGroup (p : Nat) (s : State) : Nat := if portRole p s = 2 then tblGet 0 s.img.groups p else 0

/-- The usable links of a route group, in ascending port order (R268). -/
def usableLinks (g : Nat) (s : State) : List Nat :=
  (List.range 36).filter (fun p => decide (portGroup p s = g) && portUsable p s)

/-- A core input where frames enter the fabric (R275, R287). -/
def entersFabric (input : Nat) (s : State) : Bool :=
  decide (36 ≤ input) || decide (portRole input s = 1 ∨ portRole input s = 3)

/-- RSV and CAP of a class, at least 9 (R260). -/
def classRsv (c : Nat) (s : State) : Nat := max 9 (getField (rSwcClassCfg c) 7 0 s)
def classCap (c : Nat) (s : State) : Nat := max 9 (getField (rSwcClassCfg c) 31 16 s)

/-- WEIGHT of a class; 0 acts as 1 (R260). -/
def classWeight (c : Nat) (s : State) : Nat := max 1 (getField (rSwcClassCfg c) 47 44 s)

/-- The lifetime of a class in ns (R257): none for TIME. -/
def lifetime (c : BitVec 3) : Option Nat :=
  if c = clTime then none else if c = clMgmt then some 10000000 else if c = clBulk then some 500000
  else some 2000000

/-! ### The checks of R258 -/

/-- The class or classes a type travels in (R257). -/
def classAllowed (f : Frame) : Bool :=
  if f.ty = tyMgmt then decide (f.cls = clMgmt ∨ f.cls = clDiag) || (decide (f.cls = clTime) && decide (f.len = 0))
  else if f.ty = tyRoomCall ∨ f.ty = tySeal ∨ f.ty = tyVoid then decide (f.cls = clCall)
  else if f.ty = tyLoadRsp ∨ f.ty = tyStoreAck ∨ f.ty = tyAtomicRsp ∨ f.ty = tyBulkAck ∨ f.ty = tyStatusRsp then
    decide (f.cls = clRsp)
  else if f.ty = tyLoad ∨ f.ty = tyStore ∨ f.ty = tyFlagged ∨ f.ty = tyAtomic ∨ f.ty = tyQuery then
    decide (f.cls = clReq)
  else if f.ty = tyCollData ∨ f.ty = tyCollResult then decide (f.cls = clColl)
  else decide (f.ty = tyBulk ∧ f.cls = clBulk)

/-- A replicated frame: SEAL, VOID or MGMT with the multicast flag (R270). Time frames are never replicated
(R424). -/
def isReplicated (f : Frame) : Bool :=
  f.mcast && decide (f.ty = tySeal ∨ f.ty = tyVoid ∨ f.ty = tyMgmt)

/-- The fields of the multicast slot (R271). -/
def mcMask (m : Slot) : Nat := field m.toNat 63 0
def mcMode (m : Slot) : Nat := (slotByte m 8).toNat
def mcAxis (m : Slot) : Nat := (slotByte m 9).toNat
def mcPlus (m : Slot) : Nat := (slotByte m 10).toNat
def mcMinus (m : Slot) : Nat := (slotByte m 11).toNat
def mcBox (m : Slot) : Nat := field m.toNat 119 96

/-- A time frame's kind is TIME_QUERY or TIME_REPLY, with no multicast slot and no trailer (R424). -/
def timeFrameOk (f : Frame) : Bool :=
  !(decide (f.cls = clTime)) || (decide (f.be = 1 ∨ f.be = 2) && !f.mcast && !f.enc && decide (f.part = 0))

/-- The faults that make the core discard a frame (R258, R424). -/
def badFrame (f : Frame) : Bool :=
  !f.crcOk || !(classAllowed f) || !(timeFrameOk f) || decide (64 < f.len.toNat) ||
  (isReplicated f &&
    (decide (1 < mcMode f.mslot) || (decide (mcMode f.mslot = 1) && decide (2 < mcAxis f.mslot)) ||
     (decide (mcMode f.mslot = 0) &&
       decide (field (mcBox f.mslot) 11 8 = 0 ∨ field (mcBox f.mslot) 7 4 = 0 ∨ field (mcBox f.mslot) 3 0 = 0))))

/-! ### BULK meters (R275) -/

/-- A bucket's shortfall after the time since it was last filled, at a rate in MB/s. -/
def refill (short rate dt : Nat) : Nat := short - rate * dt

/-- The colour a meter gives a frame of `bytes`, and its buckets afterwards: the two-rate three-colour marker in
colour-blind mode. -/
def meterColour (n bytes : Nat) (s : State) : BitVec 2 × Buckets :=
  let b := tblGet buckets0 s.sw.buckets n
  let w := getReg (rSwcMeter n) s
  let z := getReg (rSwcMeter n + 8) s
  let dt := s.clock - b.last
  let dc := refill b.dc (wfield w 39 16) dt
  let dp := refill b.dp (wfield w 63 40) dt
  let cost := bytes * 1000
  let cbs := wfield z 31 0 * 1000
  let pbs := wfield z 63 32 * 1000
  if pbs < dp + cost then (3, ⟨dc, dp, s.clock⟩)
  else if cbs < dc + cost then (2, ⟨dc, dp + cost, s.clock⟩)
  else (1, ⟨dc + cost, dp + cost, s.clock⟩)

/-- Meters a BULK frame that enters the fabric: the meter is 2 × partition slot + 1 for a GATEWAY port. A partition
without a slot, or a meter that is off, keeps colour 0. -/
def meterFrame (input : Nat) (f : Frame) (s : State) : Frame × State :=
  if f.cls ≠ clBulk ∨ entersFabric input s = false then (f, s)
  else match partSlot f.part s with
    | none => ({ f with colour := 0 }, s)
    | some k =>
      let n := 2 * k + (if input < 36 ∧ portRole input s = 3 then 1 else 0)
      if getBit (rSwcMeter n) 0 s then
        let r := meterColour n (32 * wireSlots f) s
        ({ f with colour := r.1 }, { s with sw.buckets := tblSet buckets0 s.sw.buckets n r.2 })
      else ({ f with colour := 0 }, s)

/-! ### Routing (R268, R272, R273, R281 to R286) -/

/-- The flow hash of R268. -/
def flowHash (f : Frame) : Nat :=
  ((Nat.xor (Nat.xor f.src.toNat f.dst.toNat) (f.cls.toNat * 0x2492)) * 0x9E37) % 65536

/-- The link the hash picks among `l`, taken in the order given. -/
def hashPick (f : Frame) (l : List Nat) : Option Nat := l[flowHash f * l.length / 65536]?

/-- RTE_ENTRY of a destination part (R281). -/
def rteValid (p : Nat) (s : State) : Bool := getBit (rRteEntry p) 15 s
def rteHold (p : Nat) (s : State) : Bool := getBit (rRteEntry p) 16 s
def rtePrimary (p : Nat) (s : State) : Nat := getField (rRteEntry p) 2 0 s
def rteDetour (p : Nat) (s : State) : Nat := getField (rRteEntry p) 10 8 s

/-- What routing gives a frame: a port with the frame as it will leave (VC, detour flag), a switch answer with its
status, or a discard; with whether a detour began. -/
inductive Route where
  | out (port group : Nat) (f : Frame) (detoured : Bool)
  | answered (status : Byte) (noRoute : Bool) (hops : Bool)
  deriving DecidableEq, Repr

/-- The VC on an output group (R286): 1 if the frame came on VC1 through a TORUS port of the same axis, or the hop
crosses the dateline. -/
def vcOn (input group : Nat) (vc dateline : Bool) (s : State) : Bool :=
  let gi := if input < 36 then portGroup input s else 0
  dateline || (vc && decide (gi ≠ 0) && decide ((gi - 1) / 2 = (group - 1) / 2))

/-- Routing of a unicast frame, or of one TREE copy by its destination part (R284, R285). -/
def routeTo (input : Nat) (part : Nat) (f : Frame) (s : State) : Route :=
  if part = (partId s).toNat then
    let i := localIndex f.dst
    if i = 15 then .answered stMalformed false false
    else if !(inService i s) then .answered stUnreachable true false
    else
      let ports := if i = 0 then (List.range 8).map (· + 36) else (localPorts i s).filter (fun p => portUsable p s)
      match hashPick f ports with
      | some p => .out p 0 { f with vc := false } false
      | none => .answered stUnreachable true false
  else if f.hop = 63 then .answered stUnreachable true true
  else if !(rteValid part s) then .answered stUnreachable true false
  else
    let g := rtePrimary part s
    match hashPick f (usableLinks g s) with
    | some p =>
      if g = 0 ∨ g = 7 then .answered stUnreachable true false
      else .out p g { f with vc := vcOn input g f.vc (getBit (rRteEntry part) 3 s) s } false
    | none =>
      let d := rteDetour part s
      if f.detour ∨ d = 7 ∨ d = 0 then .answered stUnreachable true false
      else match hashPick f (usableLinks d s) with
        | some p =>
          .out p d { f with detour := true, vc := vcOn input d f.vc (getBit (rRteEntry part) 11 s) s } true
        | none => .answered stUnreachable true false

/-- The part ID at TREE index `i` of a box: none where RTE_COORD_MAP has no valid entry (R272). -/
def treePart (box i : Nat) (s : State) : Option Nat :=
  let nx := field box 11 8
  let ny := field box 7 4
  let x := (field box 23 20 + i % nx) % max 1 (getField rRteSelf 35 32 s)
  let y := (field box 19 16 + (i / nx) % ny) % max 1 (getField rRteSelf 31 28 s)
  let z := (field box 15 12 + i / (nx * ny)) % max 1 (getField rRteSelf 27 24 s)
  let k := (z * 12 + y) * 12 + x
  let e := field (getReg (rRteCoord (k / 4)) s).toNat (16 * (k % 4) + 15) (16 * (k % 4))
  if e / 2 ^ 15 = 1 then some (e % 4096) else none

/-- The set bits of a TREE mask. -/
def maskBits (m : Nat) : List Nat := (List.range 64).filter (fun i => decide ((m / 2 ^ i) % 2 = 1))

/-- One copy of a replicated frame: its output port, group and the frame it carries. -/
structure Copy where
  port : Nat
  group : Nat
  frame : Frame
  deriving DecidableEq, Repr

/-- What replication gives: copies, bits or copies discarded for want of a route, whether one of them had 63 hops, and
the destinations looked up with whether each took its detour. -/
structure Replicas where
  copies : List Copy
  lost : Nat
  hops : Bool
  ways : List (Nat × Bool)
  deriving DecidableEq, Repr

/-- No copies. -/
def noCopies : Replicas := ⟨[], 0, false, []⟩

/-- A multicast slot with another MASK. -/
def withMask (m : Slot) (mask : Nat) : Slot := BitVec.ofNat 256 ((m.toNat / 2 ^ 64) * 2 ^ 64 + mask)

/-- A multicast slot with other PLUS and MINUS counts. -/
def withCounts (m : Slot) (plus minus : Nat) : Slot :=
  BitVec.ofNat 256 ((m.toNat / 2 ^ 96) * 2 ^ 96 + m.toNat % 2 ^ 80 + (plus % 256) * 2 ^ 80 + (minus % 256) * 2 ^ 88)

/-- Adds one TREE bit to the copy of its group, or makes that copy: one copy to each group (R272). Where the bits of a
group differ, the copy has the detour flag or VC1 if any of them has (log entry 49). -/
def addTreeBit (input : Nat) (f : Frame) (s : State) (i : Nat) (r : Replicas) : Replicas :=
  match treePart (mcBox f.mslot) i s with
  | none => { r with lost := r.lost + 1 }
  | some part =>
    match routeTo input part f s with
    | .answered _ _ h => { r with lost := r.lost + 1, hops := r.hops || h }
    | .out p g f' d =>
      let ways := if g = 0 then r.ways else r.ways ++ [(part, d)]
      if r.copies.any (fun c => decide (c.group = g)) then
        { r with copies := updFirst (fun c => decide (c.group = g))
                  (fun c => { c with frame := { c.frame with
                    mslot := withMask c.frame.mslot (mcMask c.frame.mslot + 2 ^ i),
                    detour := c.frame.detour || f'.detour, vc := c.frame.vc || f'.vc } }) r.copies,
                 ways := ways }
      else
        { r with copies := r.copies ++ [⟨p, g, { f' with mslot := withMask f'.mslot (2 ^ i) }⟩], ways := ways }

/-- The local copy of a LINE frame (R273). -/
def lineLocal (input : Nat) (f : Frame) (s : State) : Replicas :=
  match routeTo input (partId s).toNat f s with
  | .out p g f' _ => { noCopies with copies := [⟨p, g, { f' with mslot := withCounts f'.mslot 0 0 }⟩] }
  | .answered _ _ _ => { noCopies with lost := 1 }

/-- The copy of a LINE frame on one group of its axis: never detoured, and never sent on with 63 hops (R273, R285). -/
def lineCopy (input g : Nat) (f : Frame) (plus minus : Nat) (s : State) : Replicas :=
  if f.hop = 63 then { noCopies with lost := 1, hops := true }
  else match hashPick f (usableLinks g s) with
    | some p => { noCopies with
        copies := [⟨p, g, { f with mslot := withCounts f.mslot plus minus, vc := vcOn input g f.vc false s }⟩] }
    | none => { noCopies with lost := 1 }

/-- The copies of a replicated frame (R272, R273). -/
def replicate (input : Nat) (f : Frame) (s : State) : Replicas :=
  if mcMode f.mslot = 0 then
    (maskBits (mcMask f.mslot)).foldl (fun r i => addTreeBit input f s i r) noCopies
  else
    let a := mcAxis f.mslot
    let l := lineLocal input f s
    let p := if mcPlus f.mslot = 0 then noCopies else lineCopy input (2 * a + 1) f (mcPlus f.mslot - 1) 0 s
    let m := if mcMinus f.mslot = 0 then noCopies else lineCopy input (2 * a + 2) f 0 (mcMinus f.mslot - 1) s
    ⟨l.copies ++ p.copies ++ m.copies, l.lost + p.lost + m.lost, p.hops || m.hops, []⟩

/-! ### The frame buffer (R260, R262, R280) -/

/-- A buffer cell's record. -/
def getCell (i : Nat) (s : State) : BufCell := tblGet bufCell0 s.sw.cells i

/-- The first `n` free cells: the part takes the lowest (log entry 22). -/
def freeCells (n : Nat) (s : State) : List Nat :=
  let rec go (fuel want i : Nat) : List Nat :=
    match fuel with
    | 0 => []
    | fuel + 1 =>
      if want = 0 ∨ 262144 ≤ i then []
      else if (getCell i s).free then i :: go fuel (want - 1) (i + 1) else go fuel want (i + 1)
  go (n + s.sw.cells.length) n 0

/-- Takes cells for a frame that `refs` copies will hold. -/
def takeCells (l : List Nat) (refs : Nat) (s : State) : State :=
  { s with sw.cells := l.foldl (fun t i => tblSet bufCell0 t i ⟨false, refs, false⟩) s.sw.cells }

/-- The frames in the buffer, each once however many copies of it wait (R274). -/
def framesHeld (l : List Buffered) : List Buffered :=
  l.foldl (fun acc e => if acc.any (fun x => decide (x.uid = e.uid)) then acc else acc ++ [e]) []

/-- The cells an input holds on a VC of a class. -/
def heldCells (input : Nat) (c : BitVec 3) (vc : Bool) (s : State) : Nat :=
  (framesHeld (s.sw.buf.filter (fun e => decide (e.input = input ∧ e.frame.cls = c ∧ e.vcIn = vc)))).foldl
    (fun n e => n + e.cells.length) 0

/-- The cells that core inputs 36 to 47 hold beyond their reserves (R260). -/
def corePool (s : State) : Nat :=
  (List.range 192).foldl (fun n k =>
    let c : BitVec 3 := BitVec.ofNat 3 (k / 2)
    n + (heldCells (36 + k / 16) c (decide (k % 2 = 1)) s - classRsv c.toNat s)) 0

/-- The cells of the shared pool that are neither held nor lent (R261, R262). -/
def poolFree (s : State) : Nat :=
  let rsv := 96 * ((List.range 8).foldl (fun n c => n + classRsv c s) 0)
  let lent := s.sw.lent.foldl (fun n e => n + e.2) 0
  262144 - rsv - lent - corePool s

/-- A core input 36 to 47 may hold a frame's cells: at most CAP on a VC, and beyond its reserve only what the shared
pool has (R260). A link's sender keeps to its credits instead (R262). -/
def coreRoom (input : Nat) (f : Frame) (s : State) : Bool :=
  decide (input < 36) ||
    (let held := heldCells input f.cls f.vc s
     let rsv := classRsv f.cls.toNat s
     decide (held + frameCells f ≤ classCap f.cls.toNat s) &&
       (decide (held + frameCells f ≤ rsv) || decide (held + frameCells f - max held rsv ≤ poolFree s)))

/-- The key of a link's VC in the credit tables. -/
def vcKey (port : Nat) (c : BitVec 3) (vc : Bool) : Nat := 16 * port + 2 * c.toNat + bit1 vc

/-- Lends a link's VC up to `n` credits, while the shared pool has free cells, the input holds fewer than CAP cells of
the VC and its reserve and loans stay within CAP (R262). -/
def lendOne (n key : Nat) (s : State) : State :=
  let c := key % 16 / 2
  let room := classCap c s - classRsv c s - tblGet 0 s.sw.lent key
  if classCap c s ≤ heldCells (key / 16) (BitVec.ofNat 3 c) (decide (key % 2 = 1)) s then s
  else
    let loan := min n (min room (poolFree s))
    { s with owed := tblSet 0 s.owed key (tblGet 0 s.owed key + loan),
             sw.lent := tblSet 0 s.sw.lent key (tblGet 0 s.sw.lent key + loan) }

/-- A port whose link has completed LINK_INIT and may be given credits. -/
def takesCredits (k : Link) : Bool := k.inited && !(decide (k.st = .down ∨ k.st = .lost))

/-- For `n` cells freed anywhere in the buffer, every link's VC is lent up to `n` credits, the lowest port and VC first
(R262, log entry 23). -/
def lendAll (n : Nat) (s : State) : State :=
  ((s.links.filter (fun e => takesCredits e.2)).flatMap (fun e => (List.range 16).map (fun v => 16 * e.1 + v))).foldl
    (fun s k => lendOne n k s) s

/-- The cells of a frame are freed: a link gets back one credit for each, where it used credits of its present
LINK_INIT, and loans go out for them (R262). -/
def returnCredits (input : Nat) (c : BitVec 3) (vc paid : Bool) (n : Nat) (s : State) : State :=
  let k := vcKey input c vc
  let s := if input < 36 ∧ paid = true then { s with owed := tblSet 0 s.owed k (tblGet 0 s.owed k + n) } else s
  lendAll n s

/-- Drops one reference to each cell of a frame; a cell without references is free again. The credits go back once
the last copy is gone (R274). -/
def dropCells (e : Buffered) (s : State) : State :=
  let last := e.cells.all (fun i => decide ((getCell i s).refs ≤ 1))
  let cells := e.cells.foldl (fun t i =>
    let c := tblGet bufCell0 t i
    if c.refs ≤ 1 then tblSet bufCell0 t i bufCell0 else tblSet bufCell0 t i { c with refs := c.refs - 1 }) s.sw.cells
  let s := { s with sw.cells := cells }
  if last then returnCredits e.input e.frame.cls e.vcIn e.paid e.cells.length s else s

/-- Takes a buffered frame out of the buffer and drops its cells. -/
def removeBuffered (e : Buffered) (s : State) : State :=
  dropCells e { s with sw.buf := eraseFirst (fun x => decide (x = e)) s.sw.buf }

/-! ### FRAME_INGRESS -/

/-- The destinations whose HOLD counts for a frame: its part, or every part its TREE mask names; none for LINE
(R287). -/
def holdParts (f : Frame) (s : State) : List Nat :=
  if isReplicated f then
    if mcMode f.mslot = 0 then (maskBits (mcMask f.mslot)).filterMap (fun i => treePart (mcBox f.mslot) i s) else []
  else [eidPart f.dst]

/-- A frame waits at entry because a destination has HOLD set (R287). -/
def heldAtEntry (input : Nat) (f : Frame) (s : State) : Bool :=
  entersFabric input s && (holdParts f s).any (fun p => rteHold p s)

/-- The core's answer to a request, or the discard of any other frame (R278, R284, R285). The answer enters at the
keeper's core input (log entry 24). -/
def coreAnswer (f : Frame) (status : Byte) (s : State) : State :=
  if isRequestType f.ty then sendCore 47 (switchAnswer f status) s else s

/-- A frame without a route: answered or discarded, with the flag and the count (R284, R285); a
collective frame ends its collective here (R176). -/
def noRoute (f : Frame) (status : Byte) (unreachable hops : Bool) (s : State) : State :=
  let s := bump 0x1921008 1 s
  let s := whenTrue unreachable (setFlag rSwcStatus 0) s
  let s := whenTrue hops (setFlag rSwcStatus 2) s
  whenTrue (decide (status = stUnreachable)) (collUnreachable f) (coreAnswer f status s)

/-- Some entry has HOLD set. -/
def anyHold (s : State) : Bool :=
  s.regs.any (fun e => decide (rRteEntry 0 ≤ e.1 ∧ e.1 < rRteEntry 4096) && wbit e.2 16)

/-- The numbers of the frames in flight toward HOLD destinations: given an output, or awaiting link acknowledgement
(R287). -/
def flyingFrames (s : State) : List Nat :=
  (s.sw.buf.filter (fun e => decide (e.output ≠ none) && (holdParts e.frame s).any (fun p => rteHold p s))).map
    (fun e => e.uid) ++
  s.links.flatMap (fun e => e.2.replay.flatMap (fun h =>
    (h.frames.filter (fun x => x.2.any (fun p => rteHold p s))).map (·.1)))

/-- IN_FLIGHT: each frame counted once, however many copies of it wait (R287). -/
def inFlight (s : State) : Nat := (flyingFrames s).eraseDups.length

/-- IN_FLIGHT stands above zero while some entry holds HOLD: its fall to zero will set DRAINED (R287). -/
def noteFlying (s : State) : State :=
  if anyHold s && decide (inFlight s ≠ 0) then { s with sw.draining := true } else s

/-- A destination uses its detour group or its primary group: DETOUR_ON where it begins to use its detour (R281, RTE
chapter). -/
def noteWay (s : State) (w : Nat × Bool) : State :=
  if w.2 then
    if s.sw.detoured.contains w.1 then s
    else setFlag rRteStatus 1 { s with sw.detoured := s.sw.detoured ++ [w.1] }
  else if s.sw.detoured.contains w.1 then { s with sw.detoured := s.sw.detoured.filter (fun p => decide (p ≠ w.1)) }
  else s

/-- Bits and copies without a route are discarded and counted; HOP_LIMIT where one had 63 hops (R272, R273, R285). -/
def countLost (r : Replicas) (s : State) : State :=
  let s := whenTrue (decide (r.lost ≠ 0)) (fun s => bump 0x1921008 r.lost (setFlag rSwcStatus 0 s)) s
  r.ways.foldl noteWay (whenTrue r.hops (setFlag rSwcStatus 2) s)

/-- A frame as it enters the buffer: its input, when its header was accepted, and the cells it takes. -/
structure Entry where
  input : Nat
  at_ : Nat
  tb : Word
  paid : Bool
  cells : List Nat
  deriving DecidableEq, Repr

/-- The record of a frame, or of one copy of it, in the buffer. -/
def Entry.record (x : Entry) (f : Frame) (uid : Nat) (output : Option Nat) (group : Nat) (out : Frame) (copy : Bool) :
    Buffered :=
  { input := x.input, output := output, group := group, dest := f.dst, frame := out, at_ := x.at_, tb := x.tb,
    cells := x.cells, uid := uid, paid := x.paid, copy := copy, vcIn := f.vc, detourIn := f.detour }

/-- Stores a frame whose copies have their outputs. -/
def storeCopies (x : Entry) (f : Frame) (copies : List Copy) (s : State) : State :=
  let entry := fun (c : Copy) => x.record f s.sw.nextUid (some c.port) c.group c.frame (isReplicated f)
  let s := takeCells x.cells copies.length s
  noteFlying { s with sw.buf := s.sw.buf ++ copies.map entry, sw.nextUid := s.sw.nextUid + 1 }

/-- The cells queued for an output in a class, on both VCs (R276, R288). -/
def occupancy (output : Nat) (c : BitVec 3) (s : State) : Nat :=
  (s.sw.buf.filter (fun e => decide (e.output = some output ∧ e.frame.cls = c))).foldl
    (fun n e => n + e.cells.length) 0

/-- Bit `i` of a 31-bit register. -/
def prbsBit (r i : Nat) : Nat := (r / 2 ^ i) % 2

/-- One step of PRBS31, x^31 + x^28 + 1 (R276). -/
def prbsStep (r : Nat) : Nat := (r * 2 + (prbsBit r 30 + prbsBit r 27) % 2) % 2 ^ 31

/-- The next 8 bits of an output port's PRBS31 sequence, and the register after them. The register starts with all
ones (log entry 26). -/
def prbsNext (output : Nat) (s : State) : Nat × Nat :=
  let r := (2 ^ 31 - 1) - tblGet 0 s.sw.prbs output
  let r' := prbsStep (prbsStep (prbsStep (prbsStep (prbsStep (prbsStep (prbsStep (prbsStep r)))))))
  (r' % 256, r')

/-- The random early drop profile of a colour (R276). -/
def redProfile (colour : BitVec 2) : Nat := if colour = 2 then 1 else if colour = 3 then 2 else 0

/-- Whether random early drop drops a BULK frame as it is given this output, and the state with the sequence advanced
where a random number was drawn (R276, R198). -/
def redDrops (f : Frame) (output : Nat) (s : State) : Bool × State :=
  if f.cls ≠ clBulk ∨ f.strict = true then (false, s)
  else
    let w := getReg (rSwcRed (redProfile f.colour)) s
    let lo := wfield w 19 0
    let hi := wfield w 43 24
    let q := occupancy output clBulk s
    if q < lo then (false, s)
    else if hi ≤ q then (true, s)
    else
      let r := prbsNext output s
      let s := { s with sw.prbs := tblSet 0 s.sw.prbs output ((2 ^ 31 - 1) - r.2) }
      (decide (r.1 < wfield w 55 48 * (q - lo) / (hi - lo)), s)

/-- A frame that leaves the core at once, without a place in the buffer, gives its input's credits back (R262). -/
def discardEntry (x : Entry) (f : Frame) (s : State) : State :=
  returnCredits x.input f.cls f.vc x.paid (frameCells f) s

/-- Gives a frame its outputs and stores it: a unicast frame, which random early drop may take (R276), or every copy of a
replicated one. -/
def admitFrame (x : Entry) (f : Frame) (s : State) : State :=
  if isReplicated f then
    let r := replicate x.input f s
    let s := countLost r s
    if r.copies.isEmpty then discardEntry x f s else storeCopies x f r.copies s
  else
    match routeTo x.input (eidPart f.dst) f s with
    | .answered st u h => noRoute f st u h (discardEntry x f s)
    | .out p g f' d =>
      let s := if g = 0 then s else noteWay s (eidPart f.dst, d)
      let (dropped, s) := redDrops f' p s
      if dropped then bump (0x1920000 + 0x40 * f.cls.toNat) 1 (discardEntry x f s)
      else storeCopies x f [⟨p, g, f'⟩] s

/-- Stores a frame held at entry, without an output (R287). -/
def storeHeld (x : Entry) (f : Frame) (s : State) : State :=
  let s := takeCells x.cells 1 s
  { s with sw.buf := s.sw.buf ++ [x.record f s.sw.nextUid none 0 f false], sw.nextUid := s.sw.nextUid + 1 }

/-! ### FRAME_INGRESS -/

/-- The first frame of a class that waits at a core input (R267). -/
def firstWaiting? (input : Nat) (c : BitVec 3) (s : State) : Option CoreFrame :=
  s.sw.coreIn.find? (fun x => decide (x.input = input ∧ x.frame.cls = c))

/-- Takes a frame that waits at a core input. -/
def takeCoreIn (x : CoreFrame) (s : State) : State :=
  { s with sw.coreIn := eraseFirst (fun c => decide (c = x)) s.sw.coreIn }

/-- The core takes up the frame that waits first of its class at an input: the checks of R258, the meter of R275, the
lookup, the buffer (R264). A frame for which its input has no cells keeps waiting (log entry 25). -/
def enterCore (x : CoreFrame) (s : State) : State :=
  let f := x.frame
  if badFrame f then
    let s := bump 0x1921000 1 (setFlag rSwcStatus 1 (takeCoreIn x s))
    returnCredits x.input f.cls f.vc x.paid (frameCells f) s
  else
    let cells := freeCells (frameCells f) s
    if cells.length < frameCells f ∨ coreRoom x.input f s = false then s
    else
      let s := prof bRTE x.input f.part.toNat evIn 1 (prof bSWC x.input f.part.toNat evIn 1 (takeCoreIn x s))
      let (f, s) := meterFrame x.input f s
      let e : Entry := ⟨x.input, x.at_, x.tb, x.paid, cells⟩
      if heldAtEntry x.input f s then storeHeld e f s else admitFrame e f s

/-- A frame reaches the core. One that waits at its input is taken up if it is the first of its class there; one that
does not yet wait joins those that do, and is taken up if there are none (R267). -/
def ingress (input : Nat) (f : Frame) (s : State) : State :=
  match firstWaiting? input f.cls s with
  | some x => if x.frame = f then enterCore x s
    else if s.sw.coreIn.any (fun c => decide (c.input = input ∧ c.frame = f)) then s
    else sendCore input f s
  | none => enterCore ⟨input, s.clock, now s, true, f⟩ (sendCore input f s)

/-- FRAME_INGRESS (R257, R258, R260, R264, R267, R270, R272, R273, R275, R276, R284, R285, R287). -/
def execFrameIngress (input : Fin 48) (f : Frame) (s : State) : Host.Outcome State Fault Refusal :=
  act s (ingress input.val f)

/-! ### FRAME_DEPART -/

/-- The head of the queue of an (input, output, class) (R267). -/
def queueHead (input : Nat) (output : Option Nat) (c : BitVec 3) (s : State) : Option Buffered :=
  s.sw.buf.find? (fun e => decide (e.input = input ∧ e.output = output ∧ e.frame.cls = c))

/-- AGE after this part: the residence rounded up to whole microseconds, at least 1, saturating (R256, R277,
R279). -/
def agedBy (f : Frame) (residence : Nat) : BitVec 14 :=
  BitVec.ofNat 14 (min 16383 (f.age.toNat + max 1 (ceilDiv residence 1000)))

/-- The frame as it leaves: AGE, HOP through a TORUS port, a TIME_REPLY's TURN, and a fresh header CRC (R91, R277,
R300, R424). -/
def leavingFrame (e : Buffered) (output : Nat) (s : State) : Frame :=
  let f := { e.frame with age := agedBy e.frame (s.clock - e.at_), crcOk := true }
  let f := if output < 36 ∧ portGroup output s ≠ 0 then { f with hop := f.hop + 1 } else f
  if f.cls = clTime ∧ f.be = 2 ∧ eidPart f.src = (partId s).toNat then
    { f with turn := BitVec.ofNat 32 (min (2 ^ 32 - 1) (((now s).toNat + 2 ^ 48 - f.off.toNat) % 2 ^ 48)) }
  else f

/-- The header slot of a frame without its CRC (R299). -/
def headerBits (f : Frame) : Nat :=
  f.dst.toNat + f.src.toNat * 2 ^ 16 + f.ty.toNat * 2 ^ 32 + f.cls.toNat * 2 ^ 38 + bit1 f.vc * 2 ^ 41 +
  f.len.toNat * 2 ^ 42 + bit1 f.flagged * 2 ^ 49 + bit1 f.strict * 2 ^ 50 + bit1 f.mcast * 2 ^ 51 +
  bit1 f.detour * 2 ^ 52 + bit1 f.enc * 2 ^ 53 + f.colour.toNat * 2 ^ 54 + f.part.toNat * 2 ^ 56 +
  f.keyGen.toNat * 2 ^ 64 + f.stream.toNat * 2 ^ 72 + f.seq.toNat * 2 ^ 88 + f.off.toNat * 2 ^ 112 +
  f.be.toNat * 2 ^ 160 + f.hop.toNat * 2 ^ 168 + f.age.toNat * 2 ^ 174 +
  (if f.cls = clTime then f.turn.toNat * 2 ^ 188 else 0) + bit1 f.swRsp * 2 ^ 223

/-- HDR_CRC over bytes 0 to 27 of the header slot (R300). -/
def headerCrc (bits : Nat) : Nat := crcFlit (bytesOfNat 28 bits)

/-- The header slot with its CRC (R299, R300). -/
def headerSlot (f : Frame) : Slot :=
  let b := headerBits f
  BitVec.ofNat 256 (b + headerCrc b * 2 ^ 224)

/-- The authenticated data of an encrypted frame: bytes 0 to 27 of its header with VC, DETOUR, COLOUR, HOP and AGE zero
(R353). -/
def frameAad (f : Frame) : List Byte :=
  bytesOfNat 28 (headerBits { f with vc := false, detour := false, colour := 0, hop := 0, age := 0 })

/-- The data slots and the tag an encrypted frame travels with under a frame key (R353). -/
def frameCipher (key : BitVec 256) (f : Frame) (copy : Byte) (e : BitVec 32) : List Byte × List Byte :=
  gcmSeal key (frameIv f copy e) (frameAad f) (f.data.map slotBytes).flatten

/-- The trailer slot: its tag bytes are symbolic, and carry the seal's epoch and COPY in place of the tag, with bit 0
of byte 15 for a tag that verifies (R353, log entry 10). -/
def trailerSlot (f : Frame) : Slot :=
  match f.sealed with
  | none => 0
  | some k => BitVec.ofNat 256 (k.epoch.toNat + k.copy.toNat * 2 ^ 32 + bit1 k.ok * 2 ^ 120)

/-- The slots of a frame in wire order (R298). -/
def frameSlots (f : Frame) : List Slot :=
  headerSlot f :: (if f.mcast then [f.mslot] else []) ++
    (if f.ty = tyLoad then [] else f.data) ++ (if f.enc then [trailerSlot f] else [])

/-- Slots cut into flits of at most 15 (R295). -/
def cutFlits : Nat → List Slot → List (List Slot)
  | 0, _ => []
  | n + 1, l => if l.isEmpty then [] else l.take 15 :: cutFlits n (l.drop 15)

/-- The credits a port owes, as the CREDITS field of one control slot: at most 63 per VC (R262, R296). -/
def creditField (p : Nat) (s : State) : Nat :=
  (List.range 16).foldl (fun n v => n + min 63 (tblGet 0 s.owed (16 * p + v)) * 2 ^ (6 * v)) 0

/-- The credits sent are no longer owed; the rest goes in later flits (R296). -/
def takeOwed (p : Nat) (s : State) : State :=
  { s with owed := (List.range 16).foldl (fun t v =>
      tblSet 0 t (16 * p + v) (tblGet 0 t (16 * p + v) - 63)) s.owed }

/-- What a flit is to carry: its slots and which of them start frames, the frames that end in it (R287), the requests, the
place of an abort, and the time-sync type and time as they stand in the control slot. -/
structure FlitSpec where
  start : Nat
  slots : List Slot
  frames : List (Nat × List Nat)
  idleReq : Bool
  retrainReq : Bool
  abortAt : Nat
  tsync : Nat
  deriving DecidableEq, Repr

/-- A flit with no frame slot: it carries credits and acknowledgements alone. -/
def bareFlit : FlitSpec := ⟨0, [], [], false, false, 0, 0⟩

/-- A control slot without its CRC (R296). ACK_VALID is 1 once LINK_INIT has completed (R302). -/
def controlBits (k : Link) (x : FlitSpec) (credits : Nat) (init : Bool) : Nat :=
  k.fseq.toNat + k.lastRx.toNat * 2 ^ 12 + bit1 k.inited * 2 ^ 24 + bit1 k.nak * 2 ^ 25 +
  bit1 x.retrainReq * 2 ^ 27 + bit1 x.idleReq * 2 ^ 28 + bit1 init * 2 ^ 29 +
  (if init then 0 else 2 ^ x.slots.length - 1) * 2 ^ 32 + x.start * 2 ^ 48 + x.abortAt * 2 ^ 64 + credits * 2 ^ 72 +
  x.tsync * 2 ^ 168

/-- The flit's CRC over its 512 bytes with the CRC field zero (R297). -/
def flitCrc (ctl : Nat) (slots : List Slot) : Nat :=
  crcFlit (bytesOfNat 32 (ctl % 2 ^ 224) ++
    ((List.range 15).map (fun i => slotBytes (slots.getD i 0))).flatten)

/-- A control slot with its CRC (R297). -/
def withCrc (bits : Nat) (slots : List Slot) : Slot := BitVec.ofNat 256 (bits + flitCrc bits slots * 2 ^ 224)

/-- A held flit as it is sent again: FSEQ, CREDITS and slots as they were, REPLAY set, ACK, ACK_VALID and NAK of now, and
no time-sync field, which a receiver ignores there (R296, R301; log entry 50). -/
def refreshed (k : Link) (h : HeldFlit) : HeldFlit :=
  let b := h.ctl.toNat
  let bits := b % 2 ^ 12 + k.lastRx.toNat * 2 ^ 12 + bit1 k.inited * 2 ^ 24 + bit1 k.nak * 2 ^ 25 + 2 ^ 26 +
    field b 167 27 * 2 ^ 27
  { h with ctl := withCrc bits h.slots, sends := h.sends + 1 }

/-- A link with a new value. -/
def putLink (p : Nat) (k : Link) (s : State) : State := { s with links := tblSet link0 s.links p k }

/-- A port may send `n` new flits: 512 at most are unacknowledged (R301), and space is kept for the rest of a frame that is
cut through to it. -/
def flitRoom (p n : Nat) (s : State) : Bool :=
  let k := linkOf p s
  decide (k.replay.length + n + (if k.cutFrom = none then 0 else 67) ≤ 512)

/-- Sends one new flit on a port: it takes the next FSEQ, the credits owed, and stays in the replay buffer until it
is acknowledged (R301). A port in RETRAIN holds it for the resending after LINK_INIT (R306). -/
def sendFlit (p : Nat) (x : FlitSpec) (s : State) : State :=
  let k := linkOf p s
  let ctl := withCrc (controlBits k x (creditField p s) false) x.slots
  let s := takeOwed p s
  putLink p { k with fseq := k.fseq + 1, replay := k.replay ++ [⟨ctl, x.slots, 1, x.frames⟩], ackDue := 0,
                     ackAt := if k.replay.isEmpty then s.clock else k.ackAt, quietSince := s.clock } s

/-- Sends a frame's flits: the first carries START for its header slot; the last names the frame for the count of
R287. -/
def sendFlits (p : Nat) (frame : Nat × List Nat) : List (List Slot) → Bool → State → State
  | [], _, s => s
  | l :: t, first, s =>
    sendFlits p frame t false
      (sendFlit p { bareFlit with start := bit1 first, slots := l, frames := if t.isEmpty then [frame] else [] } s)

/-- How many flits a frame takes on its own. -/
def flitCount (f : Frame) : Nat := ceilDiv (wireSlots f) 15

/-- The port's transmitter is awake on a trained link. -/
def linkTalks (p : Nat) (s : State) : Bool :=
  let k := linkOf p s
  portUp p s || (decide (k.st = .idle) && !k.txIdle)

/-- A port with nothing to send but credits, an acknowledgement or a NAK sends a flit that carries these (R262, R302). -/
def sendOwed (p : Nat) (s : State) : State :=
  let k := linkOf p s
  if linkTalks p s && flitRoom p 1 s && (decide (creditField p s ≠ 0) || decide (k.ackDue ≠ 0) || k.nak) then
    sendFlit p bareFlit s
  else s

/-- The end-point withholds REQ credits on an internal end-point port: a request queued for the port is for a memory
controller whose 1,024 entries are full (R115). -/
def reqWithheld (output : Nat) (s : State) : Bool :=
  s.sw.buf.any (fun e => decide (e.output = some output ∧ e.frame.cls = clReq) &&
    (requestLines e.frame).any (fun l => hasController l && decide (1024 ≤ stackEntries (lineStack l) s)))

/-- An output has credit for a frame (R262): a link's credits on its VC, its replay space (R301) and a link that can
send; an internal end-point port has none for REQ frames while it withholds it (R115). -/
def hasCredit (output : Nat) (f : Frame) (s : State) : Bool :=
  if output < 36 then
    linkTalks output s && decide ((linkOf output s).cutFrom = none) &&
    decide (frameCells f ≤ tblGet 0 s.credit (vcKey output f.cls f.vc)) && flitRoom output (flitCount f) s
  else !(decide (f.cls = clReq) && reqWithheld output s)

/-- The inputs whose head for an output and class can leave. -/
def readyInputs (output : Nat) (c : BitVec 3) (s : State) : List Nat :=
  (List.range 48).filter (fun i => match queueHead i (some output) c s with
    | some e => hasCredit output e.frame s
    | none => false)

/-- The next of some inputs in round robin after the one served last (R257, R267). -/
def nextRound (last : Nat) (l : List Nat) : Option Nat :=
  match l.find? (fun i => decide (last < i)) with
  | some i => some i
  | none => l.head?

/-- The class an output serves next (R257): TIME, MGMT, CALL, RSP in strict order, then REQ, COLL, BULK and DIAG in
weighted round robin, one frame per turn and WEIGHT turns a round. Turns used are counted in `sw.turns`. -/
def nextClass (output : Nat) (s : State) : Option (BitVec 3) :=
  match ([clTime, clMgmt, clCall, clRsp] : List (BitVec 3)).find? (fun c => !(readyInputs output c s).isEmpty) with
  | some c => some c
  | none =>
    let last := tblGet 0 s.sw.lastClass output
    let order : List Nat := [1, 3, 5, 7]
    let order := order.filter (fun c => decide (last < c)) ++ order.filter (fun c => decide (c ≤ last))
    let ready := order.filter (fun c => !(readyInputs output (BitVec.ofNat 3 c) s).isEmpty)
    let fresh := ready.filter (fun c => decide (tblGet 0 s.sw.turns (8 * output + c) < classWeight c s))
    match fresh, ready with
    | c :: _, _ => some (BitVec.ofNat 3 c)
    | [], c :: _ => some (BitVec.ofNat 3 c)
    | [], [] => none

/-- Counts a turn of a weighted class; a round ends when every class that has frames has used its turns. -/
def countTurn (output : Nat) (c : BitVec 3) (s : State) : State :=
  if c = clReq ∨ c = clColl ∨ c = clBulk ∨ c = clDiag then
    let k := 8 * output + c.toNat
    let used := tblGet 0 s.sw.turns k
    let turns := if classWeight c.toNat s ≤ used
      then [1, 3, 5, 7].foldl (fun t i => tblSet 0 t (8 * output + i) 0) s.sw.turns else s.sw.turns
    { s with sw.turns := tblSet 0 turns k (tblGet 0 turns k + 1),
             sw.lastClass := tblSet 0 s.sw.lastClass output c.toNat }
  else s

/-- The key of a live map. -/
def cmapKey (output : Nat) (c : BitVec 3) : Nat := 8 * output + c.toNat

/-- Counts a departure: DEPARTS, and MARKS where the occupancy stands at or above MARK (R288, R425). -/
def countDepart (output : Nat) (c : BitVec 3) (s : State) : State :=
  let marked := decide (getField (rSwcClassCfg c.toNat) 43 32 s ≤ occupancy output c s)
  let s := bump (0x1920010 + 0x40 * c.toNat) 1 s
  if marked then
    let m := tblGet cmap0 s.sw.cmaps (cmapKey output c)
    { s with sw.cmaps := tblSet cmap0 s.sw.cmaps (cmapKey output c) { m with marks := (m.marks + 1) % 2 ^ 64 } }
  else s

/-- A frame begins to leave on a link: its cells are taken from the credits held, its slots counted (R262, R425). -/
def beginSend (output : Nat) (f : Frame) (s : State) : State :=
  let k := vcKey output f.cls f.vc
  let s := { s with credit := tblSet 0 s.credit k (tblGet 0 s.credit k - frameCells f) }
  let s := bump (0x1910000 + 0x100 * output) (wireSlots f) s
  prof bPRT output f.part.toNat evBytes (32 * wireSlots f) (prof bPRT output f.part.toNat evOut 1 s)

/-- Delivers a leaving frame: to an internal end-point port, or as flits on a link whose credits drop (R262). -/
def deliver (output uid : Nat) (f : Frame) (s : State) : State :=
  if output < 36 then
    sendFlits output (uid, holdParts f s) (cutFlits 8 (frameSlots f)) true (beginSend output f s)
  else { s with tgt.arrived := s.tgt.arrived ++ [(output - 36, f)] }

/-- Profiling of a frame that leaves the core (R427). -/
def profDepart (output : Nat) (f : Frame) (s : State) : State :=
  let p := f.part.toNat
  prof bRTE output p evOut 1 (prof bSWC output p evBytes (32 * wireSlots f) (prof bSWC output p evOut 1 s))

/-- A TIME_QUERY delivered to the end-point keeps the time at which its header was accepted at the part's input
(R424). -/
def noteQuery (output : Nat) (e : Buffered) (f : Frame) (s : State) : State :=
  if 36 ≤ output ∧ f.cls = clTime ∧ f.be = 1 then { s with tgt.queries := s.tgt.queries ++ [(f, e.tb)] } else s

/-- A frame has reached its class lifetime (R278). -/
def outlived (e : Buffered) (s : State) : Bool :=
  match lifetime e.frame.cls with
  | none => false
  | some l => decide (l ≤ e.frame.age.toNat * 1000 + (s.clock - e.at_))

/-- A frame is discarded if it is the head of its queue and has outlived its class: a copy alone, a request with an
answer, anything else silently (R274, R278). -/
def expireOne (e : Buffered) (s : State) : State :=
  if queueHead e.input e.output e.frame.cls s = some e ∧ outlived e s = true then
    let s := removeBuffered e s
    let s := bump (0x1920008 + 0x40 * e.frame.cls.toNat) 1 (setFlag rSwcStatus 3 s)
    if e.copy then setFlag rSwcStatus 4 s else coreAnswer e.frame stAged s
  else s

/-- The frames that head an output's queues past their lifetime are discarded before one leaves (R278, R279). -/
def expireHeads (output : Nat) (s : State) : State :=
  (s.sw.buf.filter (fun e => decide (e.output = some output))).foldl (fun s e => expireOne e s) s

/-- One frame leaves a core output: the class of R257, the input in round robin, then the frame as it leaves (R262,
R267, R277, R288). A link without a frame to send sends what else it owes. -/
def depart (output : Nat) (s : State) : State :=
  let s := expireHeads output s
  match nextClass output s with
  | none => if output < 36 then sendOwed output s else s
  | some c =>
    let rk := 8 * output + c.toNat
    match nextRound (tblGet 0 s.sw.lastInput rk) (readyInputs output c s) with
    | none => s
    | some i =>
      match queueHead i (some output) c s with
      | none => s
      | some e =>
        let s := { s with sw.lastInput := tblSet 0 s.sw.lastInput rk i }
        let s := countTurn output c s
        let f := leavingFrame e output s
        let s := profDepart output f (countDepart output c s)
        deliver output e.uid f (noteQuery output e f (removeBuffered e s))

/-- FRAME_DEPART (R198, R256, R257, R262, R267, R268, R277, R286, R288, R300, R301). -/
def execFrameDepart (output : Fin 48) (s : State) : Host.Outcome State Fault Refusal := act s (depart output.val)

/-! ### Ageing, the audit, the maps -/

/-- The frame at a place of the buffer, if it heads its queue past its lifetime, is discarded (R274, R278). -/
def expire (pos : Nat) (s : State) : State :=
  match s.sw.buf[pos]? with
  | none => s
  | some e => expireOne e s

/-- FRAME_AGE_EXPIRY (R115, R274, R278, R279). -/
def execFrameAgeExpiry (pos : Nat) (s : State) : Host.Outcome State Fault Refusal := act s (expire pos)

/-- One cell of the audit (R280). -/
def auditCell (s : State) (e : Nat × BufCell) : State :=
  if e.2.free then
    if e.2.refs = 0 then s
    else
      let s := { s with sw.cells := tblSet bufCell0 s.sw.cells e.1 { e.2 with free := false } }
      let s := putField rSwcLeakAudit 47 32 (satAdd 65535 (getField rSwcLeakAudit 47 32 s) 1) s
      logEvent bSWC 0 7 0 0 0 (setFlag rSwcStatus 6 s)
  else if e.2.refs ≠ 0 then
    { s with sw.cells := tblSet bufCell0 s.sw.cells e.1 { e.2 with orphan := false } }
  else if e.2.orphan then
    let s := { s with sw.cells := tblSet bufCell0 s.sw.cells e.1 bufCell0 }
    let s := putField rSwcLeakAudit 63 48 (satAdd 65535 (getField rSwcLeakAudit 63 48 s) 1) s
    setFlag rSwcStatus 5 s
  else { s with sw.cells := tblSet bufCell0 s.sw.cells e.1 { e.2 with orphan := true } }

/-- BUFFER_AUDIT: one full sweep (R280). -/
def execBufferAudit (s : State) : Host.Outcome State Fault Refusal :=
  act s (fun s =>
    let s := s.sw.cells.foldl auditCell s
    putField rSwcLeakAudit 31 0 (getField rSwcLeakAudit 31 0 s + 1) s)

/-- The bin of an occupancy (R288). -/
def cmapBin (n : Nat) : Nat := if n = 0 then 0 else min 15 (Nat.log2 n + 1)

/-- One sample of a map. -/
def sampleMap (n : Nat) (m : Cmap) : Cmap :=
  { bins := m.bins.mapIdx (fun i x => if i = cmapBin n then satAdd (2 ^ 32 - 1) x 1 else x),
    marks := m.marks, samples := (m.samples + 1) % 2 ^ 64, peak := max m.peak n }

/-- The time base stands on one of its 10 µs boundaries. -/
def onBoundary (s : State) : Bool := decide ((now s).toNat % 10000 = 0)

/-- CMAP_SAMPLE: every core output samples its occupancy in every class (R288). -/
def execCmapSample (s : State) : Host.Outcome State Fault Refusal :=
  act s (whenTrue (onBoundary s) (fun s =>
    { s with sw.cmaps := (List.range 384).map (fun k =>
        (k, sampleMap (occupancy (k / 8) (BitVec.ofNat 3 (k % 8)) s) (tblGet cmap0 s.sw.cmaps k))) }))

/-- A write to SWC_CMAP_CTL: SNAP and SNAP_CLEAR wait for the next boundary; a SNAP written while another waits joins it,
and a SNAP_CLEAR makes the one that waits zero the live maps too; a reserved action is ignored and counted (R289,
R425). -/
def writeCmapCtl (v : Word) (s : State) : State :=
  match wfield v 1 0 with
  | 1 => if s.sw.snap = .no then { s with sw.snap := .snap } else s
  | 2 => { s with sw.snap := .snapClear }
  | _ => blockEvent bSWC s

/-- SNAP (R289). -/
def execSnap (side : Side) (s : State) : Host.Outcome State Fault Refusal :=
  act s (fun s => guarded side bSWC false .pwr s (writeCmapCtl 1))

/-- SNAP_CLEAR: as SNAP, and the live maps will be zeroed in the same step (R289). -/
def execSnapClear (side : Side) (s : State) : Host.Outcome State Fault Refusal :=
  act s (fun s => guarded side bSWC false .pwr s (writeCmapCtl 2))

/-- CMAP_SNAPSHOT_TAKE: at a 10 µs boundary a pending snapshot is taken and SNAP_SEQ increments (R289). -/
def execCmapSnapshotTake (s : State) : Host.Outcome State Fault Refusal :=
  act s (whenTrue (onBoundary s && decide (s.sw.snap ≠ .no)) (fun s =>
    let live := s.sw.cmaps
    let s := { s with sw.cmapRead := live, sw.cmaps := (if s.sw.snap = .snapClear then [] else live),
                      sw.snap := .no }
    putField rSwcCmapCtl 63 32 (getField rSwcCmapCtl 63 32 s + 1) s))

/-! ### The SWC and RTE registers with rules of their own -/

/-- The RWL fields of SWC and RTE are locked (R6, R280). -/
def swcLocked (s : State) : Bool := getBit rSwcStatus 63 s

/-- A write meets a locked field: whatever the value written, the field is ignored and the write counted (R6, R437
check 4). -/
def lockHit (o : Nat) (s : State) : Bool :=
  match regDesc o with
  | none => false
  | some d => swcLocked s && d.fields.any (fun f => decide (f.acc = .rwl))

/-- A write that takes effect by the access types of its fields, the locked ones ignored and counted: one count for the
write, however many of its fields are locked (DESIGN CHOICE, log entry 46: R6 counts writes, R437 fields). -/
def plainWrite (o : Nat) (v : Word) (s : State) : State :=
  match regDesc o with
  | none => s
  | some d =>
    let s' := putReg o (accessWrite d.fields (swcLocked s) (getReg o s) v) s
    if lockHit o s then blockEvent d.blk s' else s'

/-- A write to SWC_CLASS_CFG: refused if the reserves would exceed 131,072 cells (R261). -/
def writeClassCfg (c : Nat) (v : Word) (s : State) : State :=
  let sum := (List.range 8).foldl (fun n i => n + (if i = c then max 9 (wfield v 7 0) else classRsv i s)) 0
  if swcLocked s = false ∧ 131072 < 96 * sum then refuse bSWC rSwcStatus 7 s else plainWrite (rSwcClassCfg c) v s

/-- CLASS_CFG_WRITE (R260, R261). -/
def execClassCfgWrite (side : Side) (c : Fin 8) (val : Word) (s : State) : Host.Outcome State Fault Refusal :=
  act s (fun s => guarded side bSWC false .pwr s (writeClassCfg c.val val))

/-- A bucket's shortfall after its size changed: the contents stay, capped at the new size. -/
def resizeShort (short old new : Nat) : Nat := new - min (old - short) new

/-- A meter's buckets filled up to now at the rates in force. -/
def refreshBuckets (n : Nat) (s : State) : State :=
  let b := tblGet buckets0 s.sw.buckets n
  let w := getReg (rSwcMeter n) s
  let dt := s.clock - b.last
  let b' : Buckets := ⟨refill b.dc (wfield w 39 16) dt, refill b.dp (wfield w 63 40) dt, s.clock⟩
  { s with sw.buckets := tblSet buckets0 s.sw.buckets n b' }

/-- A write to a word of SWC_METER: CIR above PIR, or a burst below 2,112, is refused; otherwise it takes effect at
once and the buckets keep their contents, capped (R275). -/
def writeMeter (n : Nat) (burst : Bool) (v : Word) (s : State) : State :=
  if burst then
    if wfield v 63 32 < 2112 ∨ wfield v 31 0 < 2112 then refuse bSWC rSwcStatus 7 s
    else
      let old := getReg (rSwcMeter n + 8) s
      let s := refreshBuckets n s
      let b := tblGet buckets0 s.sw.buckets n
      let s := plainWrite (rSwcMeter n + 8) v s
      let b' := { b with dc := resizeShort b.dc (wfield old 31 0 * 1000) (wfield v 31 0 * 1000),
                         dp := resizeShort b.dp (wfield old 63 32 * 1000) (wfield v 63 32 * 1000) }
      { s with sw.buckets := tblSet buckets0 s.sw.buckets n b' }
  else if wfield v 63 40 < wfield v 39 16 then refuse bSWC rSwcStatus 7 s
  else plainWrite (rSwcMeter n) v (refreshBuckets n s)

/-- METER_WRITE (R275). -/
def execMeterWrite (side : Side) (n : Fin 128) (burst : Bool) (val : Word) (s : State) :
    Host.Outcome State Fault Refusal :=
  act s (fun s => guarded side bSWC false .pwr s (writeMeter n.val burst val))

/-- A write to SWC_RED: refused unless MIN_TH is below MAX_TH (R276). -/
def writeRed (k : Nat) (v : Word) (s : State) : State :=
  if wfield v 19 0 < wfield v 43 24 then plainWrite (rSwcRed k) v s else refuse bSWC rSwcStatus 7 s

/-- RED_WRITE (R276). -/
def execRedWrite (side : Side) (k : Fin 3) (val : Word) (s : State) : Host.Outcome State Fault Refusal :=
  act s (fun s => guarded side bSWC false .pwr s (writeRed k.val val))

/-- LOCK: the RWL fields of SWC and RTE are locked until a PWR reset (R6, R280). -/
def execLock (side : Side) (s : State) : Host.Outcome State Fault Refusal :=
  act s (fun s => guarded side bSWC false .pwr s (plainWrite rSwcStatus (placeBit 63 true)))

/-- A group code names a group with a TORUS port (R282). -/
def groupExists (g : Nat) (s : State) : Bool := (List.range 36).any (fun p => decide (portGroup p s = g))

/-- A route entry that R282 refuses. -/
def badEntry (p : Nat) (v : Word) (s : State) : Bool :=
  let prim := wfield v 2 0
  let det := wfield v 10 8
  let valid := wbit v 15
  decide (prim = 0 ∧ p ≠ (partId s).toNat) || decide (prim ≠ 0 ∧ p = (partId s).toNat) ||
  (decide (1 ≤ prim ∧ prim ≤ 6) && !(groupExists prim s)) ||
  (decide (1 ≤ det ∧ det ≤ 6) && !(groupExists det s)) ||
  (decide (det = prim) && !(decide (prim = 7) && !valid)) ||
  decide (det = 0) ||
  (decide (prim = 7) && valid)

/-- The frames held at entry (R287). -/
def waitingFrames (s : State) : Nat := (s.sw.buf.filter (fun e => decide (e.output = none))).length

/-- Frames held at entry whose destinations are free again take their routes, oldest first (R287). -/
def releaseHeld (s : State) : State :=
  (s.sw.buf.filter (fun e => decide (e.output = none))).foldl (fun s e =>
    if heldAtEntry e.input e.frame s then s
    else
      let s := { s with sw.buf := eraseFirst (fun x => decide (x = e)) s.sw.buf,
                        sw.cells := e.cells.foldl (fun t i => tblSet bufCell0 t i bufCell0) s.sw.cells }
      admitFrame ⟨e.input, e.at_, e.tb, e.paid, e.cells⟩ e.frame s) s

/-- IN_FLIGHT is zero: DRAINED, once for each time it falls or a HOLD write finds it so (R287). -/
def noteDrained (s : State) : State := setFlag rRteStatus 0 { s with sw.draining := false }

/-- A write to a route entry: refused under R282; a HOLD write that leaves IN_FLIGHT at zero sets DRAINED at once;
clearing HOLD lets held frames take the new entries (R281, R282, R287). -/
def writeEntry (p : Nat) (v : Word) (s : State) : State :=
  if badEntry p v s then refuse bRTE rRteStatus 2 s
  else
    let s := plainWrite (rRteEntry p) v s
    if wbit v 16 then (if inFlight s = 0 then noteDrained s else noteFlying s) else releaseHeld s

/-- ROUTE_ENTRY_WRITE (R281, R282, R287). -/
def execRouteEntryWrite (side : Side) (p : BitVec 12) (val : Word) (s : State) : Host.Outcome State Fault Refusal :=
  act s (fun s => guarded side bRTE false .pwr s (writeEntry p.toNat val))

/-- DRAINED: IN_FLIGHT has fallen to zero while some entry holds HOLD (R287). -/
def execDrained (s : State) : Host.Outcome State Fault Refusal :=
  act s (whenTrue (s.sw.draining && anyHold s && decide (inFlight s = 0)) noteDrained)

end Sys2Proof.Machine
end

