-- ==== Sys2Proof/Machine/TimeSync.lean ====
section
/-! DEFINITION. Time over the links: STAMP, ROOT and ECHO, the exchanges of a measurement and of locked time, and what a
part makes of them (R417 to R422). -/
namespace Sys2Proof.Machine

/-- The parent port of the time tree (R417). -/
def parentPort (s : State) : Nat := getField rTimCfg 53 48 s

/-- This part is the time-base root (chapter 17). -/
def isRoot (s : State) : Bool := getBit rTimCfg 63 s

/-- Locked-time mode is configured (R421). -/
def lockedMode (s : State) : Bool := decide (getField rTimCfg 62 61 s = 1)

/-- A measurement fails: MEAS_FAIL, and the previous results stay (R419). -/
def measureFails (s : State) : State :=
  setFlag rTimStatus 1 { s with time.measuring := false, time.samples := [], time.exchanges := 0, time.missed := 0,
                                time.forMeasure := false }

/-- Lock is lost: holdover with the last rate correction (R422). -/
def enterHoldover (s : State) : State :=
  if isRoot s = false ∧ lockedMode s = true ∧ s.time.holdover = false then
    setFlag rTimStatus 2 { s with time.locked := false, time.holdover := true, time.strayed := s.clock }
  else s

/-- The parent port has left ACTIVE, DEGRADED and IDLE (R419, R422). -/
def parentLeft (p : Nat) (s : State) : State :=
  if parentPort s = p then
    let s := if s.time.measuring then measureFails s else s
    enterHoldover s
  else s

/-- The part begins to measure against its parent (R418, R419). -/
def beginMeasure (s : State) : State :=
  { s with time.measuring := true, time.exchanges := 0, time.samples := [], time.missed := 0,
           time.lastExchange := s.clock, time.forMeasure := false }

/-- The first time after a PWR reset that a non-root's PARENT_PORT is up, it measures (R419). -/
def parentUp (p : Nat) (s : State) : State :=
  if parentPort s = p ∧ isRoot s = false ∧ s.time.autoDone = false ∧ s.time.measuring = false then
    beginMeasure { s with time.autoDone := true }
  else s

/-- A signed difference of two times. -/
def timeDiff (a b : Word) : Int := (a - b).toInt

/-- A sample of one exchange, in ps: local minus parent, which is what TIM_OFFSET and the walk of R420 mean, and the
delay (R418, R420; log entry 45). -/
def takeSample (x : TimeStamps) : Sample :=
  let out := timeDiff x.t2 x.t1
  let back := timeDiff x.t4 x.t3
  { at_ := x.t4.toNat, offset := 500 * (back - out), delay := 500 * (out + back) }

/-- A step forward, once, where the counter is more than 100 µs behind the parent (R421): `behind` in half ns. -/
def stepForward (behind : Int) (s : State) : State :=
  if 200000 < behind then
    setFlag rTimStatus 3 { s with timeBase := s.timeBase + BitVec.ofInt 64 (behind / 2) }
  else s

/-- The rate correction: within ±200 ppm; the law by which the part chooses it is not stated, a free value (R421). -/
def correctRate (s : State) : State :=
  let (v, s) := takeFree s
  { s with time.rate := ((v.toNat % 400000001 : Nat) : Int) - 200000000 }

/-- An exchange with a parent that sends ROOT disciplines the counter; LOCKED once it has stayed within 2 ns for 1 ms
(R421). -/
def discipline (x : TimeStamps) (s : State) : State :=
  let behind := timeDiff x.t2 x.t1 - timeDiff x.t4 x.t3
  let s := correctRate (stepForward behind { s with time.holdover := false })
  let near := decide (-4 ≤ behind ∧ behind ≤ 4)
  let s := { s with time.strayed := if near then s.time.strayed else s.clock }
  if near && due (s.time.strayed + 1000000) s then { s with time.locked := true } else s

/-- The part sends ROOT instead of STAMP (R417). -/
def sendsRoot (s : State) : Bool := isRoot s || s.time.locked

/-- The value of a 48-bit stamp nearest to a time (R417). -/
def rebuildStamp (t48 : Nat) (near : Nat) : Nat :=
  let base := near / 2 ^ 48 * 2 ^ 48 + t48
  if near + 2 ^ 47 < base ∧ 2 ^ 48 ≤ base then base - 2 ^ 48
  else if base + 2 ^ 47 < near then base + 2 ^ 48 else base

/-- A time-sync type and time as they stand in a control slot from bit 168 on (R296). -/
def tsyncField (ty : Nat) (t : Word) : Nat := ty + t.toNat % 2 ^ 48 * 2 ^ 8

/-- Sends a flit with a time-sync field on a port whose transmitter is awake. -/
def sendTsync (p ty : Nat) (t : Word) (s : State) : State :=
  if linkTalks p s && flitRoom p 1 s then sendFlit p { bareFlit with tsync := tsyncField ty t } s else s

/-- Sends STAMP with the departure time, or ROOT where the part is the root or LOCKED (R417). -/
def sendStamp (p : Nat) (s : State) : State := sendTsync p (if sendsRoot s then 3 else 1) (now s) s

/-- An exchange with the parent begins: the part stamps at t1 (R418, R421). -/
def startExchange (forMeasure : Bool) (s : State) : State :=
  { sendStamp (parentPort s) s with
    time.sentAt := some (now s), time.echo := none, time.back := none, time.forMeasure := forMeasure }

/-- The stamps of an exchange are all there: a sample for a measurement that began it, and in locked time the counter is
disciplined, where the parent sent ROOT (R418, R421, R422). -/
def takeExchange (x : TimeStamps) (rooted : Bool) (s : State) : State :=
  let s := if s.time.measuring && s.time.forMeasure then
      { s with time.exchanges := s.time.exchanges + 1, time.missed := 0,
               time.samples := s.time.samples ++ [takeSample x] } else s
  let s := { s with time.sentAt := none, time.echo := none, time.back := none, time.forMeasure := false }
  if lockedMode s && rooted then discipline x s else s

/-- An exchange whose t2, t3 and t4 have all arrived is complete. -/
def endExchange (s : State) : State :=
  match s.time.sentAt, s.time.echo, s.time.back with
  | some t1, some t2, some (t3, t4, rooted) => takeExchange ⟨t1, t2, t3, t4⟩ rooted s
  | _, _, _ => s

/-- A STAMP or ROOT of the parent: its t3 and t4 for an exchange under way; a parent that sends STAMP ends the lock (R418,
R422). -/
def parentStamp (t : Word) (rooted : Bool) (s : State) : State :=
  let s := if rooted then s else enterHoldover s
  if s.time.sentAt = none then s else endExchange { s with time.back := some (t, now s, rooted) }

/-- The time-sync field of an accepted flit (R296, R417, R418): a replayed flit's is ignored. A STAMP or ROOT from a child
is answered with its arrival time as ECHO and a stamp of the part's own. -/
def takeTsync (p : Nat) (ctl : Slot) (s : State) : State :=
  let ty := field ctl.toNat 175 168
  let t := BitVec.ofNat 64 (rebuildStamp (field ctl.toNat 223 176) (now s).toNat)
  let mine := decide (p = parentPort s) && !(isRoot s)
  if ctl.getLsbD 26 then s
  else if ty = 1 ∨ ty = 3 then
    let s := { s with time.stamps := tblSet (0, false) s.time.stamps p (now s, decide (ty = 3)) }
    if mine then parentStamp t (decide (ty = 3)) s else sendStamp p (sendTsync p 2 (now s) s)
  else if ty = 2 ∧ mine = true ∧ s.time.sentAt ≠ none then endExchange { s with time.echo := some t }
  else s

end Sys2Proof.Machine
end

