-- ==== Sys2Proof/Machine/Links.lean ====
section
/-! DEFINITION. The Zhoan ports: training, flits, replay, loss, electrical idle, tests (R289 to R315), and the hooks a
port's state has in time and rope pairs (R204, R419, R422). -/
namespace Sys2Proof.Machine

/-! ### Frames from slots (R298, R299) -/

/-- A header slot's fields as a frame without its other slots (R299). -/
def parseHeader (h : Slot) : Frame :=
  let v := h.toNat
  let cls : BitVec 3 := BitVec.ofNat 3 (v / 2 ^ 38)
  { blankFrame with
    dst := BitVec.ofNat 16 v, src := BitVec.ofNat 16 (v / 2 ^ 16), ty := BitVec.ofNat 6 (v / 2 ^ 32), cls := cls,
    vc := h.getLsbD 41, len := BitVec.ofNat 7 (v / 2 ^ 42), flagged := h.getLsbD 49, strict := h.getLsbD 50,
    mcast := h.getLsbD 51, detour := h.getLsbD 52, enc := h.getLsbD 53, colour := BitVec.ofNat 2 (v / 2 ^ 54),
    part := BitVec.ofNat 8 (v / 2 ^ 56), keyGen := BitVec.ofNat 8 (v / 2 ^ 64),
    stream := BitVec.ofNat 16 (v / 2 ^ 72), seq := BitVec.ofNat 24 (v / 2 ^ 88), off := BitVec.ofNat 48 (v / 2 ^ 112),
    be := BitVec.ofNat 8 (v / 2 ^ 160), hop := BitVec.ofNat 6 (v / 2 ^ 168), age := BitVec.ofNat 14 (v / 2 ^ 174),
    swRsp := h.getLsbD 223, turn := if cls = clTime then BitVec.ofNat 32 (v / 2 ^ 188) else 0,
    crcOk := decide (headerCrc (v % 2 ^ 224) = v / 2 ^ 224) }

/-- The seal a trailer slot stands for (log entry 10). -/
def parseTrailer (t : Slot) : Seal :=
  { epoch := BitVec.ofNat 32 t.toNat, copy := BitVec.ofNat 8 (t.toNat / 2 ^ 32), ok := t.getLsbD 120 }

/-- A frame from its slots in wire order (R298). -/
def parseFrame (l : List Slot) : Frame :=
  let f := parseHeader (l.getD 0 0)
  let n := 1 + bit1 f.mcast
  let d := if f.ty = tyLoad then 0 else f.len.toNat
  { f with mslot := if f.mcast then l.getD 1 0 else 0, data := (l.drop n).take d,
           sealed := if f.enc then some (parseTrailer (l.getD (n + d) 0)) else none }

/-! ### Entering states -/

/-- Whether a state counts as carrying traffic. -/
def liveState (x : PortState) : Bool := decide (x = .active ∨ x = .degraded ∨ x = .idle)

/-- A port that reaches a state in which its sequencer may be swapped is swapped there (R396). -/
def notePortSwap (p : Nat) (s : State) : State :=
  { s with service.activation := s.service.activation.map (fun a =>
      if a.component = 1 ∧ (liveState (linkOf p s).st = true ∨ (linkOf p s).st = .down) then
        { a with swapped := p :: a.swapped.filter (fun q => decide (q ≠ p)) } else a) }

/-- A port takes a state: STATE_EVT is set when it changes, and leaving ACTIVE or the live states has its hooks. -/
def setPortState (p : Nat) (x : PortState) (s : State) : State :=
  let k := linkOf p s
  if k.st = x then s
  else
    let s := notePortSwap p (setFlag (rPrtStatus p) 0 (putLink p { k with st := x } s))
    let s := if k.st = .active then ropePortLeft p s else s
    let s := if liveState k.st && !(liveState x) then parentLeft p s else s
    if !(liveState k.st) && decide (x = .active ∨ x = .degraded) then parentUp p s else s

/-- A port enters a training stage: PRT_STATUS shows it in first training, and RETRAIN throughout a retrain (R305). -/
def setStage (p : Nat) (x : PortState) (s : State) : State :=
  let k := linkOf p s
  if k.st = .retrain then putLink p { k with sub := x, stageAt := s.clock } s
  else setPortState p x (putLink p { k with stageAt := s.clock } s)

/-- The training stage a port stands in (R305). -/
def stageOf (k : Link) : PortState := if k.st = .retrain then k.sub else k.st

/-! ### Reassignment (R269, R285, R306) -/

/-- A buffered frame or copy given another output. -/
def reroute (e : Buffered) (port group : Nat) (f : Frame) (s : State) : State :=
  let moved := fun (x : Buffered) => { x with output := some port, group := group, frame := f }
  { s with sw.buf := updFirst (fun x => decide (x = e)) moved s.sw.buf }

/-- A copy replaced in its place by other copies, so that its queues keep their order (R267). -/
def replaceBy (e : Buffered) (copies : List Copy) (s : State) : State :=
  let anew := copies.map (fun c => { e with output := some c.port, group := c.group, frame := c.frame })
  let cells := e.cells.foldl (fun x i =>
    let b := tblGet bufCell0 x i
    tblSet bufCell0 x i { b with refs := b.refs + (copies.length - 1) }) s.sw.cells
  { s with sw.buf := s.sw.buf.flatMap (fun x => if x = e then anew else [x]), sw.cells := cells }

/-- A copy whose group has no usable link: each bit of a TREE copy is looked up again, and a LINE frame's local copy goes
to the end-point by another of its ports (R269, R285). -/
def redoCopy (e : Buffered) (r : Replicas) (s : State) : State :=
  let s := countLost r s
  if r.copies.isEmpty then removeBuffered e s else replaceBy e r.copies s

/-- One frame given to a port that can no longer take it finds another way (R269, R285): a LINE copy on its group's
other links only, a TREE copy by its group and then bit by bit, a unicast frame through the tables. -/
def reassignOne (s : State) (e : Buffered) : State :=
  let f := { e.frame with vc := e.vcIn, detour := e.detourIn }
  if isReplicated e.frame then
    match hashPick e.frame (if e.group = 0 then [] else usableLinks e.group s) with
    | some q => reroute e q e.group e.frame s
    | none =>
      redoCopy e (if mcMode e.frame.mslot = 0 then replicate e.input f s
                  else if e.group = 0 then lineLocal e.input f s else { noCopies with lost := 1 }) s
  else
    match routeTo e.input (eidPart e.dest) f s with
    | .out q g f d => reroute e q g f (if g = 0 then s else noteWay s (eidPart e.dest, d))
    | .answered st u h => noRoute e.frame st u h (removeBuffered e s)

/-- The frames given to a port and not yet sent are given outputs again (R269, R306). -/
def reassign (p : Nat) (s : State) : State :=
  (s.sw.buf.filter (fun e => decide (e.output = some p))).foldl reassignOne s

/-! ### Leaving service -/

/-- A frame that is cut through to an output ends there, with the abort marker where it is incomplete (R266). -/
def endCut (o : Nat) (aborted : Bool) (s : State) : State :=
  let k := linkOf o s
  if k.cutFrom = none then s
  else
    let s := putLink o { k with cutFrom := none } s
    if aborted then sendFlit o { bareFlit with abortAt := 1 } s else s

/-- The frame in progress at a receiver is discarded and counted as aborted: its cells are freed, and an output it was
cutting through to ends it with the abort marker (R262, R266, R298). -/
def abortInFrame (p : Nat) (s : State) : State :=
  let k := linkOf p s
  if k.inFrame.isEmpty then s
  else
    let f := parseHeader (k.inFrame.getD 0 0)
    let s := bump (0x1910000 + 0x100 * p + 0x20) 1
      (putLink p { k with inFrame := [], cut := none, swallow := false } s)
    let s := match k.cut with
      | some o => endCut o true s
      | none => s
    returnCredits p f.cls f.vc true (frameCells f) s

/-- The frame that is cut through to an output that goes is begun and lost: its input swallows the rest of it (R269). -/
def loseCut (o : Nat) (s : State) : State :=
  match (linkOf o s).cutFrom with
  | none => s
  | some i =>
    let s := putLink o { linkOf o s with cutFrom := none } s
    putLink i { linkOf i s with cut := none, swallow := true } s

/-- What a port that goes out of service drops: flits held for replay, the frame in progress, the frame that is cut
through to it (R269). -/
def dropLink (p : Nat) (s : State) : State :=
  let s := loseCut p (abortInFrame p s)
  let k := linkOf p s
  putLink p { k with replay := [], nak := false, ackDue := 0, txIdle := false, rxIdle := false, signalAt := none,
                     wokeAt := none, width := 0, active := 0, inited := false } s

/-- A port enters LOST (R269, R308). -/
def enterLost (p : Nat) (s : State) : State :=
  let s := dropLink p (setFlag (rPrtStatus p) 1 (setPortState p .lost s))
  reassign p s

/-- A port enters DOWN: its frames are treated as for LOST (R305). -/
def enterDown (p : Nat) (held : Bool) (s : State) : State :=
  let s := dropLink p (setPortState p .down s)
  let s := putLink p { linkOf p s with held := held, lostRetrainAt := none } s
  reassign p s

/-- A port enters RETRAIN: it keeps its replay buffer, its credits and the frame in progress, tells its partner in the
flit it can still send, and its frames not yet begun move to the group's other links (R306). A DEGRADED one tries all 8
lanes again only by a RETRAIN action, its own or its partner's (R307; log entry 77). -/
def enterRetrain (p : Nat) (all : Bool) (s : State) : State :=
  let s := if linkTalks p s && flitRoom p 1 s then sendFlit p { bareFlit with retrainReq := true } s else s
  let s := setFlag (rPrtStatus p) 2 (setPortState p .retrain s)
  let s := putLink p { linkOf p s with half := !all && decide ((linkOf p s).width = 4), sub := .calibrate,
                                       stageAt := s.clock, beganAt := s.clock, fails := 0,
                                       txIdle := false, rxIdle := false, signalAt := none, wokeAt := none } s
  reassign p s

/-! ### Training (R304, R305, R307, R309, R315) -/

/-- PRT_CFG.RATE; 3 acts as 1 (R315). -/
def cfgRate (p : Nat) (s : State) : Nat :=
  let r := getField (rPrtCfg p) 62 61 s
  if r = 3 then 1 else r

/-- A lane entry of the equalisation table is valid (R309). -/
def eqEntryOk (e : BitVec 128) : Bool :=
  let tap := fun i => let v := field e.toNat (8 * i + 7) (8 * i); if v < 128 then v else 256 - v
  let main := field e.toNat 23 16
  decide (tap 0 + tap 1 + main + tap 3 ≤ 127) && decide (64 ≤ main) && decide (field e.toNat 63 56 = 0) &&
    decide (field e.toNat 127 112 = 0)

/-- The equalisation table of the tray's board (R309, R406). -/
def eqTable (s : State) : Option EqTable := s.img.eqTables.find? (fun t => decide (t.board = s.img.board))

/-- The number of a lane's entry (R309). -/
def eqIndex (t : EqTable) (cls rate p lane : Nat) : Nat := ((cls * t.rates + rate) * 36 + p) * 8 + lane

/-- An entry of the table: MAIN 64 where the image lists none (log entry 20). -/
def eqDefault : BitVec 128 := BitVec.ofNat 128 (64 * 2 ^ 16)

/-- The entry applied to a lane of a port at CALIBRATE (R309). -/
def eqEntry (t : EqTable) (p lane : Nat) (rate160 : Bool) (s : State) : BitVec 128 :=
  tblGet eqDefault t.entries (eqIndex t (getField (rPrtCfg p) 60 58 s) (bit1 rate160) p lane)

/-- The port's length class has a valid entry for every lane at the rate trained (R309). -/
def eqValid (p : Nat) (rate160 : Bool) (s : State) : Bool :=
  let c := getField (rPrtCfg p) 60 58 s
  match eqTable s with
  | none => false
  | some t => decide (c < t.classes) && decide (c < 7) && decide (bit1 rate160 < t.rates) &&
      (List.range 8).all (fun l => eqEntryOk (eqEntry t p l rate160 s))

/-- The port is retired alone and held in DOWN (R390, R391). -/
def portRetired (p : Nat) (s : State) : Bool := getBit rKprPrtRetired p s

/-- A port leaves DOWN or LOST for DETECT, unless its role is UNUSED, it is retired, the port sequencers do not run, or its
equalisation entries are not valid (R305, R309, R390, R403). -/
def startTraining (p : Nat) (s : State) : State :=
  let rate160 := decide (cfgRate p s = 2)
  if portRole p s = 0 ∨ portRetired p s = true ∨ s.power.failedComps.contains 1 = true then s
  else if !(eqValid p rate160 s) then setFlag (rPrtStatus p) 5 (if (linkOf p s).st = .down then s
    else enterDown p false s)
  else
    let k := linkOf p s
    let s := putLink p { link0 with st := k.st, rate160 := rate160, lostRetrainAt := k.lostRetrainAt, sync := k.sync,
                                    laneOk := k.laneOk, laneIds := k.laneIds, beganAt := s.clock } s
    setStage p .detect s

/-- A half is whole: L0 to L3 or L4 to L7 (R307). -/
def lowHalf (m : Byte) : Bool := decide (m.toNat % 16 = 15)
def highHalf (m : Byte) : Bool := decide (m.toNat / 16 = 15)

/-- SIGNAL_DETECT: signal on a whole half leaves DETECT (R305); after IDLE it is the start of a wake (R312). -/
def execSignalDetect (p : Fin 36) (lanes : BitVec 8) (s : State) : Host.Outcome State Fault Refusal :=
  act s (fun s =>
    let k := linkOf p.val s
    if k.st = .detect ∧ (lowHalf lanes || highHalf lanes) = true then
      setStage p.val .calibrate (putLink p.val { k with lanes := lanes } s)
    else if k.st = .idle ∧ k.rxIdle = true ∧ lanes ≠ 0 ∧ k.signalAt = none then
      putLink p.val { k with signalAt := some s.clock } s
    else s)

/-- A stage's event moves the port to the next stage (R305). -/
def advance (p : Nat) (frm onto : PortState) (s : State) : State :=
  if stageOf (linkOf p s) = frm then setStage p onto s else s

/-- CALIBRATE_DONE: the image's entries are applied to the lanes, and CDR has locked (R305, R309). -/
def execCalibrateDone (p : Fin 36) (s : State) : Host.Outcome State Fault Refusal :=
  act s (fun s =>
    let k := linkOf p.val s
    if stageOf k = .calibrate then
      setStage p.val .align (putLink p.val { k with eq := match eqTable s with
        | some t => (List.range 8).map (fun l => eqEntry t p.val l k.rate160 s)
        | none => [] } s)
    else s)

/-- ALIGN_DONE (R294, R305). -/
def execAlignDone (p : Fin 36) (s : State) : Host.Outcome State Fault Refusal :=
  act s (advance p.val .align .fecLock)

/-- FEC_LOCK_DONE (R305). -/
def execFecLockDone (p : Fin 36) (s : State) : Host.Outcome State Fault Refusal :=
  act s (advance p.val .fecLock .deskew)

/-- A training failure: first training goes back to DETECT, a retrain restarts at CALIBRATE, and its third failure in
a row makes the port LOST (R305). With RATE AUTO, two failures in ALIGN try 160 Gb/s once, where the table has entries for
it (R309, R315; log entry 78). -/
def trainFail (p : Nat) (s : State) : State :=
  let k := linkOf p s
  let af := if stageOf k = .align ∧ k.rate160 = false then k.alignFails + 1 else k.alignFails
  let auto := decide (cfgRate p s = 0)
  let r160 := auto && !k.rate160 && decide (2 ≤ af) && eqValid p true s
  let k := { k with alignFails := if r160 ∨ k.rate160 = true then 0 else af,
                    rate160 := if auto then r160 else k.rate160, fails := k.fails + 1 }
  let s := putLink p k s
  if k.st = .retrain then
    if 3 ≤ k.fails then enterLost p s else setStage p .calibrate s
  else setStage p .detect s

/-- The credits granted at LINK_INIT: RSV on every VC, and no loan. The frames still here used credits of before: none
are returned for them (R262). -/
def grantInit (p : Nat) (s : State) : State :=
  { s with credit := tblKeep (fun i => !(decide (i / 16 = p))) s.credit,
           owed := (List.range 16).foldl (fun t v => tblSet 0 t (16 * p + v) (classRsv (v / 2) s)) s.owed,
           sw.lent := tblKeep (fun i => !(decide (i / 16 = p))) s.sw.lent,
           sw.buf := updAll (fun e => decide (e.input = p)) (fun e => { e with paid := false }) s.sw.buf,
           sw.coreIn := updAll (fun e => decide (e.input = p)) (fun e => { e with paid := false }) s.sw.coreIn }

/-- The lanes a port tells its partner it can receive on: those that passed, or L0 to L3 of two whole halves where it is to
end at one (R304, R307). -/
def rxMask (k : Link) : Byte := if k.half && lowHalf k.laneOk && highHalf k.laneOk then 0x0F else k.laneOk

/-- The init record a port sends: its part ID, its port, the lanes it receives without fault, its rate, VERSION 1, and in
a retrain RESUME with the FSEQ it expects next (R304). -/
def initRecord (p : Nat) (s : State) : Slot :=
  let k := linkOf p s
  BitVec.ofNat 256 ((partId s).toNat + p * 2 ^ 16 + (rxMask k).toNat * 2 ^ 24 + bit1 k.rate160 * 2 ^ 32 + 2 ^ 40 +
    (if k.st = .retrain then (k.lastRx + 1).toNat + 2 ^ 15 else 0) * 2 ^ 48)

/-- Sends a flit with INIT: the init record in slot 1, VALID and START zero, and at a first LINK_INIT the credits granted.
It takes no place in the sequence (R304, log entry 51). -/
def sendInit (p : Nat) (s : State) : State :=
  let k := linkOf p s
  let rec_ := initRecord p s
  let first := decide (k.st ≠ .retrain)
  let ctl := withCrc (controlBits k bareFlit (if first then creditField p s else 0) true) [rec_]
  putLink p { k with initTx := some (ctl, [rec_]) } (if first then takeOwed p s else s)

/-- DESKEW_DONE: each lane's alignment block names it and matches it to the others; the lanes that do not pass have
failed, and without a whole half the training fails (R294, R305, R306, R307). A first LINK_INIT grants RSV credits; the
port sends its init record (R304). -/
def deskewed (p : Nat) (blocks : List AlignRx) (s : State) : State :=
  let k := linkOf p s
  let ids := deskewLanes blocks
  let lanes := laneMask ids
  if stageOf k = .deskew then
    if (lowHalf lanes || highHalf lanes) = false then trainFail p s
    else
      let s := if k.st = .retrain then s else grantInit p s
      let s := putLink p { k with laneOk := lanes, laneIds := ids, initGot := false, initAcked := false, resume := none }
        s
      sendInit p (setStage p .linkInit s)
  else s

/-- DESKEW_DONE (R262, R294, R304, R305, R307). -/
def execDeskewDone (p : Fin 36) (blocks : List AlignRx) (s : State) : Host.Outcome State Fault Refusal :=
  act s (deskewed p.val blocks)

/-- Adds the credits of a CREDITS field to what this part holds as sender (R262, R296). -/
def addCredits (p : Nat) (credits : Nat) (s : State) : State :=
  { s with credit := (List.range 16).foldl (fun t v =>
      tblSet 0 t (16 * p + v) (tblGet 0 t (16 * p + v) + field credits (6 * v + 5) (6 * v))) s.credit }

/-- The distance from one flit sequence to another, modulo 4,096. -/
def seqDist (a b : BitVec 12) : Nat := (b.toNat + 4096 - a.toNat) % 4096

/-- The FSEQ of the oldest flit held for replay. -/
def oldestSeq (k : Link) : BitVec 12 := k.fseq - BitVec.ofNat 12 k.replay.length

/-- Drops the flits before a sequence the partner expects next (R301, R304). -/
def ackBefore (next : BitVec 12) (k : Link) (t : Nat) : Link :=
  let n := seqDist (oldestSeq k) next
  if n = 0 ∨ k.replay.length < n then k
  else { k with replay := k.replay.drop n, ackAt := t }

/-- Resends every flit held, from the oldest, with REPLAY set and its acknowledgement fields refreshed (R301, R303). -/
def resend (p : Nat) (s : State) : State :=
  let k := linkOf p s
  putLink p { k with replay := k.replay.map (refreshed k), ackDue := 0, ackAt := s.clock } s

/-- The lanes in use once both sides know each other's: all 8, or one whole half, L0 to L3 first (R307). -/
def lanesInUse (both : Byte) : Byte :=
  if lowHalf both && highHalf both then 0xFF else if lowHalf both then 0x0F else if highHalf both then 0xF0 else 0

/-- LINK_INIT completes: the width of R307, and after a retrain the resumption from the partner's RESUME (R304). -/
def linkInitDone (p : Nat) (s : State) : State :=
  let k := linkOf p s
  let use := lanesInUse (rxMask k &&& k.partnerRx)
  let width := (lanesOf use).length
  if width = 0 then trainFail p s
  else
    let k' := { k with width := width, active := use, inited := true, fails := 0, alignFails := 0,
                       lostRetrainAt := none, quietSince := s.clock,
                       replay := k.replay.map (fun h => { h with sends := 0 }) }
    let k' := match k.st, k.resume with
      | .retrain, some r => ackBefore r k' s.clock
      | _, _ => k'
    let s := putLink p k' s
    let s := if k.st = .retrain ∧ !k'.replay.isEmpty then resend p s else s
    let s := if width = 4 then setFlag (rPrtStatus p) 3 s else s
    setPortState p (if width = 8 then .active else .degraded) s

/-- A received init record (R304): accepted in LINK_INIT. Different RATE fields fail the training (R315); a record
without RESUME bit 15 loses a port in RETRAIN. The partner's credits come with it (R262). -/
def initReceived (p : Nat) (rec : Slot) (credits : BitVec 96) (acked : Bool) (s : State) : State :=
  let k := linkOf p s
  if stageOf k ≠ .linkInit then s
  else if (slotByte rec 4).toNat ≠ bit1 k.rate160 then trainFail p s
  else if k.st = .retrain ∧ rec.getLsbD 63 = false then enterLost p s
  else
    let k' := { k with initGot := true, initAcked := k.initAcked || acked, partnerEp := rec.getLsbD 15,
                       partnerPart := BitVec.ofNat 12 rec.toNat,
                       partnerPort := BitVec.ofNat 6 (slotByte rec 2).toNat, partnerRx := slotByte rec 3,
                       resume := some (BitVec.ofNat 12 (rec.toNat / 2 ^ 48)) }
    let s := addCredits p credits.toNat (putLink p k' s)
    if k'.initAcked then linkInitDone p s else s

/-- INIT_RECORD (R262, R304, R305, R307, R315, R419). -/
def execInitRecord (p : Fin 36) (record : BitVec 256) (credits : BitVec 96) (acked : Bool) (s : State) :
    Host.Outcome State Fault Refusal :=
  act s (initReceived p.val record credits acked)

/-- The time limit of a stage in ns (R305). -/
def stageLimit : PortState → Option Nat
  | .calibrate => some 200000
  | .align => some 500000
  | .fecLock => some 100000
  | .deskew => some 200000
  | .linkInit => some 100000
  | _ => none

/-- TRAINING_TIMEOUT: a stage's limit has run out (R305, R315). -/
def execTrainingTimeout (p : Fin 36) (s : State) : Host.Outcome State Fault Refusal :=
  act s (fun s =>
    let k := linkOf p.val s
    match stageLimit (stageOf k) with
    | some l => if due (k.stageAt + l) s then trainFail p.val s else s
    | none => s)

/-! ### Flits (R296 to R303) -/

/-- Whether a frame in progress at a link may cut through to an output (R265). -/
def mayCutThrough (input output : Nat) (f : Frame) (s : State) : Bool :=
  decide (output < 36) && !f.mcast && getBit rSwcCut input s && getBit rSwcCut output s &&
    (linkOf input s).rate160 && (linkOf output s).rate160 &&
    decide ((linkOf output s).width ≤ (linkOf input s).width) &&
    s.sw.buf.any (fun e => decide (e.output = some output))

/-- An output can begin a frame that is cut through to it: it has credit and replay space for the whole of it, sends no
other frame, and no earlier frame of its input and class waits (R262, R267, R298, R301). -/
def cutReady (input output : Nat) (f : Frame) (s : State) : Bool :=
  hasCredit output f s && flitRoom output 67 s && (firstWaiting? input f.cls s).isNone &&
    (queueHead input (some output) f.cls s).isNone && !(heldAtEntry input f s)

/-- The output a frame in progress is given once its header has passed its checks, with its group and the frame as
routed (R266). -/
def cutOutput (p : Nat) (f : Frame) (s : State) : Option (Nat × Nat × Frame × Bool) :=
  if badFrame f then none
  else match routeTo p (eidPart f.dst) f s with
    | .out o g f' d => if mayCutThrough p o f s && cutReady p o f' s then some (o, g, f', d) else none
    | .answered _ _ _ => none

/-- The header slot of a frame that cuts through leaves at once, as a flit of its own; the credits of its output are taken
(R262, R266, R277). A BULK frame is metered and may be dropped as any other (R275, R276). -/
def beginCut (p : Nat) (f : Frame) (s : State) : State :=
  match cutOutput p f s with
  | none => s
  | some (o, g, f', d) =>
    let s := prof bRTE p f.part.toNat evIn 1 (prof bSWC p f.part.toNat evIn 1 s)
    let (f', s) := meterFrame p f' s
    let s := if g = 0 then s else noteWay s (eidPart f.dst, d)
    let (dropped, s) := redDrops f' o s
    if dropped then
      bump (0x1920000 + 0x40 * f.cls.toNat) 1 (putLink p { linkOf p s with swallow := true } s)
    else
      let uid := s.sw.nextUid
      let x : Entry := ⟨p, s.clock, now s, true, []⟩
      let out := leavingFrame (x.record f uid (some o) g f' false) o s
      let s := beginSend o out (profDepart o out (countDepart o f.cls { s with sw.nextUid := uid + 1 }))
      let s := sendFlit o { bareFlit with start := 1, slots := [headerSlot out],
                                          frames := [(uid, holdParts f s)] } s
      let s := putLink o { linkOf o s with cutFrom := some p } s
      noteFlying (putLink p { linkOf p s with cut := some o, cutUid := uid } s)

/-- A later slot of a frame that is cut through goes on as it arrives (R266). -/
def sendOn (p : Nat) (x : Slot) (s : State) : State :=
  let k := linkOf p s
  match k.cut with
  | none => s
  | some o => sendFlit o { bareFlit with slots := [x],
                                         frames := [(k.cutUid, holdParts (parseHeader (k.inFrame.getD 0 0)) s)] } s

/-- The last slot of a frame has arrived: the frame waits at the core input, or has gone on already, or is swallowed
(R264, R266, R269). -/
def frameWhole (p : Nat) (s : State) : State :=
  let k := linkOf p s
  let f := parseFrame k.inFrame
  let s := prof bPRT p f.part.toNat evBytes (32 * wireSlots f) (prof bPRT p f.part.toNat evIn 1 s)
  let s := putLink p { linkOf p s with inFrame := [], cut := none, swallow := false } s
  match k.cut with
  | some o => returnCredits p f.cls f.vc true (frameCells f) (endCut o false s)
  | none =>
    if k.swallow then returnCredits p f.cls f.vc true (frameCells f) s
    else { s with sw.coreIn := s.sw.coreIn ++ [⟨p, k.headAt, k.headTb, true, f⟩] }

/-- One slot of an accepted flit (R298). A header slot is accepted here (R277). -/
def takeSlot (p : Nat) (abortAt start valid : Nat) (s : State) (i : Nat × Slot) : State :=
  let s := if abortAt = i.1 ∧ abortAt ≠ 0 then abortInFrame p s else s
  let isStart := decide ((start / 2 ^ (i.1 - 1)) % 2 = 1)
  let isValid := decide ((valid / 2 ^ (i.1 - 1)) % 2 = 1)
  if !isValid || decide (abortAt = i.1 ∧ abortAt ≠ 0) then s
  else
    let s := if isStart then abortInFrame p s else s
    let k := linkOf p s
    if !isStart && k.inFrame.isEmpty then s
    else
      let f := parseHeader ((k.inFrame ++ [i.2]).getD 0 0)
      let s := putLink p { k with inFrame := k.inFrame ++ [i.2],
                                  headAt := if isStart then s.clock else k.headAt,
                                  headTb := if isStart then now s else k.headTb } s
      let s := if isStart then beginCut p f s else sendOn p i.2 s
      if wireSlots f ≤ k.inFrame.length + 1 then frameWhole p s else s

/-- A flit is good: its CRC agrees and none of its blocks lay in an uncorrectable codeword (R291, R297). -/
def flitGood (ctl : Slot) (slots : List Slot) (words : List CodewordRx) : Bool :=
  !(words.any (fun w => uncorrectable w.wrong)) && decide (flitCrc (ctl.toNat % 2 ^ 224) slots = ctl.toNat / 2 ^ 224)

/-- The codewords counted with a flit: symbols corrected, or a codeword that cannot be (R291, R425). -/
def countWords (p : Nat) (words : List CodewordRx) (s : State) : State :=
  words.foldl (fun s w =>
    let a := 0x1910040 + 0x100 * p + 16 * w.lane.val
    if !w.counted then s else if uncorrectable w.wrong then bump (a + 8) 1 s else bump a w.wrong s) s

/-- A flit carries something beside its acknowledgement: slots, credits or a time-sync field. -/
def carries (ctl : Slot) : Bool :=
  decide (field ctl.toNat 46 32 ≠ 0) || decide (field ctl.toNat 175 72 ≠ 0)

/-- Flits that carry something are held for replay. -/
def carriesHeld (k : Link) : Bool := k.replay.any (fun h => carries h.ctl)

/-- A replay begins, or the port retrains because a flit it would send again has been sent 8 times (R303, R306). -/
def replayOrRetrain (p : Nat) (s : State) : State :=
  if (linkOf p s).replay.any (fun h => decide (8 ≤ h.sends)) then enterRetrain p false s
  else resend p (bump (0x1910018 + 0x100 * p) 1 s)

/-- What an accepted flit does (R301 to R303, R306, R310). -/
def acceptFlit (p : Nat) (ctl : Slot) (slots : List Slot) (s : State) : State :=
  let k := linkOf p s
  let k := { k with lastRx := BitVec.ofNat 12 ctl.toNat, nak := false, wokeAt := none,
                    ackDue := if carries ctl then 2 else max 1 k.ackDue }
  let held := carriesHeld k
  let k := if ctl.getLsbD 24 then ackBefore (BitVec.ofNat 12 (ctl.toNat / 2 ^ 12) + 1) k s.clock else k
  let k := if held && !(carriesHeld k) then { k with quietSince := s.clock } else k
  let s := addCredits p (field ctl.toNat 167 72) (putLink p k s)
  let valid := field ctl.toNat 46 32
  let n := ((List.range 15).filter (fun i => decide ((valid / 2 ^ i) % 2 = 1))).length
  let s := bump (0x1910008 + 0x100 * p) n s
  let s := ((List.range 15).map (fun i => (i + 1, slots.getD i 0))).foldl
    (takeSlot p (field ctl.toNat 67 64) (field ctl.toNat 62 48) valid) s
  let s := takeTsync p ctl s
  if ctl.getLsbD 27 then enterRetrain p true s
  else
    let s := if ctl.getLsbD 25 && !(linkOf p s).replay.isEmpty then replayOrRetrain p s else s
    if ctl.getLsbD 28 && decide ((linkOf p s).st ≠ .retrain) then
      setPortState p .idle (putLink p { linkOf p s with rxIdle := true } s)
    else s

/-- A flit at a port: accepted only if good and next in order, and after a bad one only as a replayed copy; a bad one
starts NAK; any other is discarded (R302). -/
def flitAt (p : Nat) (ctl : Slot) (slots : List Slot) (words : List CodewordRx) (s : State) : State :=
  let k := linkOf p s
  if !(portUp p s || (decide (k.st = .idle) && !k.rxIdle)) then s
  else
    let s := countWords p words s
    if !(flitGood ctl slots words) then putLink p { k with nak := true } s
    else if BitVec.ofNat 12 ctl.toNat = k.lastRx + 1 ∧ ctl.getLsbD 29 = false ∧ (k.nak = false ∨ ctl.getLsbD 26 = true)
    then acceptFlit p ctl slots s
    else s

/-- FLIT_RECEIVE (R262, R266, R291, R296 to R298, R301 to R303, R306, R310, R417, R418, R422, R425). -/
def execFlitReceive (p : Fin 36) (ctl : BitVec 256) (slots : List (BitVec 256)) (words : List CodewordRx) (s : State) :
    Host.Outcome State Fault Refusal :=
  act s (flitAt p.val ctl slots words)

/-- REPLAY_TIMEOUT: no advance of ACK for 2 µs resends from the oldest; a flit sent 8 times retrains (R303, R306). -/
def execReplayTimeout (p : Fin 36) (s : State) : Host.Outcome State Fault Refusal :=
  act s (fun s =>
    let k := linkOf p.val s
    if !k.replay.isEmpty && linkTalks p.val s && due (k.ackAt + 2000) s then replayOrRetrain p.val s else s)

/-! ### Loss (R306, R308) -/

/-- LANE_FAIL: a lane loses lock or has 16 uncorrectable codewords in 1 ms; the port retrains while the remaining
lanes hold a whole half (R306). -/
def execLaneFail (p : Fin 36) (lane : Fin 8) (s : State) : Host.Outcome State Fault Refusal :=
  act s (fun s =>
    let k := linkOf p.val s
    let left := k.laneOk &&& ~~~(BitVec.ofNat 8 (2 ^ lane.val))
    if portUp p.val s && (lowHalf left || highHalf left) then enterRetrain p.val false s else s)

/-- PORT_LOST: a whole half silent for 1 µs, or no accepted flit within 2 µs of waking (R308). -/
def execPortLost (p : Fin 36) (s : State) : Host.Outcome State Fault Refusal :=
  act s (fun s =>
    let k := linkOf p.val s
    let woke := match k.wokeAt with
      | some t => due (t + 2000) s
      | none => false
    if portUp p.val s || (decide (k.st = .idle) && woke) then enterLost p.val s else s)

/-! ### Electrical idle (R310 to R312) -/

/-- The port carries time synchronisation: a measurement or locked time on the parent port, or stamps of a child in the
last 20 µs on any other (R310, R418, R421; log entry 52). -/
def carriesTime (p : Nat) (s : State) : Bool :=
  if parentPort s = p ∧ isRoot s = false then s.time.measuring || lockedMode s
  else
    let x := tblGet (0, false) s.time.stamps p
    decide (x ≠ (0, false)) && decide ((now s - x.1).toNat ≤ 20000)

/-- A sender has something to send: a frame given to it or cut through to it, credits owed, flits unacknowledged, an
acknowledgement owed or a NAK. Flits that carry only acknowledgements keep no link awake (R310, R311; log entry 52). -/
def hasWork (p : Nat) (s : State) : Bool :=
  let k := linkOf p s
  s.sw.buf.any (fun e => decide (e.output = some p)) ||
    (List.range 16).any (fun v => decide (tblGet 0 s.owed (16 * p + v) ≠ 0)) ||
    carriesHeld k || k.nak || decide (k.ackDue = 2) || decide (k.cutFrom ≠ none)

/-- IDLE_TIME in ns; 0 acts as 50 µs (PRT_CFG). -/
def idleTime (p : Nat) (s : State) : Nat :=
  let t := getField (rPrtCfg p) 47 32 s
  1000 * (if t = 0 then 50 else t)

/-- IDLE_ENTRY: the sender has been quiet for IDLE_TIME; it sends one flit with IDLE_REQ and stops (R310). -/
def execIdleEntry (p : Fin 36) (s : State) : Host.Outcome State Fault Refusal :=
  act s (fun s =>
    let k := linkOf p.val s
    if (portUp p.val s || decide (k.st = .idle)) && !k.txIdle && getBit (rPrtCfg p.val) 55 s &&
        !(carriesTime p.val s) && !(hasWork p.val s) && flitRoom p.val 1 s &&
        due (k.quietSince + idleTime p.val s) s then
      let s := sendFlit p.val { bareFlit with idleReq := true } s
      setPortState p.val .idle (putLink p.val { linkOf p.val s with txIdle := true } s)
    else s)

/-- The state of a port both of whose directions are awake, by its width. -/
def awakeState (k : Link) : PortState := if k.width = 8 then .active else .degraded

/-- WAKE: the sender has something to send and wakes (R311). The port stays IDLE while its receiver is idle (R310). -/
def execWake (p : Fin 36) (s : State) : Host.Outcome State Fault Refusal :=
  act s (fun s =>
    let k := linkOf p.val s
    if k.st = .idle ∧ k.txIdle = true ∧ (hasWork p.val s || carriesTime p.val s) = true then
      let s := putLink p.val { k with txIdle := false, wokeAt := some s.clock } s
      if k.rxIdle then s else setPortState p.val (awakeState k) s
    else s)

/-- WAKE_RECEIVE: the wake codeword has been checked (R311). -/
def execWakeReceive (p : Fin 36) (s : State) : Host.Outcome State Fault Refusal :=
  act s (fun s =>
    let k := linkOf p.val s
    if k.st = .idle ∧ k.rxIdle = true then
      let s := putLink p.val { k with rxIdle := false, signalAt := none } s
      if k.txIdle then s else setPortState p.val (awakeState k) s
    else s)

/-- WAKE_TIMEOUT: signal after IDLE without a checked wake codeword within 1 µs enters RETRAIN (R312). -/
def execWakeTimeout (p : Fin 36) (s : State) : Host.Outcome State Fault Refusal :=
  act s (fun s =>
    let k := linkOf p.val s
    match k.st, k.rxIdle, k.signalAt with
    | .idle, true, some t => if due (t + 1000) s then enterRetrain p.val false s else s
    | _, _, _ => s)

/-! ### Port registers -/

/-- A write to PRT_CFG: ENABLE trains a port in DOWN unless the DOWN action holds it there or it is under test, and
clearing ENABLE moves any state to DOWN (R305, R313). -/
def writePortCfg (p : Nat) (v : Word) (s : State) : State :=
  let s := plainWrite (rPrtCfg p) v s
  let k := linkOf p s
  if portRole p s = 0 then s
  else if wbit v 63 then
    if k.st = .down ∧ k.held = false ∧ getBit (rPrtTest p) 63 s = false then startTraining p s else s
  else if k.st = .down then putLink p { k with held := false } s
  else enterDown p false s

/-- PORT_CFG_WRITE (R16, R269, R305, R315). -/
def execPortCfgWrite (side : Side) (p : Fin 36) (val : Word) (s : State) : Host.Outcome State Fault Refusal :=
  act s (fun s => guarded side bPRT false (.prt p.val) s (writePortCfg p.val val))

/-- A refused PRT_CTL action or PRT_TEST write (R313). -/
def portRefuse (p : Nat) (s : State) : State := refuse bPRT (rPrtStatus p) 4 s

/-- The RETRAIN action (PRT_CTL, R305, R306, R312, R388). -/
def portRetrain (p : Nat) (s : State) : State :=
  let k := linkOf p s
  if liveState k.st then enterRetrain p true s
  else if k.st = .lost then startTraining p (putLink p { k with lostRetrainAt := some s.clock } s)
  else if k.st = .down ∧ getBit (rPrtCfg p) 63 s = true ∧ getBit (rPrtTest p) 63 s = false ∧
      portRole p s ≠ 0 ∧ portRetired p s = false then startTraining p s
  else portRefuse p s

/-- PORT_RETRAIN (R305, R306, R312). -/
def execPortRetrain (side : Side) (p : Fin 36) (s : State) : Host.Outcome State Fault Refusal :=
  act s (fun s => guarded side bPRT false (.prt p.val) s (portRetrain p.val))

/-- DOWN: the port enters DOWN with ENABLE kept, and leaves it only through RETRAIN (R313, PRT_CTL). -/
def execDown (side : Side) (p : Fin 36) (s : State) : Host.Outcome State Fault Refusal :=
  act s (fun s => guarded side bPRT false (.prt p.val) s (enterDown p.val true))

/-- CLEAR_COUNTS: ERRORS of every lane and PRT_TEST_BITS are zeroed together (R314). -/
def clearTestCounts (p : Nat) (s : State) : State :=
  (List.range 8).foldl (fun s l => putField (rPrtLaneTest p l) 47 0 0 s) (putReg (rPrtTestBits p) 0 s)

/-- CLEAR_COUNTS (R314). -/
def execClearCounts (side : Side) (p : Fin 36) (s : State) : Host.Outcome State Fault Refusal :=
  act s (fun s => guarded side bPRT false (.prt p.val) s (clearTestCounts p.val))

/-- A write to PRT_TEST: TEST_EN = 1 only on a port in DOWN with ENABLE = 1 (R313). -/
def writePortTest (p : Nat) (v : Word) (s : State) : State :=
  if wbit v 63 && !(decide ((linkOf p s).st = .down) && getBit (rPrtCfg p) 63 s) then portRefuse p s
  else
    let s := plainWrite (rPrtTest p) v s
    if wbit v 63 then s else putLink p { linkOf p s with sync := 0 } s

/-- PORT_TEST_WRITE (R313). -/
def execPortTestWrite (side : Side) (p : Fin 36) (val : Word) (s : State) : Host.Outcome State Fault Refusal :=
  act s (fun s => guarded side bPRT false (.prt p.val) s (writePortTest p.val val))

/-- The checker runs on a lane: test mode, CHECK on, the lane in LANE_MASK (R313, R314). -/
def checking (p l : Nat) (s : State) : Bool :=
  getBit (rPrtTest p) 63 s && getBit (rPrtTest p) 61 s && getBit (rPrtTest p) (48 + l) s

/-- CHECKER_SYNC: 64 consecutive bits match on a lane (R314). -/
def execCheckerSync (p : Fin 36) (lane : Fin 8) (s : State) : Host.Outcome State Fault Refusal :=
  act s (whenTrue (checking p.val lane.val s) (fun s =>
    putLink p.val { linkOf p.val s with sync := (linkOf p.val s).sync ||| BitVec.ofNat 8 (2 ^ lane.val) } s))

/-- CHECKER_SYNC_LOST: 64 consecutive bits differ on a synchronised lane: they count as errors, with those that differed
since the lane synchronised, which the command reports; the bits checked count as time passes (R314). -/
def execCheckerSyncLost (p : Fin 36) (lost : LaneErrors) (s : State) : Host.Outcome State Fault Refusal :=
  act s (fun s =>
    let lane := lost.lane
    let k := linkOf p.val s
    if checking p.val lane.val s && k.sync.getLsbD lane.val then
      let o := rPrtLaneTest p.val lane.val
      let s := putLink p.val { k with sync := k.sync &&& ~~~(BitVec.ofNat 8 (2 ^ lane.val)) } s
      let s := putField o 47 0 (satAdd (2 ^ 48 - 1) (getField o 47 0 s) (lost.errors + 64)) s
      setFlag o 62 s
    else s)

end Sys2Proof.Machine
end

