-- ==== Sys2Proof/Machine/Clock.lean ====
section
/-! DEFINITION. Time bases: measuring against the parent, locked time, TIME_SYNC, time frames, the passing of time
(R13, R417 to R424). -/
namespace Sys2Proof.Machine

/-! ### The passing of time -/

/-- The time base counts: from stage 0x05 on, while the part has power (R13, R401). -/
def timeRuns (s : State) : Bool := s.powered && decide (0x05 ≤ s.power.stage ∧ s.power.stage ≤ 0x0D)

/-- One nanosecond of the time base under the rate correction of R421, in units of 10⁻¹²: the whole part is counted, the
rest kept. -/
def countTime (s : State) : State :=
  let n := (s.timeFrac + (1000000000000 + s.time.rate).toNat)
  { s with timeBase := s.timeBase + BitVec.ofNat 64 (n / 1000000000000), timeFrac := n % 1000000000000 }

/-- The frame slots a port could have sent in the nanosecond that ends now: 15 each flit time of 1.7 ns at 8 lanes and
320 Gb/s, twice that at 4 lanes and again at 160 Gb/s (R295, R315, R425). -/
def slotsInTick (k : Link) (t : Nat) : Nat :=
  let d := 17 * (if k.width = 4 then 2 else 1) * (if k.rate160 then 2 else 1)
  15 * (10 * t / d - 10 * (t - 1) / d)

/-- What a port counts in a nanosecond: CAP_SLOTS while it is usable, PRT_TEST_BITS while a lane's checker holds SYNC
(R314, R425). -/
def countPort (s : State) (e : Nat × Link) : State :=
  let s := if portUsable e.1 s then bump (0x1910010 + 0x100 * e.1) (slotsInTick e.2 s.clock) s else s
  if e.2.sync = 0 then s
  else putReg (rPrtTestBits e.1) (getReg (rPrtTestBits e.1) s + (if e.2.rate160 then 160 else 320)) s

/-- The clock in MHz that a block's profiling counts by: its island's (R12, R427); a port's recovered clock is not stated,
so a port's counters take the switch core's (log entry 44). -/
def blockMhz (b : Nat) : Nat :=
  if b = bARY then 1500
  else if b = bMEM then 1200
  else if b = bKPR ∨ b = bSEC ∨ b = bTIM ∨ b = bCNT ∨ b = bDBG then 800
  else 1250

/-- The clocks of a block in the nanosecond that ends now. -/
def clocksInTick (b t : Nat) : Nat := t * blockMhz b / 1000 - (t - 1) * blockMhz b / 1000

/-- A profiling counter that selects CLOCKS counts the clocks of its block, whatever its PARTITION and INSTANCE (R427; log
entry 44). -/
def countClocks (s : State) (e : Nat × Word) : State :=
  let b := (e.1 - rProfSel 0 0) / 0x400
  if rProfSel 0 0 ≤ e.1 ∧ e.1 < rProfSel 14 0 ∧ (e.1 - rProfSel 0 0) % 0x400 < 0x200 ∧ wbit e.2 63 = true ∧
      wfield e.2 7 0 = 1 then
    bump (e.1 + 0x200) (clocksInTick b s.clock) s
  else s

/-- One nanosecond passes: the clock that deadlines are measured on, the time base, the ports' counts, the clocks that
profiling counts, and ROOM_US each microsecond (R13, R314, R425, R427). -/
def tick (s : State) : State :=
  let s := { s with clock := s.clock + 1 }
  let s := if timeRuns s then countTime s else s
  let s := if s.powered then s.regs.foldl countClocks (s.links.foldl countPort s) else s
  if s.powered && decide (s.clock % 1000 = 0) then bump 0x1930020 s.array.rooms.length s else s

/-! ### Measuring (R418, R419) -/

/-- A sum over samples. -/
def sumOf (f : Sample → Int) (l : List Sample) : Int := l.foldl (fun t x => t + f x) 0

/-- The results of a measurement: OFFSET at the last time, RATE in 10⁻¹², DELAY, MEAS_TIME, the fractions cut
downward (R418; log entry 45). -/
def measureResults (l : List Sample) : Int × Int × Int × Nat :=
  let last := (l.getLast?.map (fun x => x.at_)).getD 0
  let n : Int := l.length
  let x := fun (p : Sample) => (p.at_ : Int) - last
  let sx := sumOf x l
  let sy := sumOf (fun p => p.offset) l
  let sxx := n * sumOf (fun p => x p * x p) l - sx * sx
  let sxy := n * sumOf (fun p => x p * p.offset) l - sx * sy
  let rate := 1000000000 * sxy / sxx
  let offset := if sxx = 0 then sy / n else (sy * sxx - sxy * sx) / (n * sxx)
  (offset, rate, sumOf (fun p => p.delay) l / n, last)

/-- Writes the results and sets MEAS_DONE (R418). -/
def measureDone (r : Int × Int × Int × Nat) (s : State) : State :=
  let s := putReg rTimOffset (BitVec.ofInt 64 r.1) s
  let s := putReg rTimRate ((BitVec.ofInt 32 r.2.2.1 ++ BitVec.ofInt 32 r.2.1 : BitVec 64)) s
  let s := putReg rTimMeasTime (BitVec.ofNat 64 r.2.2.2) s
  setFlag rTimStatus 0 { s with time.measuring := false, time.samples := [], time.exchanges := 0, time.missed := 0 }

/-- A write to TIM_CTL: MEASURE joins one that runs; on the root it completes at once with zeros; any other action is
counted (R419). -/
def writeTimCtl (v : Word) (s : State) : State :=
  if wfield v 1 0 ≠ 1 then blockEvent bTIM s
  else
    let s := profItem bTIM s
    if isRoot s then measureDone (0, 0, 0, 0) s
    else if s.time.measuring then s else beginMeasure s

/-- MEASURE (R418, R419). -/
def execMeasure (side : Side) (s : State) : Host.Outcome State Fault Refusal :=
  act s (fun s => guarded side bTIM false .pwr s (writeTimCtl 1))

/-- MEASURE_EXCHANGE: 1 ms after the last one an exchange begins; one before it that is still open went unanswered, and ten
such in a row fail the measurement (R418, R419). -/
def execMeasureExchange (_stamps : Unit) (s : State) : Host.Outcome State Fault Refusal :=
  act s (fun s =>
    if s.time.measuring && decide (s.time.exchanges < 100) && due (s.time.lastExchange + 1000000) s then
      let open_ := decide (s.time.sentAt ≠ none) && s.time.forMeasure
      let s := { s with time.missed := s.time.missed + bit1 open_, time.lastExchange := s.clock }
      if 10 ≤ s.time.missed then measureFails s else startExchange true s
    else s)

/-- MEASURE_DONE: the 100th exchange has been made (R418). -/
def execMeasureDone (s : State) : Host.Outcome State Fault Refusal :=
  act s (fun s =>
    if s.time.measuring && decide (s.time.exchanges = 100) then measureDone (measureResults s.time.samples) s else s)

/-! ### Locked time (R421, R422) -/

/-- LOCK_EXCHANGE: every 10 µs an exchange with the parent begins; one of a measurement that is open serves for it (R421,
log entry 53). -/
def execLockExchange (_stamps _rooted : Unit) (s : State) : Host.Outcome State Fault Refusal :=
  act s (fun s =>
    if lockedMode s && !(isRoot s) && due (s.time.lastLock + 10000) s then
      let s := { s with time.lastLock := s.clock }
      if s.time.sentAt ≠ none ∧ s.time.forMeasure = true then s else startExchange false s
    else s)

/-- A write to TIM_CFG: a running measurement fails; a change of PARENT_PORT, or of ROOT or MODE, starts acquisition
anew (R419, R422). -/
def writeTimCfg (v : Word) (s : State) : State :=
  let old := getReg rTimCfg s
  let s := plainWrite rTimCfg v (if s.time.measuring then measureFails s else s)
  if getReg rTimCfg s = old then s
  else { s with time.locked := false, time.holdover := false, time.strayed := s.clock,
                time.rate := if lockedMode s then s.time.rate else 0 }

/-- TIM_CFG_WRITE (R419, R422). -/
def execTimCfgWrite (side : Side) (val : Word) (s : State) : Host.Outcome State Fault Refusal :=
  act s (fun s => guarded side bTIM false .pwr s (writeTimCfg val))

/-! ### TIME_SYNC (R423) -/

/-- TIME_SYNC_PULSE: the root drives the pin high for 100 ns at each multiple of 10⁶ ns. -/
def execTimeSyncPulse (s : State) : Host.Outcome State Fault Refusal :=
  act s (fun s =>
    if isRoot s && decide ((now s).toNat % 1000000 = 0) then { s with time.pulseUntil := some (s.clock + 100) } else s)

/-- TIME_SYNC is driven high. -/
def timeSyncPin (s : State) : Bool :=
  match s.time.pulseUntil with
  | some t => isRoot s && decide (s.clock < t)
  | none => false

/-- TIME_SYNC_EDGE: recorded by every part but the root; one less than 1 µs after the edge before is ignored. -/
def execTimeSyncEdge (s : State) : Host.Outcome State Fault Refusal :=
  act s (fun s =>
    if isRoot s then s
    else
      let near := match s.time.lastEdge with
        | some t => decide (s.clock < t + 1000)
        | none => false
      let s := { s with time.lastEdge := some s.clock }
      if near then s else putReg rTimPulse (now s) s)

/-! ### Time frames (R424) -/

/-- When the header of a delivered TIME_QUERY was accepted at the part's input: now, for one that was not delivered
through the core. -/
def queryTime (f : Frame) (s : State) : Word :=
  match s.tgt.queries.find? (fun x => decide (x.1 = f)) with
  | some x => x.2
  | none => now s

/-- The TIME_REPLY of a query; TURN is filled in as it leaves (R424). -/
def timeReply (f : Frame) (t2 : Word) (s : State) : Frame :=
  { blankFrame with dst := f.src, src := selfEid 0 s, ty := tyMgmt, cls := clTime, stream := f.stream, seq := f.seq,
                    off := t2.setWidth 48, be := 2 }

/-- TIME_QUERY: answered with one TIME_REPLY (R424). -/
def queryTimeArrives (port : Nat) (f : Frame) (s : State) : State :=
  if f.cls = clTime ∧ f.ty = tyMgmt ∧ f.be = 1 then
    let t2 := queryTime f s
    let s := { s with tgt.arrived := eraseFirst (fun x => decide (x.1 = port ∧ x.2 = f)) s.tgt.arrived,
                      tgt.queries := eraseFirst (fun x => decide (x.1 = f)) s.tgt.queries }
    sendCore (36 + port) (timeReply f t2 s) s
  else s

def execTimeQuery (port : Fin 8) (f : Frame) (s : State) : Host.Outcome State Fault Refusal :=
  act s (queryTimeArrives port.val f)

end Sys2Proof.Machine
end

