-- ==== Sys2Proof/Machine/Counters.lean ====
section
/-! DEFINITION. The CNT block: counters and gauges, the latch, profiling selections (R425 to R427). -/
namespace Sys2Proof.Machine

/-- The value of a counter, or of a gauge that shows a present value (R425). -/
def counterValue (a : Nat) (s : State) : Nat :=
  if a = 0x1930028 then s.array.rooms.length
  else if a = 0x1950030 then s.tgt.streams.length
  else if a = 0x1950038 then resultsHeld s
  else tblGet 0 s.counters a

/-- A write to CNT_CTL: LATCH joins one that waits; any other action is counted (R426). -/
def writeCntCtl (v : Word) (s : State) : State :=
  if wfield v 1 0 = 1 then { profItem bCNT s with observe.latchWaiting := true } else blockEvent bCNT s

/-- LATCH (R426). -/
def execLatch (side : Side) (s : State) : Host.Outcome State Fault Refusal :=
  act s (fun s => guarded side bCNT false .pwr s (writeCntCtl 1))

/-- Every counter is copied (R426). -/
def takeLatch (s : State) : State :=
  let gauges := ([0x1930028, 0x1950030, 0x1950038] : List Nat)
  let s := { s with latched := gauges.foldl (fun t a => tblSet 0 t a (counterValue a s)) s.counters,
                    observe.latchWaiting := false }
  putField rCntCtl 63 32 (getField rCntCtl 63 32 s + 1) s

/-- COUNTER_LATCH_TAKE: at the next 10 µs boundary of the time base (R426). -/
def execCounterLatchTake (s : State) : Host.Outcome State Fault Refusal :=
  act s (fun s => if s.observe.latchWaiting && onBoundary s then takeLatch s else s)

/-- A write to CNT_PROF_SEL zeroes its count (R427). -/
def writeProfSel (b i : Nat) (v : Word) (s : State) : State :=
  let s := plainWrite (rProfSel b i) v s
  { s with counters := tblSet 0 s.counters (rProfCount b i) 0 }

/-- PROF_SEL_WRITE (R427). -/
def execProfSelWrite (side : Side) (b : Fin 14) (i : Fin 64) (val : Word) (s : State) :
    Host.Outcome State Fault Refusal :=
  act s (fun s => guarded side bCNT false .pwr s (writeProfSel b.val i.val val))

end Sys2Proof.Machine
end

