-- ==== Sys2Proof/Machine/Rope.lean ====
section
/-! DEFINITION. Strict mode's register and rope pairs: forming, comparing, capturing, releasing (R197, R200 to R204). -/
namespace Sys2Proof.Machine

/-- A write to KPR_MODE: one that changes DET_STRICT while a tenant partition is active is ignored (R197). -/
def writeMode (v : Word) (s : State) : State :=
  if anyActive s && decide (wbit v 0 ≠ getBit rKprMode 0 s) then blockEvent bKPR s
  else putField rKprMode 0 0 (bit1 (wbit v 0)) s

/-- MODE_WRITE (R197). -/
def execModeWrite (side : Side) (val : Word) (s : State) : Host.Outcome State Fault Refusal :=
  act s (fun s => guarded side bKPR false .kpr s (writeMode val))

/-! ### Forming and dissolving (R200, R357) -/

/-- A write to DBG_ROPE_CFG: while PAIRED only one that clears ENABLE takes effect; a capture in progress then records as at
a link loss, without LINK_LOST (R200, R204). -/
def writeRopeCfg (v : Word) (s : State) : State :=
  let new := written rRopeCfg v s
  if s.rope.paired then
    if wbit v 63 then blockEvent bDBG s else ropeUnpair (putReg rRopeCfg new s)
  else putReg rRopeCfg new s

/-- ROPE_CFG_WRITE (R200). -/
def execRopeCfgWrite (side : Side) (val : Word) (s : State) : Host.Outcome State Fault Refusal :=
  act s (fun s => guarded side bDBG false .ary s (writeRopeCfg val))

/-- Every ACTIVE tenant partition of this part consents to rope pairs (R345, R357). -/
def ropeConsent (s : State) : Bool :=
  s.tenant.slots.all (fun e => !(decide (e.2.st = .active)) || manifestFlag e.2.manifest 3)

/-- What R200 asks of the partner's DBG_ROPE_CFG and of the link that joins the parts. -/
def ropeMatches (peer : Word) (s : State) : Bool :=
  let me := getReg rRopeCfg s
  let p := wfield me 53 48
  let k := linkOf p s
  wbit me 63 && wbit peer 63 && (wbit me 62 != wbit peer 62) &&
    decide (p < 36 ∧ portRole p s = 2 ∧ k.st = .active ∧ wfield peer 43 32 = (partId s).toNat ∧
      wfield me 43 32 = k.partnerPart.toNat ∧ wfield peer 53 48 = k.partnerPort.toNat)

/-- ROPE_PAIR_FORM: `peer` is the partner's DBG_ROPE_CFG, `peerConsents` whether its ACTIVE partitions all carry ROPE
(R200, R357). -/
def execRopePairForm (peer : Word) (peerConsents : Bool) (s : State) : Host.Outcome State Fault Refusal :=
  act s (fun s =>
    if !s.rope.paired && !(inReset .ary s) && ropeMatches peer s && ropeConsent s && peerConsents then
      { s with rope.paired := true, rope.compared := 0, rope.runNo := 0, rope.chunkNo := 0, rope.crcs := [],
               rope.shadowBytes := [], rope.shadowOut := [] }
    else s)

/-! ### Comparing and capturing (R201 to R204) -/

/-- A difference begins a capture, unless one is under way or REARM is missing (R202). -/
def ropeDiffers (c : RopeChunk) (crc : Word) (s : State) : State :=
  if s.rope.armed && s.rope.capture.isNone && decide (c.crc ≠ crc) then
    ropeCaptureGo { s with
      rope.capture := some ⟨c.run, c.chunk, c.crc, crc, BitVec.ofNat 32 c.route, false, false, s.clock⟩ }
  else s

/-- ROPE_CRC_COMPARE: the partner's CRC of the next chunk against this part's own, in the primary and, where the primary
tells it, in the shadow (R201, R202; log entry 32). -/
def execRopeCrcCompare (crc : Word) (s : State) : Host.Outcome State Fault Refusal :=
  act s (fun s =>
    match s.rope.crcs with
    | [] => s
    | c :: t =>
      if s.rope.paired then
        ropeDiffers c crc { s with rope.crcs := t, rope.compared := (s.rope.compared + 1) % 2 ^ 32 }
      else s)

/-- The first cell, in row-major order, whose signature differs from the partner's (R202). -/
def firstDiffering (sigs : List (BitVec 32)) (s : State) : Option Nat :=
  (List.range 4096).find? (fun i => decide (cellSig i s ≠ (sigs.getD i 0).toNat))

/-- ROPE_CAPTURE_DONE: the run has finished and the partner's 4,096 signatures have come (R202, R203). -/
def execRopeCaptureDone (sigs : List (BitVec 32)) (s : State) : Host.Outcome State Fault Refusal :=
  act s (fun s =>
    match s.rope.capture with
    | none => s
    | some c =>
      if s.array.current.isSome then s
      else
        match firstDiffering sigs s with
        | some i => ropeRecorded (ropeRecord c (i / 64) (i % 64) true (cellSig i s) (sigs.getD i 0).toNat
            (cellRegs i s)) s
        | none => ropeRecorded (ropeRecord c 0 0 false (cellSig 0 s) (sigs.getD 0 0).toNat (cellRegs 0 s)) s)

/-- A write to DBG_ROPE_CTL: RELEASE while HELD, REARM while not; anything else is counted (R203). -/
def writeRopeCtl (v : Word) (s : State) : State :=
  match wfield v 1 0 with
  | 1 => if s.rope.held then { s with rope.held := false } else blockEvent bDBG s
  | 2 => if s.rope.held then blockEvent bDBG s else { s with rope.recordValid := false, rope.armed := true }
  | _ => blockEvent bDBG s

/-- RELEASE (R203). -/
def execRelease (side : Side) (s : State) : Host.Outcome State Fault Refusal :=
  act s (fun s => guarded side bDBG false .ary s (writeRopeCtl 1))

/-- REARM (R202, R203). -/
def execRearm (side : Side) (s : State) : Host.Outcome State Fault Refusal :=
  act s (fun s => guarded side bDBG false .ary s (writeRopeCtl 2))

/-- ROPE_INPUT_RECEIVE: a shadow keeps what its primary's array reads, in the order it comes, until its own array takes it
(R201; log entry 32). -/
def execRopeInputReceive (kind : RopeInput) (bytes : List Byte) (s : State) : Host.Outcome State Fault Refusal :=
  act s (fun s => if ropeShadow s then { s with rope.shadowBytes := s.rope.shadowBytes ++ [(kind, bytes)] } else s)

end Sys2Proof.Machine
end

