-- ==== Sys2Proof/Machine/Stacks.lean ====
section
/-! DEFINITION. The memory stacks: patrol scrub, refresh, temperature and retraining, region clear from the register,
injection (R327 to R336). -/
namespace Sys2Proof.Machine

/-! ### Patrol scrub and refresh (R330 to R332) -/

/-- Reads one line for scrub: every codeword in error is logged, the correctable ones are written back and the others
left (R330, R331). -/
def scrubLine (l : Nat) (s : State) : State :=
  let soft := softWords l s
  let s := logWords l srcScrub s
  { s with memory.errs := soft.foldl (fun t c => tblSet 0 t c 0) s.memory.errs }

/-- The lines of a stack. -/
abbrev stackLines : Nat := 134217728

/-- SCRUB_READ: the next line of the stack; a full pass counts (R330). Scrub pauses while the stack is not ONLINE
(R333). -/
def scrubRead (k : Nat) (s : State) : State :=
  let v := getStack k s
  if v.st ≠ .online then s
  else
    let s := scrubLine (6 * v.scrubNext + k) s
    if v.scrubNext + 1 < stackLines then putStack k { getStack k s with scrubNext := v.scrubNext + 1 } s
    else
      let s := putStack k { getStack k s with scrubNext := 0 } s
      let o := rMemScrub k
      setFlag (rMemStatus k) 4 (putField o 63 32 (getField o 63 32 s + 1) s)

/-- Refresh runs at twice its rate above 85 °C (R332). -/
def refreshDoubled (k : Nat) (s : State) : Bool := decide (85 < (getStack k s).temp)

/-- REFRESH: refresh changes nothing that software can see (R332). -/
def execRefresh (_k : Fin 6) (s : State) : Host.Outcome State Fault Refusal := act s id

/-! ### Temperature and retraining (R333) -/

/-- A stack may be fenced now: it is ONLINE, no other stack is fenced, and a second has passed since its last
retrain. -/
def mayFence (k : Nat) (s : State) : Bool :=
  decide ((getStack k s).st = .online) &&
  (List.range 6).all (fun j => decide ((getStack j s).st ≠ .fenced)) &&
  (match (getStack k s).lastTrain with
    | some t => due (t + 1000000000) s
    | none => true)

/-- A wanted retrain begins if it may; else it waits. -/
def beginStackFence (k : Nat) (s : State) : State :=
  let v := getStack k s
  if v.wanted && mayFence k s then
    putStack k { v with st := .fenced, fencedAt := s.clock, repeated := false, wanted := false } s
  else s

/-- A retrain of a stack is decided (R333). -/
def wantRetrain (k : Nat) (s : State) : State := beginStackFence k (putStack k { getStack k s with wanted := true } s)

/-- The distance of two temperatures. -/
def apart (a b : Nat) : Nat := (a - b) + (b - a)

/-- STACK_TEMP_SAMPLE: a stack moved by 10 °C or more since its last training is retrained; a retrain that waits is
tried again (R333). -/
def execStackTempSample (k : Fin 6) (temp : BitVec 8) (s : State) : Host.Outcome State Fault Refusal :=
  act s (fun s =>
    let s := putStack k.val { getStack k.val s with temp := temp.toNat } s
    if 10 ≤ apart temp.toNat (getStack k.val s).trainTemp then wantRetrain k.val s else beginStackFence k.val s)

/-- STACK_RETRAIN_REQUEST: MEM_CTL.RETRAIN (R333). -/
def execStackRetrainRequest (side : Side) (k : Fin 6) (s : State) : Host.Outcome State Fault Refusal :=
  act s (fun s => guarded side bMEM false (.stk k.val) s (wantRetrain k.val))

/-- STACK_RETRAIN_DONE: the fence is lifted; the next stack that waits may begin, lowest first (R333). -/
def execStackRetrainDone (k : Fin 6) (s : State) : Host.Outcome State Fault Refusal :=
  act s (fun s =>
    let v := getStack k.val s
    if v.st = .fenced then
      let s := putStack k.val { v with st := .online, trainTemp := v.temp, lastTrain := some s.clock } s
      let s := setFlag (rMemStatus k.val) 3 s
      (List.range 6).foldl (fun s j => beginStackFence j s) s
    else s)

/-! ### Region clear from the register (R329) -/

/-- The part refuses a clear: an owned page, a range outside 0 to 183, a COUNT of 0, or an earlier clear still
running (R329). -/
def clearRefused (first count : Nat) (s : State) : Bool :=
  decide (count = 0) || decide (184 < first + count) || !s.memory.regClear.isEmpty ||
  (List.range count).any (fun i => decide (pageState (first + i) s = pgOwned))

/-- A write to MEM_CLEAR_CMD (R329). -/
def writeMemClear (v : Word) (s : State) : State :=
  if wbit v 16 then
    let first := wfield v 7 0
    let count := wfield v 15 8
    if clearRefused first count s then refuse bMEM rMemClearStatus 1 s
    else { s with memory.regClear := (List.range count).map (fun i => first + i) }
  else s

/-- MEM_CLEAR (R329). -/
def execMemClear (side : Side) (val : Word) (s : State) : Host.Outcome State Fault Refusal :=
  act s (fun s => guarded side bMEM false .ept s (writeMemClear val))

/-- A page's clear for the register is done: the last one completes the clear. -/
def regClearDone (p : Nat) (s : State) : State :=
  if s.memory.regClear.contains p then
    let left := s.memory.regClear.filter (fun i => decide (i ≠ p))
    let s := clearRegion (p * pageSize) ((p + 1) * pageSize) { s with memory.regClear := left }
    if left.isEmpty then setFlag rMemClearStatus 0 s else s
  else s

/-- A page's clear for the keeper is done: the page is FREE, or UNUSABLE if it is retired (R335, R351). -/
def keeperClearDone (p : Nat) (s : State) : State :=
  if pageState p s = pgClearing then
    let s := clearRegion (p * pageSize) ((p + 1) * pageSize) s
    putPage p (if pageRetired p s then pgUnusable else pgFree) false 0 0 s
  else s

/-- CLEAR_DONE: every stack has cleared its share of a page (R327, R328). -/
def execClearDone (page : Fin 184) (s : State) : Host.Outcome State Fault Refusal :=
  act s (fun s => keeperClearDone page.val (regClearDone page.val s))

/-! ### Injection (R336) -/

/-- A MEM_INJECT write that the part ignores. -/
def injectRefused (v : Word) (s : State) : Bool :=
  let off := 16 * wfield v 47 4
  let page := off / pageSize
  let place := decide (tenantEnd ≤ off ∧ off < privEnd) || (decide (page < 184) && decide (pageState page s ≠ pgOwned))
  !place || decide (35 < wfield v 61 56) ||
    (wbit v 62 && decide (35 < wfield v 55 50 ∨ wfield v 55 50 = wfield v 61 56))

/-- A write to MEM_INJECT. -/
def writeMemInject (k : Nat) (v : Word) (s : State) : State :=
  if injectRefused v s then refuse bMEM (rMemStatus k) 6 s
  else
    match regDesc (rMemInject k) with
    | some d => putReg (rMemInject k) (accessWrite d.fields false (getReg (rMemInject k) s) v) s
    | none => s

/-- MEM_INJECT_WRITE (R336). -/
def execMemInjectWrite (side : Side) (k : Fin 6) (val : Word) (s : State) : Host.Outcome State Fault Refusal :=
  act s (fun s => guarded side bMEM false (.stk k.val) s (writeMemInject k.val val))

end Sys2Proof.Machine
end

