-- ==== Sys2Proof/Machine/Served.lean ====
section
/-! DEFINITION. The rows that read memory, and so may find the error that puts the part out of service (R335, R391). -/
namespace Sys2Proof.Machine

/-- The outcome of a command whose effect may put the part out of service. -/
def actSettled (s : State) (f : State → State) : Host.Outcome State Fault Refusal := act s (settleOos f)

/-- LOAD (R94, R96, R98, R100 to R102, R319 to R325, R329, R351, R355, R356). -/
def execLoad (port : Fin 8) (f : Frame) (s : State) : Host.Outcome State Fault Refusal :=
  actSettled s (whenTrue (decide (f.ty = tyLoad)) (loadArrives port.val f))

/-- STORE (R95 to R103, R127 to R131, R142, R351, R355, R356). -/
def execStore (port : Fin 8) (f : Frame) (s : State) : Host.Outcome State Fault Refusal :=
  actSettled s (whenTrue (decide (f.ty = tyStore)) (writeArrives port.val f))

/-- STORE_FLAGGED: at the target, as a store (R96, R129, R130). -/
def execStoreFlagged (port : Fin 8) (f : Frame) (s : State) : Host.Outcome State Fault Refusal :=
  actSettled s (whenTrue (decide (f.ty = tyFlagged)) (writeArrives port.val f))

/-- BULK_DATA: at the target, as a store (R90, R129, R130). -/
def execBulkData (port : Fin 8) (f : Frame) (s : State) : Host.Outcome State Fault Refusal :=
  actSettled s (whenTrue (decide (f.ty = tyBulk)) (writeArrives port.val f))

/-- ATOMIC (R101, R120 to R124, R127 to R132, R142, R355, R356). -/
def execAtomic (port : Fin 8) (f : Frame) (s : State) : Host.Outcome State Fault Refusal :=
  actSettled s (whenTrue (decide (f.ty = tyAtomic)) (writeArrives port.val f))

/-- COMBINE_APPLY (R97 to R100, R114, R116). -/
def execCombineApply (line : BitVec 40) (s : State) : Host.Outcome State Fault Refusal :=
  actSettled s (combineApply line.toNat)

/-- ATOMIC_APPLY (R114, R122 to R126). -/
def execAtomicApply (line : BitVec 40) (s : State) : Host.Outcome State Fault Refusal :=
  actSettled s (atomicApply line.toNat)

/-- SCRUB_READ (R330, R333). -/
def execScrubRead (k : Fin 6) (s : State) : Host.Outcome State Fault Refusal := actSettled s (scrubRead k.val)

/-- COLUMN_BUS_TRANSFER (R213, R225, R247). -/
def execColumnBusTransfer (cell : Fin 4096) (inward : Bool) (s : State) : Host.Outcome State Fault Refusal :=
  actSettled s (columnBusTransfer cell.val inward)

/-- ROOM_LOAD_DONE (R229, R246). -/
def execRoomLoadDone (q : Fin 512) (s : State) : Host.Outcome State Fault Refusal := actSettled s (roomLoadDone q)

end Sys2Proof.Machine
end

