-- ==== Sys2Proof/Machine/Cairn.lean ====
section
/-! DEFINITION. Cairns: what a queue or a chunk waits for (R431) and the records of a cairn's sections (R430). -/
namespace Sys2Proof.Machine

/-! ### What a queue waits for (R431)

A wait is WAIT and the figures of DETAIL. R431 does not say which of two waits is named: the one that stands first here
is (log entry 76). -/

abbrev noWait : Nat × List Nat := (0, [])

/-- The first wait that a list of causes gives. -/
def firstWait (l : List (Option (Nat × List Nat))) : Nat × List Nat := (l.filterMap id).headD noWait

/-- A fault that must end: its tag, 0xFFFF while it has none (R42). -/
def waitFault (q : Fin 512) (s : State) : Option (Nat × List Nat) :=
  match s.xlt.faults.find? (fun f => f.waiters.contains q) with
  | some f => some (2, [f.tag.toNat])
  | none => if s.xlt.waitingFaults.any (fun f => f.waiters.contains q) then some (2, [0xFFFF]) else none

/-- The descriptor at CONSUMER is done and has no room for its record. -/
def waitRing (q : Fin 512) (s : State) : Option (Nat × List Nat) :=
  match (getQ q.val s).fetched with
  | d :: _ => if (finalStatus q.val d s).isSome && !(cmplRoom q.val s) then some (5, []) else none
  | [] => none

/-- The word a WAIT in hand reads. -/
def waitWord (q : Fin 512) (s : State) : Option (Nat × List Nat) :=
  (waiting q.val s).map (fun d => (3, [dfield d.raw 8 8]))

/-- The queue's requests in issue order. -/
def queueReqs (q : Fin 512) (s : State) : List Request := s.req.reqs.filter (fun r => decide (r.who = .queue q))

/-- A request held behind others without outcome (R104, R105): the oldest sequence sent. -/
def waitResponses (q : Fin 512) (s : State) : Option (Nat × List Nat) :=
  let l := queueReqs q s
  if l.any (fun r => r.sentAt.isNone && (lineHeld r s || (heldKind r && storeAhead r s))) then
    (l.find? (fun r => r.sentAt.isSome)).map (fun r => (4, [r.frame.seq.toNat]))
  else none

/-- A frame of a kind stands in the core without credit at its output: the core port and the VC. -/
def waitCredit (mine : Frame → Bool) (s : State) : Option (Nat × List Nat) :=
  s.sw.buf.findSome? (fun e => match e.output with
    | some o =>
      if mine e.frame && !(hasCredit o e.frame s) then some (6, [o, 2 * e.frame.cls.toNat + bit1 e.frame.vc]) else none
    | none => none)

/-- A frame is a queue's request. -/
def ofQueue (q : Fin 512) (s : State) (f : Frame) : Bool :=
  (queueReqs q s).any (fun r => decide (r.frame.src = f.src ∧ r.frame.stream = f.stream ∧ r.frame.seq = f.seq ∧
    r.frame.ty = f.ty))

/-- The local indices of a group with no COLL_START waiting in its first turn. -/
def missing (g : Nat) (s : State) : List Nat :=
  (localList g s).filter (fun li => !(s.caravan.waiting.any (fun w => decide (w.group = g ∧ w.member.li = li))))

/-! ### What a collective's lowest chunk waits for -/

/-- A group's part index of an end-point of another part, or the local index of one of this part (R431). -/
def waitIndex (g : Nat) (e : Eid) (s : State) : Nat :=
  if e.toNat / 16 = (partId s).toNat then e.toNat % 16
  else ((List.range (grpParts g s)).find? (fun i => decide (partAt g i s = e.toNat / 16))).getD 0

/-- What a step of a chunk waits for: an OFFER, a contribution, its rooms, the scheduler. -/
def waitStep (c : Coll) (k : CollChunk) (st : CollStepSt) (s : State) : Option (Nat × List Nat) :=
  match st.inputs.find? (fun i => !i.offered), st.inputs.find? (fun i => i.invitedAt.isSome && i.arrived.isNone) with
  | some i, _ => some (8, [waitIndex c.group i.src s])
  | none, some i => some (9, [waitIndex c.group i.src s])
  | none, none =>
    if wantsRooms c k st s then
      some (7, [(st.inputs.map (fun i => ceilDiv (roundRange c st i).2 32768)).foldl (· + ·) 0])
    else if stepFilled st then some (11, [])
    else none

/-- What a chunk waits for. A chunk whose steps are done and whose result this part has not waits for its owner
(log entry 76). -/
def waitChunk (c : Coll) (k : CollChunk) (s : State) : Nat × List Nat :=
  let own := chunkOwner c.group c.call k.number s
  firstWait
    [waitCredit (fun f => decide (f.stream = grpTag c.group s ∧ f.be.toNat = c.epoch ∧ f.cls = clColl) &&
       decide (fullChunk c f = k.number)) s,
     (currentStep k).bind (fun st => waitStep c k st s),
     (k.seals.find? (fun x => !x.ok)).map (fun x => (10, [waitIndex c.group x.eid s])),
     if (currentStep k).isNone && !k.result && decide (own ≠ myIndex c.group s) then some (9, [own]) else none]

/-- The lowest chunk a collective has in work. -/
def lowChunk (c : Coll) : Option CollChunk := (sortBy (fun k => k.number) c.chunks).head?

/-- What a collective waits for: admission, or what its lowest chunk waits for. -/
def waitColl (c : Coll) (s : State) : Nat × List Nat :=
  if c.admitted.isNone then (7, [c.call.rooms])
  else match lowChunk c with
    | some k => waitChunk c k s
    | none => noWait

/-! ### What an engine waits for -/

/-- The COLL_START, the ROUTE_RUN or the requests of a queue in hand. -/
def waitEngine (q : Fin 512) (s : State) : Option (Nat × List Nat) :=
  match s.caravan.waiting.find? (fun w => decide (w.member.queue = q)),
      s.caravan.colls.find? (fun c => c.members.any (fun m => decide (m.queue = q) && m.status.isNone)),
      s.array.runs.find? (fun r => decide (r.queue = q)) with
  | _, some c, _ => some (waitColl c s)
  | some w, _, _ => (missing w.group s).head?.map (fun li => (8, [li]))
  | _, _, some r =>
    if r.phase = .rooms then some (7, [64 * r.stripes]) else if r.phase = .ready then some (11, []) else none
  | _, _, _ => none

/-- What a queue waits for (R431). One that is enabled, IDLE and has consumed all it was given waits for a doorbell. -/
def waitQueue (q : Fin 512) (s : State) : Nat × List Nat :=
  let v := getQ q.val s
  firstWait
    [if v.st = .parked then waitFault q s else none, waitRing q s, waitWord q s, waitResponses q s,
     waitCredit (ofQueue q s) s, waitEngine q s,
     if qEnabled q.val s && decide (v.st = .idle ∧ v.producer = v.consumer) then some (1, []) else none]

/-! ### The sections (R430)

A section's records are lists of the figures the rule names, in its order. How a record lays its figures out in its bytes
is not stated: the bytes are free values of the figures. -/

/-- WAIT and DETAIL as figures, DETAIL filled up to two. -/
def waitFigures (w : Nat × List Nat) : List Nat := [w.1, w.2.getD 0 0, w.2.getD 1 0]

/-- QUEUES: queue, STATE, ENGINE, PARTITION, PRODUCER, CONSUMER, CMPL_COUNT, CMPL_HEAD, OUTSTANDING (R107), WAIT and
DETAIL. -/
def cairnQueues (s : State) : CairnRecs :=
  (List.ofFn (fun q : Fin 512 => q)).map (fun q =>
    let v := getQ q.val s
    [q.val, v.st.code, qEngine q.val s, (qPart q.val s).toNat, v.producer.toNat, v.consumer.toNat, v.cmplCount.toNat,
      v.cmplHead.toNat, (sentReqs q.val s).length] ++ waitFigures (waitQueue q s))

/-- FAULTS: PARTITION, PAGE_FVA, FAULT_TAG, posted or not, every waiter's queue (R39, R42). -/
def cairnFaults (s : State) : CairnRecs :=
  let posted := fun (f : XltFault) => f.gathered && !(s.xlt.records.any (fun r => decide (r.tag = f.tag)))
  s.xlt.faults.map (fun f =>
      [f.part.toNat, f.page * pageSize, f.tag.toNat, bit1 (posted f)] ++ f.waiters.map (fun q => q.val)) ++
    s.xlt.waitingFaults.map (fun f => [f.part.toNat, f.page * pageSize, 0xFFFF, 0] ++ f.waiters.map (fun q => q.val))

/-- CREDITS: of every core port and VC, the credits held as sender and the cells held as receiver. -/
def cairnCredits (s : State) : CairnRecs :=
  (List.range 768).map (fun k =>
    [if k < 576 then tblGet 0 s.credit k else 0,
     heldCells (k / 16) (BitVec.ofNat 3 (k % 16 / 2)) (decide (k % 2 = 1)) s])

/-- PORTS: STATE, WIDTH, flits not acknowledged, µs since the acknowledgement last advanced. -/
def cairnPorts (s : State) : CairnRecs :=
  (List.range 36).map (fun p =>
    let k := linkOf p s
    [PortState.code k.st, k.width, k.replay.length, (s.clock - k.ackAt) / 1000])

/-- COLLECTIVES: group TAG, EPOCH, OP, STATE (0 waiting for members, 1 not admitted, 2 in work), the mask of local
members in it, the lowest chunk, its stage and ATTEMPT, WAIT and DETAIL. -/
def cairnColls (s : State) : CairnRecs :=
  let mask := fun (l : List Nat) => l.foldl (fun m li => m ||| 2 ^ li) 0
  let groups := (s.caravan.waiting.map (fun w => w.group)).eraseDups
  s.caravan.colls.map (fun c =>
      let k := lowChunk c
      let st := k.bind currentStep
      [(grpTag c.group s).toNat, c.epoch, c.call.op, if c.admitted.isNone then 1 else 2, mask (c.members.map (fun m => m.li)),
        (k.map (fun k => k.number)).getD c.next, (st.map (fun x => x.stage)).getD 0, (k.map (fun k => k.attempt)).getD 0] ++
        waitFigures (waitColl c s)) ++
    groups.map (fun g =>
      let l := turnEntries g 0 s
      [(grpTag g s).toNat, grpEpoch g s, (l.head?.map (fun w => w.call.op)).getD 0, 0, mask (l.map (fun w => w.member.li)),
        0, 0, 0] ++ waitFigures ((missing g s).head?.elim noWait (fun li => (8, [li]))))

/-- ROOMS: of every granted room its slot, its collective's group or its queue, and its state (1 granted, 2 filling, 3 in
run, 4 held for SEAL); a slot with no record is free. -/
def cairnRooms (s : State) : CairnRecs :=
  let ofColl := s.caravan.colls.map (fun c => (c.chunks.map (fun k => (k.steps.map (fun st =>
    (st.inputs.map (fun i => i.rooms.map (fun n =>
      [n, c.group, if st.done then 4
        else if s.array.current = some (.step c.group c.epoch k.number st.stage st.anchor) then 3
        else if i.got.isEmpty then 1 else 2]))).flatten)).flatten)).flatten)
  let ofRun := s.array.runs.map (fun r => r.rooms.map (fun n =>
    [n, r.queue.val, match r.phase with
      | .rooms => 1
      | .filling => 2
      | .ready => 2
      | .running => 3
      | .saving => 3]))
  ofColl.flatten ++ ofRun.flatten

/-- SCHEDULER: the active and the shadow route, SHADOW_STATE and the running run's admission time, then each of up to 64
ready runs by its admission time. -/
def cairnScheduler (s : State) : CairnRecs :=
  let running := match currentRun s with
    | some r => r.admitted
    | none => 0
  [[(activePlane s).routeId, (shadowPlane s).routeId, s.array.shadow, bit1 s.array.current.isSome, running]] ++
    ((readyRuns s).take 64).map (fun r => [r.admitted, r.fa])

/-- LEDGER: STREAMS_USED, RESULTS_USED, QUARANTINE, then the 64 streams that hold the most results. -/
def cairnLedger (s : State) : CairnRecs :=
  let held := fun (x : StreamRec) =>
    (s.tgt.results.filter (fun r => decide (r.src = x.src ∧ r.sid = x.sid))).length
  [[s.tgt.streams.length, resultsHeld s, bit1 s.tgt.quarantineEnd.isSome]] ++
    ((sortBy (fun x => 65536 - held x) s.tgt.streams).take 64).map (fun x => [x.src.toNat, x.sid.toNat, held x])

/-- The records of a section. -/
def cairnRecords (ty : Nat) (s : State) : CairnRecs :=
  match ty with
  | 1 => cairnQueues s
  | 2 => cairnFaults s
  | 3 => cairnCredits s
  | 4 => cairnPorts s
  | 5 => cairnColls s
  | 6 => cairnRooms s
  | 7 => cairnScheduler s
  | _ => cairnLedger s

end Sys2Proof.Machine
end

