-- ==== Sys2Proof/Machine/SideBand.lean ====
section
/-! DEFINITION. The side band: I3C and MCTP control, the vendor messages of ownership, caps, cairns and enrolment, the
PLDM sensors (R362, R375 to R384, R428 to R430). -/
namespace Sys2Proof.Machine

/-! ### Vendor messages (R376, R377) -/

/-- A vendor message of the side band: not heard where the side band is silent (R385, R401), RETRY_BUSY while four are
in progress (R377); CAP_SETs not yet applied are the ones in progress. -/
def sbVendor (inst : Byte) (f : State → State) (s : State) : State :=
  if !(sidebandUp s) then s
  else if 4 ≤ s.side.capWaiting.length then answer .sideband inst stRetryBusy [] s
  else f (profItem bKPR s)

/-- An answer over the side band. -/
def sbAnswer (inst st : Byte) (body : List Byte) (s : State) : State := answer .sideband inst st body s

/-! ### Ownership (R380 to R382) -/

/-- HST_STATUS.OWN_CHANGED; its domain in reset keeps its reset value (R438). -/
def ownChanged (s : State) : State := if inReset .ept s then s else setFlag rHstStatus 4 s

/-- OWNER_GET (R376). -/
def execOwnerGet (inst : Byte) (s : State) : Host.Outcome State Fault Refusal :=
  act s (sbVendor inst (fun s => sbAnswer inst stOk (bytesOfNat 8 (getReg rKprOwn s).toNat) s))

/-- OWNER_SET (R382). -/
def execOwnerSet (inst : Byte) (mask : BitVec 16) (s : State) : Host.Outcome State Fault Refusal :=
  act s (sbVendor inst (fun s =>
    let s := ownChanged (putField rKprOwn 13 0 mask.toNat s)
    sbAnswer inst stOk (bytesOfNat 8 (getReg rKprOwn s).toNat) s))

/-! ### Power caps (R383, R384) -/

/-- Milliseconds until the lease runs out, rounded up; 0 outside a lease. -/
def leaseLeft (s : State) : Nat :=
  match s.power.leaseEnd with
  | some t => ceilDiv (t - s.clock) 1000000
  | none => 0

/-- KPR_PCAP as a read shows it. -/
def pcapWord (s : State) : Word :=
  place 63 48 s.power.cap ||| place 47 32 s.power.watts ||| place 31 16 (leaseLeft s) ||| place 1 0 s.power.source

/-- The sources of a cap. -/
abbrev capLease : Nat := 0
abbrev capExpired : Nat := 1
abbrev capImage : Nat := 2

/-- A lease lasts 2 s. -/
abbrev leaseNs : Nat := 2000000000

/-- CAP_SET: accepted, it restarts the lease and waits to be applied (R383). -/
def execCapSet (inst : Byte) (cap : BitVec 16) (s : State) : Host.Outcome State Fault Refusal :=
  act s (sbVendor inst (fun s =>
    if cap.toNat < 450 ∨ 800 < cap.toNat then sbAnswer inst stMalformed [] s
    else { s with power.leaseEnd := some (s.clock + leaseNs),
                  side.capWaiting := s.side.capWaiting ++ [(inst, cap)] }))

/-- CAP_APPLIED: the oldest CAP_SET is in force and is answered (R383, R384). -/
def execCapApplied (s : State) : Host.Outcome State Fault Refusal :=
  act s (fun s => match s.side.capWaiting with
    | [] => s
    | (inst, cap) :: t =>
      let s := { s with side.capWaiting := t, power.cap := cap.toNat, power.source := capLease }
      sbAnswer inst stOk (bytesOfNat 8 (pcapWord s).toNat) s)

/-- CAP_GET (R376). -/
def execCapGet (inst : Byte) (s : State) : Host.Outcome State Fault Refusal :=
  act s (sbVendor inst (fun s => sbAnswer inst stOk (bytesOfNat 8 (pcapWord s).toNat) s))

/-- LEASE_EXPIRY: the image's lease-expired cap applies (R384). -/
def execLeaseExpiry (s : State) : Host.Outcome State Fault Refusal :=
  act s (fun s => match s.power.leaseEnd with
    | some t =>
      if due t s then
        setFlag rKprAttn attnLease { s with power.leaseEnd := none, power.cap := s.img.leaseCap,
                                            power.source := capExpired }
      else s
    | none => s)

/-! ### Cairns (R428 to R430) -/

/-- The number of the last cairn completed. -/
def cairnLast (s : State) : Nat := getField rCairnCtl 31 0 s

/-- The number the next cairn takes: past the last one and every one held. -/
def nextCairn (s : State) : Nat := (s.observe.cairns.foldl (fun n c => max n c.number) (cairnLast s)) + 1

/-- The capture that runs, or a new one (R428). -/
def startCapture (s : State) : Nat × State :=
  match s.observe.capture with
  | some (n, _) => (n, s)
  | none => (nextCairn s, profItem bDBG { s with observe.capture := some (nextCairn s, (now s).toNat) })

/-- SNAPSHOT: answered with the cairn's number (R376, R428). -/
def execSnapshot (inst : Byte) (s : State) : Host.Outcome State Fault Refusal :=
  act s (sbVendor inst (fun s =>
    let (n, s) := startCapture s
    sbAnswer inst stOk (bytesOfNat 4 n) s))

/-- A write of CAPTURE: ignored and counted while HOST_REQ is 0 (R428). -/
def captureRequest (s : State) : State :=
  if getBit rCairnCtl 63 s then (startCapture s).2 else blockEvent bDBG s

/-- CAPTURE (R428). -/
def execCapture (side : Side) (s : State) : Host.Outcome State Fault Refusal :=
  act s (fun s => guarded side bDBG false .kpr s captureRequest)

/-- The domain whose reset leaves a section empty (R429). -/
def sectionDomain (ty : Nat) : Option Dom :=
  if ty = 1 ∨ ty = 5 ∨ ty = 6 ∨ ty = 7 then some .ary else if ty = 2 ∨ ty = 8 then some .ept else none

/-- The length of a section (R430). -/
def sectionLength (ty : Nat) (r : CairnRecs) : Nat :=
  if ty = 1 then 16384 else if ty = 3 then 6144 else if ty = 4 then 576 else if ty = 5 then 2048
  else if ty = 6 then 20480 else Config.cairnLength ty r % 2 ^ 20

/-- The sections of a cairn, each after the one before, from an offset. The section of a domain in reset is empty and has
FLAGS bit 0 set (R429). -/
def cairnSections (s : State) : List Nat → Nat → List CairnSection
  | [], _ => []
  | ty :: t, o =>
    let lost := match sectionDomain ty with
      | some d => inReset d s
      | none => false
    if lost then ⟨ty, 1, o, 0, []⟩ :: cairnSections s t o
    else
      let r := cairnRecords ty s
      ⟨ty, 0, o, sectionLength ty r, r⟩ :: cairnSections s t (o + sectionLength ty r)

/-- The header and the directory of a cairn (R430). -/
def cairnBytes (c : Cairn) (s : State) : List Byte :=
  bytesOfNat 4 0x4E524143 ++ bytesOfNat 2 1 ++ bytesOfNat 2 c.sections.length ++ bytesOfNat 4 c.number ++
    bytesOfNat 2 (partId s).toNat ++ bytesOfNat 2 0 ++ bytesOfNat 8 c.start ++ bytesOfNat 8 c.endTime ++
    bytesOfNat 32 0 ++
    (c.sections.map (fun x => bytesOfNat 1 x.ty ++ bytesOfNat 1 x.flags ++ bytesOfNat 2 0 ++ bytesOfNat 4 x.offset ++
      bytesOfNat 4 x.length ++ bytesOfNat 4 c.endTime)).flatten

/-- CAIRN_DONE: the capture ends; the last four cairns are held (R428, R429). -/
def execCairnDone (s : State) : Host.Outcome State Fault Refusal :=
  act s (fun s => match s.observe.capture with
    | none => s
    | some (n, t0) =>
      let c : Cairn := ⟨n, t0, (now s).toNat, cairnSections s [1, 2, 3, 4, 5, 6, 7, 8] 192⟩
      let kept := s.observe.cairns.filter (fun x => decide (x.number % 4 ≠ n % 4))
      let s := storeBytes (cairnBase + n % 4 * cairnSize) (cairnBytes c s)
        { s with observe.capture := none, observe.cairns := kept }
      let s := { s with observe.cairns := kept ++ [c] }
      setFlag rKprAttn attnCairn (putField rCairnCtl 31 0 n s))

/-- SNAP_READ (R376, R377, R429). -/
def execSnapRead (inst : Byte) (number off : BitVec 32) (length : BitVec 16) (s : State) :
    Host.Outcome State Fault Refusal :=
  act s (sbVendor inst (fun s =>
    if s.observe.cairns.any (fun c => decide (c.number = number.toNat)) = false ∨ length.toNat < 1 ∨
        1024 < length.toNat ∨ cairnSize < off.toNat + length.toNat then
      sbAnswer inst stMalformed [] s
    else sbAnswer inst stOk (readMem s (cairnBase + number.toNat % 4 * cairnSize + off.toNat) length.toNat) s))

/-! ### Enrolment (R362) -/

/-- ENROL (R362, R376). -/
def execEnrol (inst : Byte) (cert : EnrolCert) (s : State) : Host.Outcome State Fault Refusal :=
  act s (sbVendor inst (fun s =>
    if cert.wellFormed = false then sbAnswer inst stMalformed [] s
    else if cert.sigOk = false then sbAnswer inst stIntegrity [] s
    else if cert.deviceId ≠ deviceId ∨ cert.partId ≠ partId s then sbAnswer inst stDenied [] s
    else sbAnswer inst stOk [] { s with tenant.enrolled := some cert }))

/-! ### I3C and MCTP control (R375) -/

/-- SB_RST: the I3C target and all MCTP state are reset, and key sessions over the side band end. -/
def execSbRst (s : State) : Host.Outcome State Fault Refusal :=
  act s (fun s => dropSessions (fun x => decide (x.via = .mctp))
    { s with side.dynAddr := none, side.eid := 0 })

/-- ENTDAA: the target takes a dynamic address where it has none. -/
def execEntdaa (addr : BitVec 7) (s : State) : Host.Outcome State Fault Refusal :=
  act s (fun s => if mctpControlUp s && s.side.dynAddr.isNone then { s with side.dynAddr := some addr } else s)

/-- SETDASA: the target takes a dynamic address from its static address. -/
def execSetdasa (static addr : BitVec 7) (s : State) : Host.Outcome State Fault Refusal :=
  act s (fun s =>
    if mctpControlUp s && s.side.dynAddr.isNone && decide (static = s.img.staticAddr) then
      { s with side.dynAddr := some addr }
    else s)

/-- An MCTP control request, answered where MCTP control is served (R401, R403). The first byte of the body is the
completion code. -/
def mctpControl (f : State → List Byte × State) (s : State) : State :=
  if mctpControlUp s then
    let (body, s) := f s
    answer .mctp 0 stOk body s
  else s

/-- SET_ENDPOINT_ID: 0x00 and 0xFF are no endpoint ID. -/
def execSetEndpointId (eid : Byte) (s : State) : Host.Outcome State Fault Refusal :=
  act s (mctpControl (fun s =>
    if eid = 0 ∨ eid = 0xFF then ([2], s) else ([0, 0, eid, 0], { s with side.eid := eid })))

/-- GET_ENDPOINT_ID. -/
def execGetEndpointId (s : State) : Host.Outcome State Fault Refusal :=
  act s (mctpControl (fun s => ([0, s.side.eid, 0, 0], s)))

/-- The message types supported (R375). -/
def messageTypes : List Byte := [0x00, 0x01, 0x7E]

/-- GET_MCTP_VERSION_SUPPORT: the version numbers are not stated, a free value. -/
def execGetMctpVersionSupport (msgType : Byte) (s : State) : Host.Outcome State Fault Refusal :=
  act s (mctpControl (fun s =>
    if messageTypes.contains msgType then
      let (v, s) := takeFree s
      ([0, 1] ++ bytesOfNat 4 v.toNat, s)
    else ([0x80], s)))

/-- GET_MESSAGE_TYPE_SUPPORT. -/
def execGetMessageTypeSupport (s : State) : Host.Outcome State Fault Refusal :=
  act s (mctpControl (fun s => ([0, BitVec.ofNat 8 messageTypes.length] ++ messageTypes, s)))

/-- GET_VENDOR_DEFINED_MESSAGE_SUPPORT: one set, of Cohowick's PCI vendor ID. -/
def execGetVendorDefinedMessageSupport (selector : Byte) (s : State) : Host.Outcome State Fault Refusal :=
  act s (mctpControl (fun s =>
    if selector = 0 then ([0, 0xFF, 0] ++ (bytesOfNat 2 Config.vendorId.toNat).reverse ++ [0, 0], s) else ([2], s)))

/-! ### PLDM (R378) -/

/-- The gauge of a numeric sensor; none where R378 names no such sensor. -/
def sensorValue (i : Nat) (s : State) : Option Nat :=
  if i = 1 then some s.power.watts
  else if i = 2 then some s.power.volts
  else if i = 3 then some s.power.amps
  else if i = 4 then some s.power.temp
  else if 5 ≤ i ∧ i ≤ 10 then some (getStack (i - 5) s).temp
  else if i = 11 then some s.power.cap
  else none

/-- SENSOR_POLL: a numeric sensor's reading; one that is not named has the completion code 0x80. -/
def execSensorPoll (sensor : Byte) (s : State) : Host.Outcome State Fault Refusal :=
  act s (fun s =>
    if sidebandUp s then
      match sensorValue sensor.toNat s with
      | some v => answer .pldm sensor 0 (bytesOfNat 2 v) s
      | none => answer .pldm sensor 0x80 [] s
    else s)

/-- SENSOR_UPDATE: the input's power, voltage and current as measured over the last 1 ms; the energy counter takes the
millijoules of it. Power above the cap in force stops the array's issue, and if that does not suffice the porters' (R378,
R408, R425; log entry 54). -/
def execSensorUpdate (power voltage current : BitVec 16) (s : State) : Host.Outcome State Fault Refusal :=
  act s (fun s => bump 0x1960000 power.toNat
    { s with power.watts := power.toNat, power.volts := voltage.toNat, power.amps := current.toNat,
             power.throttle := if power.toNat ≤ s.power.cap then 0 else if s.power.throttle = 0 then 1 else 2 })

/-- PLDM_BASE_COMMAND: the types supported are 0, 2 and 5; the other base commands' bodies are not stated, free
values; an unknown command has the completion code 0x05. -/
def execPldmBaseCommand (command : Byte) (s : State) : Host.Outcome State Fault Refusal :=
  act s (fun s =>
    if !(mctpControlUp s) then s
    else if command = 0x04 then answer .pldm command 0 (bytesOfNat 8 0x25) s
    else if 1 ≤ command.toNat ∧ command.toNat ≤ 5 then
      let (v, s) := takeFree s
      answer .pldm command 0 (bytesOfNat 8 v.toNat) s
    else answer .pldm command 0x05 [] s)

end Sys2Proof.Machine
end

