-- ==== Sys2Proof/Machine/Withdraw.lean ====
section
/-! DEFINITION. Withdrawing a mapping: UNMAP and MIGRATE (R46 to R54, R57, R74, R75, R252, R253). -/
namespace Sys2Proof.Machine

/-- Two withdrawals overlap in pages (R52). -/
def withdrawsOverlap (a b : Withdraw) : Bool :=
  decide (a.part = b.part ∧ a.first < b.first + b.count ∧ b.first < a.first + a.count)

/-- Replaces the withdrawal of a queue's descriptor. -/
def updWithdraw (w : Withdraw) (f : Withdraw → Withdraw) (s : State) : State :=
  { s with xlt.withdraws :=
      updFirst (fun x => decide (x.queue = w.queue ∧ x.index = w.index)) f s.xlt.withdraws }

/-- A request was made under a translation of a range of pages. -/
def usesPages (p : Byte) (first count : Nat) (r : Request) : Bool :=
  match r.page with
  | some (a, g) => decide (a = p ∧ first ≤ g ∧ g < first + count)
  | none => false

/-- Requests of a range that have not been sent are withdrawn: they will translate again (R48). -/
def withdrawUnsent (p : Byte) (first count : Nat) (s : State) : State :=
  let hit := fun (r : Request) => r.sentAt.isNone && usesPages p first count r
  let gone := s.req.reqs.filter hit
  let s := { s with req.reqs := s.req.reqs.filter (fun r => !(hit r)) }
  gone.foldl (fun s r => match r.who, r.desc with
    | .queue q, some i => updDesc q.val i (fun d => { d with issued := d.issued - r.bytes }) s
    | _, _ => s) s

/-- Run-ahead that touches a range is discarded (R85). -/
def discardRange (p : Byte) (first count : Nat) (s : State) : State :=
  (s.queues.map (·.1)).foldl (fun s q =>
    if qPart q s = p ∧ (getQ q s).aheadPages.any (fun g => decide (first ≤ g ∧ g < first + count)) = true then
      discardAhead q s
    else s) s

/-- XLT_INVAL goes to every attached end-point in service (R47, R57). -/
def sendInvals (p : Byte) (tag : BitVec 16) (first count : Nat) (s : State) : State :=
  (attached s).foldl (fun s i => mgmtTo i (mgmtSlot 0x21 p tag count (first * 2 ^ 30) 0) s) s

/-- A range of bytes of an address space touches a range of its pages. -/
def bytesTouch (first count a n : Nat) : Bool := decide (n ≠ 0 ∧ a / 2 ^ 30 < first + count ∧ first * 2 ^ 30 < a + n)

/-- What a chunk has in flight under one member's translation of a range of pages: its contribution while an INVITE to the
member is open, its result while the member has not answered its SEAL (R47 to R49). -/
def chunkUses (first count : Nat) (c : Coll) (k : CollChunk) (m : CollMember) (s : State) : List CollUse :=
  let e := selfEid m.li s
  let n := memBytes c.call (chunkSize c.group c.call k.number s)
  let asked := k.steps.any (fun st => decide (st.stage = 0) &&
    st.inputs.any (fun i => decide (i.src = e) && i.invitedAt.isSome && i.arrived.isNone))
  let owed := k.result && m.status.isNone && receives c.group c.call k.number (rankOf c.group m.li s) s &&
    !(k.seals.any (fun w => decide (w.eid = e) && w.ok))
  (if asked && bytesTouch first count (m.send + sendOffset c.group c.call k.number s) n then
    [⟨c.group, c.epoch, k.number, m.li, true⟩] else []) ++
  (if owed && (bytesTouch first count (m.recv + recvOffset c.group c.call k.number s) n ||
      bytesTouch first count m.signal 8) then [⟨c.group, c.epoch, k.number, m.li, false⟩] else [])

/-- What collectives have in flight under a partition's translation of a range of pages. -/
def collUses (p : Byte) (first count : Nat) (s : State) : List CollUse :=
  ((s.caravan.colls.filter (fun c => decide (grpPart c.group s = p))).map (fun c =>
    (c.chunks.map (fun k => (c.members.map (fun m => chunkUses first count c k m s)).flatten)).flatten)).flatten

/-- A withdrawal takes its effect on the caches, the run-ahead and the attached end-points (R47, R48). -/
def beginWithdraw (w : Withdraw) (s : State) : State :=
  let s := withdrawUnsent w.part w.first w.count
    (discardRange w.part w.first w.count (cacheDrop w.part w.first w.count s))
  let tag := s.xlt.nextInvalTag
  let fly := (s.req.reqs.filter (fun r => r.sentAt.isSome && usesPages w.part w.first w.count r)).map (·.order)
  let s := updWithdraw w (fun _ => { w with tag := tag, waiting := attached s, startedAt := s.clock, inFlight := fly,
                                             uses := collUses w.part w.first w.count s, quietUntil := s.clock,
                                             started := true }) s
  sendInvals w.part tag w.first w.count { s with xlt.nextInvalTag := tag + 1 }

/-- A withdrawal of a queue's descriptor before anything of it has begun. -/
def newWithdraw (q : Fin 512) (d : DescEx) (p : Byte) (first count : Nat) (migrate : Bool) : Withdraw :=
  { queue := q, index := d.index, part := p, first := first, count := count, tag := 0, waiting := [],
    badStatus := none, startedAt := 0, inFlight := [], uses := [], quietUntil := 0, migrate := migrate, copying := false,
    started := false, oldFa := 0, leafAt := 0 }

/-- A withdrawal leaves the list. -/
def dropWithdraw (w : Withdraw) (s : State) : State :=
  { s with xlt.withdraws := s.xlt.withdraws.filter (fun x => !(decide (x.queue = w.queue ∧ x.index = w.index))) }

/-- A descriptor with a queue's index. -/
def findDesc (q : Nat) (index : BitVec 32) (s : State) : Option DescEx :=
  (getQ q s).fetched.find? (fun d => decide (d.index = index))

/-- The descriptor of a withdrawal gets its final status. -/
def endWithdraw (w : Withdraw) (st : Byte) (s : State) : State :=
  dropWithdraw w (updDesc w.queue.val w.index (fun d => { d with status := some st }) s)

/-- A MIGRATE whose page has a leaf withdraws it: the leaf's VALID goes to 0 (R54); a NEW_LEAF that is malformed or of
another size ends it first (R75). -/
def migrateLeaf (w : Withdraw) (d : DescEx) (big : Bool) (leaf : Word) (at_ : Nat) (s : State) : State :=
  let new := BitVec.ofNat 64 (dfield d.raw 16 8)
  if leafBad new || decide (leafBig new ≠ big) then endWithdraw w stMalformed s
  else
    let first := if big then w.first / 32 * 32 else w.first
    let v := { w with first := first, count := if big then 32 else 1, oldFa := leafFa big leaf (first * 2 ^ 30),
                      leafAt := at_ }
    let s := updDesc w.queue.val w.index (fun d => { d with wrote := true }) s
    beginWithdraw v (storeBytes at_ (bytesOfNat 8 (leaf &&& ~~~1).toNat) s)

/-- Starts a withdrawal: an UNMAP at once, a MIGRATE by walking its page; a walk that faults parks the queue, and the
MIGRATE runs again from its start (R38, R54). -/
def startWithdraw (w : Withdraw) (s : State) : State :=
  if !w.migrate then planesUnmap w.part w.first w.count (beginWithdraw w s)
  else
    match findDesc w.queue.val w.index s with
    | none => dropWithdraw w s
    | some d =>
      match walkTables w.part (w.first * 2 ^ 30) s with
      | .leaf big leaf at_ => migrateLeaf w d big leaf at_ s
      | .fault r l =>
        let s := updDesc w.queue.val w.index (fun d => { d with started := false }) (dropWithdraw w s)
        parkQueue w.queue (raiseFault w.queue w.part (w.first * 2 ^ 30) r l .r false s)

/-- A withdrawal may start: no earlier one of the list overlaps it (R52). -/
def withdrawReady (w : Withdraw) (l : List Withdraw) : Bool :=
  (l.takeWhile (fun x => !(decide (x.queue = w.queue ∧ x.index = w.index)))).all (fun x => !(withdrawsOverlap x w))

/-- Starts what waits and may start, in the order of submission (R52). -/
def startWaiting (s : State) : State :=
  s.xlt.withdraws.foldl (fun s w =>
    if w.started = false ∧ withdrawReady w s.xlt.withdraws = true then startWithdraw w s else s) s

/-- Takes a withdrawal up and starts it if no earlier one stands in its way. -/
def submitWithdraw (w : Withdraw) (s : State) : State :=
  let s := { s with xlt.withdraws := s.xlt.withdraws ++ [w] }
  if withdrawReady w s.xlt.withdraws then startWithdraw w s else s

/-- UNMAP (R46 to R48, R52, R57, R74, R85, R252, R253). -/
def execUnmap (q : Fin 512) (s : State) : Host.Outcome State Fault Refusal :=
  act s (startCommand q opUnmap (fun d s =>
    submitWithdraw (newWithdraw q d (BitVec.ofNat 8 (dfield d.raw 21 1)) (dfield d.raw 8 8 / 2 ^ 30)
      (dfield d.raw 16 4) false) (markStarted q.val d s)))

/-- The 1 GiB pages of the page a MIGRATE names: 32 where its leaf is one of 32 GiB (R28, R52). -/
def migratePages (p : Byte) (page : Nat) (s : State) : Nat × Nat :=
  match walkTables p (page * 2 ^ 30) s with
  | .leaf true _ _ => (page / 32 * 32, 32)
  | _ => (page, 1)

/-- MIGRATE (R47, R52, R54, R75). Partition 0 has no tables: MALFORMED. -/
def execMigrate (q : Fin 512) (s : State) : Host.Outcome State Fault Refusal :=
  act s (startCommand q opMigrate (fun d s =>
    if qPart q.val s = 0 then startDone q.val d stMalformed s
    else
      let g := migratePages (qPart q.val s) (dfield d.raw 8 8 / 2 ^ 30) s
      submitWithdraw (newWithdraw q d (qPart q.val s) g.1 g.2 true) (markStarted q.val d s)))

/-- The answer of an attached end-point: its local index, PARTITION, TAG and STATUS (R57). -/
def invalAnswer (f : Frame) (s : State) : Option (Nat × Byte × BitVec 16 × Byte) :=
  let x := f.data.headD 0
  if f.ty = tyMgmt ∧ slotByte x 0 = 0x22 ∧ eidPart f.src = (partId s).toNat then
    some (localIndex f.src, slotByte x 1, BitVec.ofNat 16 (x.toNat / 2 ^ 16), slotByte x 16)
  else none

/-- XLT_INVAL_DONE: the end-point has answered; the first status other than OK is kept (R50). -/
def execXltInvalDone (f : Frame) (s : State) : Host.Outcome State Fault Refusal :=
  act s (fun s =>
    let s := whenTrue (decide (f.ty = tyMgmt)) (takeArrivedAny f) s
    match invalAnswer f s with
    | none => s
    | some (i, p, tag, st) =>
      let hit := fun (w : Withdraw) => w.started && decide (w.part = p ∧ w.tag = tag) && w.waiting.contains i
      let note := fun (w : Withdraw) =>
        { w with waiting := w.waiting.filter (fun x => decide (x ≠ i)),
                 badStatus := if st = stOk then w.badStatus else some (w.badStatus.getD st) }
      { s with xlt.withdraws := updFirst hit note s.xlt.withdraws })

/-- A withdrawal has what R47 and R49 wait for. No frame of a collective outlives the 3 ms of R49. -/
def withdrawDone (w : Withdraw) (s : State) : Bool :=
  let now := collUses w.part w.first w.count s
  w.started && !w.copying && w.waiting.isEmpty && w.inFlight.isEmpty && due w.quietUntil s &&
    (w.uses.all (fun u => !(now.contains u)) || due (w.startedAt + 3000000) s)

/-- A MIGRATE ends: the queues that touched its page run again, those too whose faults were still pending (R54), and what
waited for it starts (R52). -/
def endMigrate (w : Withdraw) (st : Byte) (s : State) : State :=
  let s := endWithdraw w st s
  let mine := fun (f : XltFault) => f.silent &&
    decide (f.part = w.part ∧ w.first ≤ f.page ∧ f.page < w.first + w.count)
  let l := s.xlt.faults.filter mine ++ s.xlt.waitingFaults.filter mine
  let s := { s with xlt.waitingFaults := s.xlt.waitingFaults.filter (fun f => !(mine f)) }
  startWaiting (l.foldl (fun s f => retryFault f s) s)

/-- A withdrawal is over: an UNMAP completes, a MIGRATE copies, or ends with the status its withdrawal gave. -/
def withdrawOver (w : Withdraw) (st : Byte) (s : State) : State :=
  if !w.migrate then startWaiting (endWithdraw w st s)
  else if st = stOk then updWithdraw w (fun x => { x with copying := true }) s
  else endMigrate w st s

/-- The queue's first withdrawal of a kind that passes a test. -/
def findWithdraw (q : Fin 512) (migrate : Bool) (p : Withdraw → Bool) (s : State) : Option Withdraw :=
  s.xlt.withdraws.find? (fun w => decide (w.queue = q ∧ w.migrate = migrate) && p w)

/-- UNMAP_COMPLETE: OK, or the first status other than OK that an end-point gave (R49, R50). -/
def execUnmapComplete (q : Fin 512) (s : State) : Host.Outcome State Fault Refusal :=
  act s (fun s =>
    match findWithdraw q false (fun w => withdrawDone w s) s with
    | some w => withdrawOver w (w.badStatus.getD stOk) s
    | none => s)

/-- UNMAP_TIMEOUT: an end-point has not answered within 3 ms: UNREACHABLE, whatever others answered (R50). -/
def execUnmapTimeout (q : Fin 512) (s : State) : Host.Outcome State Fault Refusal :=
  act s (fun s =>
    let late := fun (w : Withdraw) => w.started && !w.copying && !w.waiting.isEmpty && due (w.startedAt + 3000000) s
    match s.xlt.withdraws.find? (fun w => decide (w.queue = q) && late w) with
    | some w => withdrawOver w stUnreachable s
    | none => s)

/-- MIGRATE_WITHDRAW_DONE: the page is withdrawn, the copy begins (R54). -/
def execMigrateWithdrawDone (q : Fin 512) (s : State) : Host.Outcome State Fault Refusal :=
  act s (fun s =>
    match findWithdraw q true (fun w => withdrawDone w s) s with
    | some w => withdrawOver w (w.badStatus.getD stOk) s
    | none => s)

/-- A MIGRATE's copy has ended: what its descriptor's requests left, once none is open. -/
def copyStatus (w : Withdraw) (s : State) : Option Byte :=
  match findDesc w.queue.val w.index s with
  | none => some stMalformed
  | some d =>
    if !(descReqs w.queue.val w.index s).isEmpty then none
    else
      match d.failed with
      | some st => some st
      | none => if w.count * 2 ^ 30 ≤ d.landed then some stOk else none

/-- MIGRATE_COPY_DONE: the new leaf is written, or a failed copy leaves the page unmapped (R54). -/
def execMigrateCopyDone (q : Fin 512) (s : State) : Host.Outcome State Fault Refusal :=
  act s (fun s =>
    match findWithdraw q true (fun w => w.copying && (copyStatus w s).isSome) s with
    | none => s
    | some w =>
      let st := (copyStatus w s).getD stOk
      let leaf := match findDesc q.val w.index s with
        | some d => dfield d.raw 16 8
        | none => 0
      endMigrate w st (whenTrue (decide (st = stOk)) (storeBytes w.leafAt (bytesOfNat 8 leaf)) s))

end Sys2Proof.Machine
end

