-- ==== Sys2Proof/Machine/Tenants.lean ====
section
/-! DEFINITION. Keys and partitions: INSTALL, permits, the SEC_CMD commands, rotation, CLOSE (R344 to R351, R354, R356 to
R359, R363, R391). -/
namespace Sys2Proof.Machine

/-! ### INSTALL and permits (R342, R344, R345, R357, R359) -/

/-- The layout of a manifest for a partition (R345). -/
def manifestOk (m : List Byte) (p : Byte) : Bool :=
  let n := (m.getD 6 0).toNat
  decide (m.length = 64 + 64 * n ∧ n ≤ 32 ∧ natOfBytes (m.take 4) = 0x4D465A36 ∧ m.getD 4 0 = 1 ∧
    (m.getD 5 0).toNat < 16 ∧ m.getD 7 0 = p) &&
  ((m.drop 8).take 56).all (fun b => decide (b = 0)) &&
  (manifestImages m).all (fun i => decide (i.2.1 % 2 ^ 30 = 0 ∧ 1 ≤ i.2.2 ∧ i.2.2 ≤ 2 ^ 36))

/-- What counts per install starts afresh for a slot: sequences used, COPY counts, collectives of its groups (R353,
R354). -/
def freshInstall (slot : Nat) (p : Byte) (s : State) : State :=
  let keep := tblKeep (fun k => decide (k / 1024 ≠ slot)) s.req.installFirst
  let first := s.req.seqs.foldl (fun t e => tblSet 0 t (1024 * slot + e.1) e.2) keep
  { s with req.installFirst := first,
           tenant.sentIv := tblKeep (fun k => decide (k / 2 ^ 168 ≠ p.toNat)) s.tenant.sentIv,
           tenant.collsUsed := tblKeep (fun g => decide (grpPart g s ≠ p)) s.tenant.collsUsed }

/-- INSTALL's effect and status: MALFORMED for a manifest that breaks its layout, DENIED outside BOUND and KEYED (R344,
R345). -/
def installKeys (msg : InstallMsg) (s : State) : Byte × State :=
  if !(manifestOk msg.manifest msg.partition) then (stMalformed, s)
  else
    match partSlot msg.partition s with
    | none => (stDenied, s)
    | some n =>
      let k := getSlot n s
      if k.st = .bound ∨ k.st = .keyed then
        (stOk, freshInstall n msg.partition (putSlot n
          { k with st := .keyed, epoch := 1, installed := true, memKey := msg.memKey, frameKey := msg.frameKey,
                   manifest := msg.manifest } s))
      else (stDenied, s)

/-- INSTALL (R342 to R348, R359). -/
def execInstall (env : Envelope) (msg : InstallMsg) (s : State) : Host.Outcome State Fault Refusal :=
  act s (sealedStatus env (installKeys msg))

/-- A partition may be party to a permit: bound here, and not fenced (R357). -/
def permitParty (p : Byte) (s : State) : Bool :=
  match slotRec p s with
  | some k => decide (k.st = .bound ∨ k.st = .keyed ∨ k.st = .active)
  | none => false

/-- The frame master key a partition's permits are signed with. -/
def grantorKey (p : Byte) (s : State) : Option (BitVec 256) :=
  match slotRec p s with
  | some k => if k.installed then some k.frameKey else none
  | none => none

/-- PERMIT's effect and status (R357). A record that breaks its layout is MALFORMED; one whose grantor has no key here,
whose MAC differs, whose number is held or whose parties are fenced is DENIED; the 65th is RETRY_BUSY. -/
def takePermit (rec_ : BitVec 192) (s : State) : Byte × State :=
  let f := fun (lo n : Nat) => (rec_.toNat / 2 ^ (8 * lo)) % 2 ^ (8 * n)
  let x : Permit := ⟨BitVec.ofNat 16 (f 0 2), BitVec.ofNat 8 (f 2 1), BitVec.ofNat 8 (f 3 1), BitVec.ofNat 8 (f 4 1),
    f 5 1, f 6 1⟩
  if (x.kind ≠ 1 ∧ x.kind ≠ 2) ∨ f 7 1 ≠ 0 ∨ x.count = 0 ∨ 184 < x.first + x.count then (stMalformed, s)
  else
    match grantorKey x.grantor s with
    | none => (stDenied, s)
    | some k =>
      if natOfBytes (permitMac k (bytesOfNat 8 (f 0 8))) ≠ f 8 16 ∨ permitParty x.grantor s = false ∨
          permitParty x.grantee s = false ∨ s.tenant.permits.any (fun y => decide (y.number = x.number)) = true then
        (stDenied, s)
      else if 64 ≤ s.tenant.permits.length then (stRetryBusy, s)
      else (stOk, { s with tenant.permits := s.tenant.permits ++ [x] })

/-- PERMIT (R342, R357). -/
def execPermit (env : Envelope) (rec_ : BitVec 192) (s : State) : Host.Outcome State Fault Refusal :=
  act s (sealedStatus env (takePermit rec_))

/-- REVOKE's effect and status: the MAC is the grantor's over the number (R357). -/
def dropPermit (number : BitVec 16) (mac : BitVec 128) (s : State) : Byte × State :=
  match s.tenant.permits.find? (fun y => decide (y.number = number)) with
  | none => (stDenied, s)
  | some x =>
    match grantorKey x.grantor s with
    | none => (stDenied, s)
    | some k =>
      if natOfBytes (permitMac k (bytesOfNat 2 number.toNat)) ≠ mac.toNat then (stDenied, s)
      else (stOk, { s with tenant.permits := s.tenant.permits.filter (fun y => decide (y.number ≠ number)) })

/-- REVOKE (R342, R357). -/
def execRevoke (env : Envelope) (number : BitVec 16) (mac : BitVec 128) (s : State) :
    Host.Outcome State Fault Refusal :=
  act s (sealedStatus env (dropPermit number mac))

/-! ### SEC_CMD (R350, R359, R391) -/

/-- The OP codes of SEC_CMD. -/
abbrev opBind : Nat := 1
abbrev opOpen : Nat := 2
abbrev opGrant : Nat := 3
abbrev opGrantShared : Nat := 4
abbrev opRelease : Nat := 5
abbrev opStage : Nat := 6
abbrev opSwitch : Nat := 7
abbrev opClose : Nat := 8

/-- A command of SEC_CMD ends: STATUS and OP, BUSY clear, CMD_DONE (R350). -/
def secDone (op : Nat) (st : Byte) (s : State) : State :=
  let s := { s with tenant.run := none }
  setFlag rSecStatus 0 (putField rSecCmdStatus 47 44 op (putField rSecCmdStatus 55 48 st.toNat s))

/-- A command that runs on after it is accepted. -/
def secRuns (op slot : Nat) (tag : BitVec 16) (waiting : List Nat) (s : State) : State :=
  { s with tenant.run := some ⟨op, slot, s.clock, tag, waiting, none⟩ }

/-- BIND's refusal (R347, R350, R362, R391). -/
def bindRefusal (slot : Nat) (p gen : Byte) (s : State) : Byte :=
  if p = 0 ∨ p = 255 then stMalformed
  else if s.power.oos then stOos
  else if isEnrolled s = false ∨ (getSlot slot s).st ≠ .empty ∨ (partSlot p s).isSome = true ∨
      tblGet 0 s.tenant.lastGen p.toNat = gen.toNat + 1 then stDenied
  else stOk

/-- BIND. -/
def secBind (slot : Nat) (p gen : Byte) (s : State) : State :=
  let st := bindRefusal slot p gen s
  secDone opBind st (if st = stOk then
    putSlot slot { keySlot0 with st := .bound, partition := p, generation := gen } s else s)

/-- OPEN: the first two conditions; the digests follow (R350, R356, R391). -/
def secOpen (slot : Nat) (s : State) : State :=
  let k := getSlot slot s
  if s.power.oos then secDone opOpen stOos s
  else if k.st ≠ .keyed then secDone opOpen stDenied s
  else if manifestFlag k.manifest 0 ≠ strictMode s then secDone opOpen stStrict s
  else secRuns opOpen slot 0 [] s

/-- Every image of a slot's manifest that lies at this part has its digest (R356). -/
def digestsMatch (slot : Nat) (s : State) : Bool :=
  (manifestImages (getSlot slot s).manifest).all (fun i =>
    !(decide (i.2.1 / 2 ^ 48 = (selfEid 0 s).toNat)) ||
      decide ((Config.sha384 (readMem s (i.2.1 % 2 ^ 48) i.2.2)).toNat = i.1))

/-- The pages a command names. -/
def pageRange (first count : Nat) : List Nat := (List.range count).map (fun i => first + i)

/-- A range that R350 refuses before the command's row. -/
def rangeBad (first count : Nat) : Bool := decide (count = 0 ∨ 183 < first ∨ 184 < first + count)

/-- GRANT and GRANT_SHARED (R350, R351, R356). -/
def secGrant (op slot first count : Nat) (s : State) : State :=
  let k := getSlot slot s
  let states : Bool := decide (k.st = .bound ∨ k.st = .keyed) || decide (op = opGrant ∧ k.st = .active)
  if rangeBad first count then secDone op stMalformed s
  else if !states || !((pageRange first count).all (fun i => decide (pageState i s = pgFree))) then
    secDone op stDenied s
  else
    secDone op stOk ((pageRange first count).foldl (fun s i =>
      putPage i pgOwned (decide (op = opGrantShared)) k.partition slot s) s)

/-- RELEASE: the pages are cleared, then FREE (R350, R351). -/
def secRelease (slot first count : Nat) (s : State) : State :=
  let k := getSlot slot s
  if rangeBad first count then secDone opRelease stMalformed s
  else if !(decide (k.st = .bound ∨ k.st = .keyed ∨ k.st = .active)) ||
      !((pageRange first count).all (fun i => decide (pageState i s = pgOwned ∧ pagePartition i s = k.partition))) then
    secDone opRelease stDenied s
  else
    secDone opRelease stOk ((pageRange first count).foldl (fun s i => setPageState i pgClearing s) s)

/-- A MGMT frame of R363 goes to every attached end-point in service: INSTALL_EPOCH in place of PAGES. -/
def sendRotation (op : Nat) (p : Byte) (epoch : BitVec 32) (s : State) : State :=
  let tag := s.xlt.nextInvalTag
  (attached s).foldl (fun s i => mgmtTo i (mgmtSlot op p tag epoch.toNat 0 0) s)
    { s with xlt.nextInvalTag := tag + 1 }

/-- A rotation command completes at once where no end-point must answer, else it waits (R350, R363). -/
def secRotation (op slot mgmt : Nat) (epoch : BitVec 32) (s : State) : State :=
  let tag := s.xlt.nextInvalTag
  let waiting := attached s
  let s := sendRotation mgmt (getSlot slot s).partition epoch s
  if waiting.isEmpty then secDone op stOk s else secRuns op slot tag waiting s

/-- STAGE: install e + 1 is accepted beside e (R349). -/
def secStage (slot : Nat) (s : State) : State :=
  let k := getSlot slot s
  if k.st ≠ .active ∨ k.rotation ≠ 0 then secDone opStage stDenied s
  else secRotation opStage slot 0x23 (k.epoch + 1) (putSlot slot { k with rotation := 1 } s)

/-- Frames held for their IV are sealed under the new install and sent (R354). -/
def releaseIv (slot : Nat) (p : Byte) (s : State) : State :=
  let mine := s.tenant.ivHeld.filter (fun f => decide (f.part = p))
  let s := { s with tenant.ivHeld := s.tenant.ivHeld.filter (fun f => decide (f.part ≠ p)) }
  mine.foldl (fun s f => sendColl { f with sealed := sealUnder (some slot) 0 s } s) s

/-- SWITCH: the part sends under e + 1, and accepts e for 10 ms more (R349, R354). -/
def secSwitch (slot : Nat) (s : State) : State :=
  let k := getSlot slot s
  if k.st ≠ .active ∨ k.rotation ≠ 1 then secDone opSwitch stDenied s
  else
    let s := putSlot slot { k with rotation := 2, epoch := k.epoch + 1, windowEnd := some (s.clock + 10000000) } s
    secRotation opSwitch slot 0x24 (k.epoch + 1) (releaseIv slot k.partition (freshInstall slot k.partition s))

/-- The queues of a partition are fenced (R81, R358). -/
def fenceQueues (p : Byte) (s : State) : State :=
  (List.finRange 512).foldl (fun s q =>
    if qEnabled q.val s = true ∧ qPart q.val s = p ∧ (getQ q.val s).st ≠ .fenced ∧ (getQ q.val s).fencing.isNone = true then
      beginFence q s
    else s) s

/-- Requests of a partition: what was sent is fenced, what was not is answered PARTITION_CLOSED (R134, R358). -/
def fenceRequests (p : Byte) (s : State) : State :=
  let mark := fun (r : Request) =>
    if r.frame.part = p ∧ r.sentAt.isSome = true ∧ r.fencedAt.isNone = true then { r with fencedAt := some s.clock } else r
  let s := { s with req.reqs := s.req.reqs.map mark }
  (s.req.reqs.filter (fun r => decide (r.frame.part = p) && r.sentAt.isNone)).foldl
    (fun s r => endOne r stClosed [] s) s

/-- Steps 1 and 2 of CLOSE (R252, R253, R357, R358). -/
def closePartition (slot : Nat) (s : State) : State :=
  let k := getSlot slot s
  let p := k.partition
  let s := putSlot slot { k with st := .fenced } s
  let s := fenceRequests p (fenceQueues p s)
  let s := planesFence p (fenceColls p stClosed s)
  { s with tenant.permits := s.tenant.permits.filter (fun x => decide (x.grantor ≠ p ∧ x.grantee ≠ p)),
           tenant.ivHeld := s.tenant.ivHeld.filter (fun f => decide (f.part ≠ p)) }

/-- CLOSE: it completes at the end of the drain (R350, R358). -/
def secClose (slot : Nat) (s : State) : State :=
  let k := getSlot slot s
  if k.st = .empty ∨ k.st = .fenced ∨ k.st = .clearing then secDone opClose stDenied s
  else secRuns opClose slot 0 [] (closePartition slot s)

/-- A command of SEC_CMD begins; a reserved OP is MALFORMED (R350). -/
def beginSecCmd (v : Word) (s : State) : State :=
  let slot := wfield v 59 54
  let p : Byte := BitVec.ofNat 8 (wfield v 53 46)
  let gen : Byte := BitVec.ofNat 8 (wfield v 45 38)
  let first := wfield v 37 30
  let count := wfield v 29 22
  let s := profItem bSEC s
  match wfield v 63 60 with
  | 1 => secBind slot p gen s
  | 2 => secOpen slot s
  | 3 => secGrant opGrant slot first count s
  | 4 => secGrant opGrantShared slot first count s
  | 5 => secRelease slot first count s
  | 6 => secStage slot s
  | 7 => secSwitch slot s
  | 8 => secClose slot s
  | op => secDone op stMalformed s

/-- A write to SEC_CMD: ignored while BUSY (R350); it waits while the keeper is fenced for its swap (R396). -/
def writeSecCmd (v : Word) (s : State) : State :=
  if s.tenant.run.isSome || s.tenant.heldCmd.isSome then blockEvent bSEC s
  else if swapping 0 s then { s with tenant.heldCmd := some v }
  else beginSecCmd v s

/-- The keeper takes up the command that waited (R396). -/
def takeHeldCmd (s : State) : State :=
  match s.tenant.heldCmd with
  | some v => beginSecCmd v { s with tenant.heldCmd := none }
  | none => s

/-- The word of a SEC_CMD. -/
def secWord (op slot p gen first count : Nat) : Word :=
  place 63 60 op ||| place 59 54 slot ||| place 53 46 p ||| place 45 38 gen ||| place 37 30 first ||| place 29 22 count

/-- One command of SEC_CMD from a side. -/
def secCommand (side : Side) (w : Word) (s : State) : State := guarded side bSEC false .pwr s (writeSecCmd w)

/-- BIND (R346, R347, R350). -/
def execBind (side : Side) (slot : Fin 64) (partition gen : BitVec 8) (s : State) :
    Host.Outcome State Fault Refusal :=
  act s (secCommand side (secWord opBind slot.val partition.toNat gen.toNat 0 0))

/-- OPEN (R346, R350). -/
def execOpenSlot (side : Side) (slot : Fin 64) (s : State) : Host.Outcome State Fault Refusal :=
  act s (secCommand side (secWord opOpen slot.val 0 0 0 0))

/-- OPEN_DIGEST_DONE: ACTIVE, or INTEGRITY for a digest that differs (R346, R350, R356). -/
def execOpenDigestDone (s : State) : Host.Outcome State Fault Refusal :=
  act s (fun s =>
    match s.tenant.run with
    | none => s
    | some r =>
      if r.op ≠ opOpen then s
      else if digestsMatch r.slot s then
        secDone opOpen stOk (putSlot r.slot { getSlot r.slot s with st := .active } s)
      else secDone opOpen stIntegrity s)

/-- GRANT (R350, R351). -/
def execGrant (side : Side) (slot : Fin 64) (first count : BitVec 8) (s : State) :
    Host.Outcome State Fault Refusal :=
  act s (secCommand side (secWord opGrant slot.val 0 0 first.toNat count.toNat))

/-- GRANT_SHARED (R350, R356). -/
def execGrantShared (side : Side) (slot : Fin 64) (first count : BitVec 8) (s : State) :
    Host.Outcome State Fault Refusal :=
  act s (secCommand side (secWord opGrantShared slot.val 0 0 first.toNat count.toNat))

/-- RELEASE of pages (R350, R351). -/
def execReleasePages (side : Side) (slot : Fin 64) (first count : BitVec 8) (s : State) :
    Host.Outcome State Fault Refusal :=
  act s (secCommand side (secWord opRelease slot.val 0 0 first.toNat count.toNat))

/-- STAGE (R348 to R350, R363). -/
def execStage (side : Side) (slot : Fin 64) (s : State) : Host.Outcome State Fault Refusal :=
  act s (secCommand side (secWord opStage slot.val 0 0 0 0))

/-- SWITCH (R349, R350, R354, R363). -/
def execSwitch (side : Side) (slot : Fin 64) (s : State) : Host.Outcome State Fault Refusal :=
  act s (secCommand side (secWord opSwitch slot.val 0 0 0 0))

/-- A rotation command under way. -/
def rotationRun (s : State) : Option SecRun :=
  match s.tenant.run with
  | some r => if r.op = opStage ∨ r.op = opSwitch then some r else none
  | none => none

/-- An end-point's answer to a STAGE or SWITCH: the last one completes the command (R363). -/
def rotationAnswered (r : SecRun) (i : Nat) (st : Byte) (s : State) : State :=
  let bad := if st = stOk then r.badStatus else some (r.badStatus.getD st)
  let left := r.waiting.filter (fun x => decide (x ≠ i))
  if left.isEmpty then secDone r.op (bad.getD stOk) s
  else { s with tenant.run := some { r with waiting := left, badStatus := bad } }

/-- ROTATION_ANSWER (R363). -/
def execRotationAnswer (f : Frame) (s : State) : Host.Outcome State Fault Refusal :=
  act s (fun s =>
    let s := whenTrue (decide (f.ty = tyMgmt)) (takeArrivedAny f) s
    let x := f.data.headD 0
    match rotationRun s with
    | none => s
    | some r =>
      if f.ty = tyMgmt ∧ slotByte x 0 = 0x25 ∧ slotByte x 1 = (getSlot r.slot s).partition ∧
          BitVec.ofNat 16 (x.toNat / 2 ^ 16) = r.tag ∧
          eidPart f.src = (partId s).toNat ∧ r.waiting.contains (localIndex f.src) = true then
        rotationAnswered r (localIndex f.src) (slotByte x 16) s
      else s)

/-- ROTATION_ANSWER_TIMEOUT: 1 ms without every answer is UNREACHABLE (R363). -/
def execRotationAnswerTimeout (s : State) : Host.Outcome State Fault Refusal :=
  act s (fun s =>
    match rotationRun s with
    | some r => if due (r.beganAt + 1000000) s then secDone r.op stUnreachable s else s
    | none => s)

/-- ROTATION_WINDOW_EXPIRY: 10 ms after SWITCH only the new install is accepted (R349). -/
def execRotationWindowExpiry (slot : Fin 64) (s : State) : Host.Outcome State Fault Refusal :=
  act s (fun s =>
    let k := getSlot slot.val s
    match k.windowEnd with
    | some t => if k.rotation = 2 ∧ due t s = true then
        putSlot slot.val { k with rotation := 0, windowEnd := none } s else s
    | none => s)

/-- CLOSE (R346, R350, R357 to R359). -/
def execClose (side : Side) (slot : Fin 64) (s : State) : Host.Outcome State Fault Refusal :=
  act s (secCommand side (secWord opClose slot.val 0 0 0 0))

/-- Nothing of a partition is outstanding here: its requests, and the requests for it at the target (R358). -/
def drained (p : Byte) (s : State) : Bool :=
  !(s.req.reqs.any (fun r => decide (r.frame.part = p))) && !(s.tgt.reqs.any (fun r => decide (r.frame.part = p)))

/-- Step 4 of CLOSE: the generation moves on, the keys are zeroised here and at the attached end-points, the pages are
being cleared (R347, R358, R363). -/
def closeDrained (slot : Nat) (s : State) : State :=
  let k := getSlot slot s
  let gen := k.generation + 1
  let pages := ownedPages slot s
  let s := putSlot slot { k with st := .clearing, generation := gen, installed := false, memKey := 0, frameKey := 0,
                                 rotation := 0, windowEnd := none } s
  let s := { s with tenant.lastGen := tblSet 0 s.tenant.lastGen k.partition.toNat (gen.toNat + 1) }
  let tag := s.xlt.nextInvalTag
  let s := (attached s).foldl (fun s i => mgmtTo i (mgmtSlot 0x21 k.partition tag (2 ^ 27) 0 0) s)
    { s with xlt.nextInvalTag := tag + 1 }
  let s := sendRotation 0x23 k.partition 0 s
  secDone opClose stOk (pages.foldl (fun s i => setPageState i pgClearing s) s)

/-- The requests for a partition that still wait at the target are answered PARTITION_CLOSED and apply nothing (R358). -/
def answerHeld (p : Byte) (s : State) : State :=
  (s.tgt.reqs.filter (fun r => decide (r.frame.part = p))).foldl (fun s r => failStore r stClosed s) s

/-- A CLOSE has run for the 100 µs that bound its drain (R358). -/
def drainOver (slot : Nat) (s : State) : Bool :=
  match s.tenant.run with
  | some r => decide (r.op = opClose ∧ r.slot = slot) && due (r.beganAt + 100000) s
  | none => false

/-- CLOSE_DRAIN_DONE: all is drained, or after 100 µs what is left at the target is answered with an error (R346, R347,
R358, R363; log entry 81). -/
def execCloseDrainDone (slot : Fin 64) (s : State) : Host.Outcome State Fault Refusal :=
  act s (fun s =>
    let k := getSlot slot.val s
    if k.st ≠ .fenced then s
    else
      let s := if drainOver slot.val s then answerHeld k.partition s else s
      if drained k.partition s then closeDrained slot.val s else s)

/-- CLEARING_DONE: the last page is clear; the slot is EMPTY (R346, R358). -/
def execClearingDone (slot : Fin 64) (s : State) : Host.Outcome State Fault Refusal :=
  act s (fun s =>
    let busy : Bool := (List.range 184).any (fun i => decide (pageState i s = pgClearing ∧ pageSlot i s = slot.val))
    if (getSlot slot.val s).st = .clearing ∧ busy = false then
      setFlag rSecStatus 6 (putSlot slot.val keySlot0 s)
    else s)

end Sys2Proof.Machine
end

