-- ==== Sys2Proof/Machine/Resets.lean ====
section
/-! DEFINITION. The reset domains: what starts a reset, what it takes, keeps and shows, how resets meet and escalate
(R8, R45, R87, R142, R334, R385 to R391, R397, R399, R438). -/
namespace Sys2Proof.Machine

/-! ### Registers of a domain (R8, R438) -/

/-- A register after a reset of its own domain: held fields as they were, img fields from the image, all else 0. -/
def resetWord (o : Nat) (d : RegDesc) (s : State) : Word :=
  (getReg o s &&& heldMask d) ||| (tblGet 0 s.img.regs o &&& imgMask d)

/-- Returns one register of a domain to its reset value. -/
def resetReg (d : Dom) (s : State) (o : Nat) : State :=
  match regDesc o with
  | some r => if r.dom = d then putReg o (resetWord o r s) s else s
  | none => s

/-- Returns the registers of a domain to their reset values. -/
def resetRegs (d : Dom) (s : State) : State :=
  (s.regs.map (·.1) ++ s.img.regs.map (·.1)).foldl (resetReg d) s

/-- A domain goes into reset until a time, or until its end is reported. -/
def holdReset (d : Dom) (t : Nat) (s : State) : State := { s with resets := tblSet 0 s.resets d.code (t + 1) }

/-- A domain comes out of reset: its registers hold their reset values (R438). -/
def leaveReset (d : Dom) (s : State) : State :=
  resetRegs d { s with resets := tblSet 0 s.resets d.code 0 }

/-! ### Causes, counts, escalation (R388 to R391, R399) -/

/-- A cause resets a domain (R388). -/
def causeAllowed : Dom → ResetCause → Bool
  | .pwr, c => match c with
    | .powerApplied | .brownout | .thermalTrip | .command _ => true
    | _ => false
  | .kpr, c => match c with
    | .watchdog | .command _ => true
    | _ => false
  | .ept, c => match c with
    | .uncorrectable | .heartbeat | .command _ => true
    | _ => false
  | .ary, c => match c with
    | .uncorrectable | .heartbeat | .command _ => true
    | _ => false
  | .prt _, c => match c with
    | .heartbeat | .lostRetrain | .command _ => true
    | _ => false
  | .stk _, c => match c with
    | .heartbeat | .stackRetrain | .command _ => true
    | _ => false

/-- The block and number under which a domain's reset is logged, and its code in KPR_RESET. -/
def domPlace : Dom → Nat × Nat × Nat
  | .pwr => (bKPR, 0, 0)
  | .kpr => (bKPR, 0, 1)
  | .ept => (bEPT, 0, 2)
  | .ary => (bARY, 0, 3)
  | .prt n => (bPRT, n, 4)
  | .stk n => (bMEM, n, 5)

/-- The log entry of a reset; the code of the cause is not stated, a free value (R399). -/
def logReset (d : Dom) (s : State) : State :=
  let (v, s) := takeFree s
  let x := domPlace d
  logEvent x.1 x.2.1 1 0 0 (BitVec.ofNat 128 (x.2.2 + 256 * (v.toNat % 256))) s

/-- 15 minutes in ns. -/
abbrev countNs : Nat := 900000000000

/-- The reset starts within the last 15 minutes. -/
def recentStarts (l : List Nat) (s : State) : List Nat := l.filter (fun t => decide (s.clock < t + countNs))

/-- The count of a domain (R390). -/
def resetCount (d : Dom) (s : State) : Nat := (recentStarts (tblGet [] s.service.resetTimes d.code) s).length

/-- KPR_ESC.OOS_CAUSE of a domain's escalation. -/
def escalationCause : Dom → Nat
  | .ary => 1
  | .ept => 2
  | .kpr => 3
  | _ => 4

/-- A fourth reset within 15 minutes: the port is retired alone, or the part goes out of service (R390). -/
def escalate (d : Dom) (s : State) : State :=
  if resetCount d s < 4 then s
  else match d with
    | .prt n =>
      if portRetired n s then s
      else logEvent bPRT n 2 0 0 0 (putReg rKprPrtRetired (getReg rKprPrtRetired s ||| placeBit n true) s)
    | _ => goOutOfService (escalationCause d) s

/-- Counts and logs a reset (R390, R399). -/
def countReset (d : Dom) (s : State) : State :=
  let l := recentStarts (tblGet [] s.service.resetTimes d.code) s ++ [s.clock]
  escalate d (logReset d { s with service.resetTimes := tblSet [] s.service.resetTimes d.code l,
                                  service.totalResets := (s.service.totalResets + 1) % 2 ^ 32 })

/-- The domain whose reset abandons a component's swap (R397). -/
def servedBy (c : Nat) (d : Dom) : Bool :=
  match d with
  | .kpr => decide (c = 0 ∨ c = 6)
  | .prt _ => decide (c = 1)
  | .stk _ => decide (c = 2)
  | .ary => decide (c = 3 ∨ c = 4 ∨ c = 5 ∨ c = 7)
  | _ => false

/-- A reset of the domain that a swap serves abandons the swap (R397). -/
def abandonSwap (d : Dom) (s : State) : State :=
  match s.service.activation with
  | some a => if servedBy a.component d then { s with service.activation := none, service.updateFailed := true } else s
  | none => s

/-- A reset of a domain: it joins one that runs (R389); else it is counted, and does its work. -/
def startReset (d : Dom) (cause : ResetCause) (work : State → State) (s : State) : State :=
  if !(causeAllowed d cause) || inReset d s then s else countReset d (abandonSwap d (work s))

/-- A RESET message whose DOMAIN or INSTANCE is not one resets nothing and is answered MALFORMED (R377). -/
def malformedReset (inst : Byte) (s : State) : State := sbVendor inst (fun s => sbAnswer inst stMalformed [] s) s

/-- The RESET message of the side band is answered OK, before the effect (R376, R377). -/
def resetRow (d : Dom) (cause : ResetCause) (work : State → State) (s : State) : State :=
  match cause with
  | .command (some inst) => sbVendor inst (fun s => startReset d cause work (sbAnswer inst stOk [] s)) s
  | .malformed inst => malformedReset inst s
  | _ => startReset d cause work s

/-! ### PWR (R8, R385) -/

/-- The configuration image of the slot that component 6 runs from (R402, R406). -/
def bootImage (s : State) : Image := ((getImage 6 (activeSlot 6 s) s).config).getD s.img

/-- The registers an image gives after a PWR reset: the fields marked img, and DET_STRICT (R8, R197, R406). -/
def imageRegs (img : Image) : Tbl Word :=
  img.regs.foldl (fun t e => match regDesc e.1 with
    | some d => tblSet 0 t e.1 (e.2 &&& imgMask d)
    | none => t) (tblSet 0 [] rKprMode (placeBit 0 img.detStrict))

/-- A PWR reset: everything but the non-volatile store returns to its reset value; the pins, the supply and what the
part has given to the world outside it stay (R385). -/
def resetAll (s : State) : State :=
  let img := bootImage s
  let b := baseState img (imageRegs img)
  { b with
    pending := s.pending, clock := s.clock, freeCtr := s.freeCtr, hostMem := s.hostMem,
    memory.retired := s.memory.retired, tenant.enrolled := s.tenant.enrolled,
    host.perst := s.host.perst, host.vectors := s.host.vectors, req.hostAnswers := s.req.hostAnswers,
    side.ibis := s.side.ibis, side.answers := s.side.answers,
    power.supply := s.power.supply, power.warn := s.power.warn,
    service.activeB := s.service.activeB, service.slots := s.service.slots, service.log := s.service.log,
    service.logTotal := s.service.logTotal, service.logNext := s.service.logNext,
    service.updateFailed := s.service.activation.isSome }

/-- The PWR reset with its log entry; it does not count and zeroes every count (R389, R390). -/
def pwrReset (s : State) : State := logReset .pwr (resetAll s)

/-- PWR_RESET (R385, R388, R389). -/
def execPwrReset (cause : ResetCause) (s : State) : Host.Outcome State Fault Refusal :=
  act s (fun s =>
    match cause with
    | .command (some inst) => sbVendor inst (fun s => pwrReset (sbAnswer inst stOk [] s)) s
    | .malformed inst => malformedReset inst s
    | _ => if causeAllowed .pwr cause then pwrReset s else s)

/-! ### KPR (R385) -/

/-- What a keeper reset loses. -/
def kprLoses (s : State) : State :=
  let s := resetRegs .kpr (dropSessions (fun _ => true) s)
  ownChanged { s with side.dynAddr := none, side.eid := 0, side.capWaiting := [], host.doeBusy := false,
                      observe.capture := none, power.cap := s.img.leaseCap, power.leaseEnd := none,
                      power.source := capImage, resets := tblSet 0 s.resets Dom.kpr.code (s.clock + 1) }

/-- KPR_RESET (R385, R388 to R390). -/
def kprReset (cause : ResetCause) (s : State) : State := resetRow .kpr cause kprLoses s

def execKprReset (cause : ResetCause) (s : State) : Host.Outcome State Fault Refusal :=
  actSettled s (kprReset cause)

/-- KPR_RESET_END: 250 ms typically; OUT_OF_SERVICE and REPLACE set by the reset's own escalation stay (R385, R390,
R438). -/
def execKprResetEnd (s : State) : Host.Outcome State Fault Refusal :=
  act s (fun s =>
    if inReset .kpr s then
      let kept := getReg rKprAttn s &&& (placeBit attnOos true ||| placeBit attnReplace true)
      let s := leaveReset .kpr s
      takeHeldCmd (putReg rKprAttn (getReg rKprAttn s ||| kept) s)
    else s)

/-! ### EPT (R45, R142, R385, R386) -/

/-- Every open fault ends as ABORT (R45). -/
def abortFaults (s : State) : State :=
  let l := s.xlt.faults ++ s.xlt.waitingFaults
  let s := { s with xlt.faults := [], xlt.waitingFaults := [], xlt.records := [], xlt.faultPass := 0 }
  l.foldl (fun s f => abortFault f s) s

/-- The part's own requests without a final outcome end: stores and atomics with OUTCOME_UNKNOWN and no settlement,
loads with UNREACHABLE (R386). -/
def endOwnRequests (s : State) : State :=
  s.req.reqs.foldl (fun s r =>
    endOne { r with sentAt := none } (if r.kind = .load then stUnreachable else stUnknown) [] s) s

/-- What an end-point reset loses (R45, R142, R386). Fault records that wait inside the part and ADVISE's hints go with the
rest; what the combining queues hold stays, lands later and is then recorded anew (log entry 72). -/
def eptLoses (s : State) : State :=
  let s := endOwnRequests (abortFaults s)
  let s := { s with
    xlt.cache := [], xlt.advice := [],
    req.settling := [], req.records := [], req.held := [], req.settlePass := 0,
    tgt.arrived := [], tgt.streams := [], tgt.results := [], tgt.waiting := [], tgt.queries := [], tgt.quarantineEnd := none }
  holdReset .ept (s.clock + 1000000) (resetRegs .ept s)

/-- EPT_RESET (R385, R386, R388 to R390). -/
def eptReset (cause : ResetCause) (s : State) : State := resetRow .ept cause eptLoses s

def execEptReset (cause : ResetCause) (s : State) : Host.Outcome State Fault Refusal :=
  actSettled s (eptReset cause)

/-- A reset's time has come; the one that bring-up holds ends by bring-up alone. -/
def resetDue (d : Dom) (s : State) : Bool :=
  match resetEnd d s with
  | some t => due t s
  | none => false

/-- Bring-up has taken a domain out of its first reset: stages 0x08 and 0x0C (R401). -/
def broughtUp (stage : Nat) (s : State) : Bool := decide (stage ≤ s.power.stage ∧ s.power.stage ≤ stageReady)

/-- EPT_RESET_END: after 1 ms the quarantine of 2.5 ms begins (R142, R385). -/
def execEptResetEnd (s : State) : Host.Outcome State Fault Refusal :=
  act s (fun s =>
    if resetDue .ept s && broughtUp 0x08 s then
      let s := leaveReset .ept s
      { s with tgt.quarantineEnd := some (s.clock + 2500000) }
    else s)

/-! ### ARY (R87, R236, R385 to R387) -/

/-- A MIGRATE of a descriptor has begun its withdrawal (R87). -/
def migrateBegun (q : Fin 512) (d : DescEx) (s : State) : Bool :=
  s.xlt.withdraws.any (fun w => w.migrate && w.started && decide (w.queue = q ∧ w.index = d.index))

/-- A porter descriptor has issued a write: it has sent a store or an atomic, or its MIGRATE has begun its withdrawal
(R87). -/
def hasWritten (q : Fin 512) (d : DescEx) (s : State) : Bool :=
  if dOp d.raw = opMigrate then d.wrote || migrateBegun q d s
  else movesData d.raw && d.wrote && decide (d.issued ≠ 0)

/-- The status an array reset gives a descriptor: OUTCOME_UNKNOWN where a write was issued or for a run in flight, that
of a COLL_START or ROUTE_RUN already finished or ended by the reset; none for one that stays in the ring (R87, R386). -/
def aryStatus (q : Fin 512) (d : DescEx) (s : State) : Option Byte :=
  if hasWritten q d s then some stUnknown
  else if s.array.runs.any (fun r => decide (r.queue = q ∧ r.index = d.index) &&
      decide (r.phase = .running ∨ r.phase = .saving)) then some stUnknown
  else if d.started = true ∧ (dOp d.raw = opColl ∨ dOp d.raw = opRoute) then d.status
  else none

/-- Takes the last descriptors out that are to be fetched again. -/
def dropFresh (l : List DescEx) : List DescEx := (l.reverse.dropWhile (fun d => !d.started)).reverse

/-- A queue's descriptors at an array reset: those with a status keep it, the others are as if just fetched. -/
def aryQueue (q : Fin 512) (s : State) : State :=
  let v := getQ q.val s
  let keep := fun (d : DescEx) => match aryStatus q d s with
    | some st => { d with status := some st, failed := none, started := true, buf := [], readWait := false,
                          readList := false }
    | none => freshDesc d.index d.raw
  putQ q.val { v with porter := none, fencing := none, aheadPages := [], turns := 0, lastPoll := none,
                      fetched := dropFresh (v.fetched.map keep) } s

/-- Every collective of the part ends with the group-wide VOID of REASON MEMBER_LOST (R385, R386). -/
def endColls (s : State) : State := s.caravan.colls.foldl (fun s c => failColl c stMemberLost s) s

/-- Requests of the porters without a final outcome: those sent belong to the end-point, which keeps working, and go on
without their descriptors; the others are gone (R87, R385). -/
def detachRequests (s : State) : State :=
  let queue := fun (r : Request) => match r.who with
    | .queue _ => true
    | .window _ => false
  { s with req.reqs := (s.req.reqs.filter (fun r => !(queue r) || r.sentAt.isSome)).map (fun r =>
      if queue r then { r with detached := true } else r) }

/-- What an array reset loses. -/
def aryLoses (s : State) : State :=
  let s := (List.finRange 512).foldl (fun s q => withdrawHeld q.val (leaveFaults q s)) (endColls s)
  let s := (List.finRange 512).foldl (fun s q => aryQueue q s) s
  let s := detachRequests s
  let s := { s with
    xlt.withdraws := [], array := array0, caravan := caravan0,
    rope.paired := false, rope.held := false, rope.recordValid := false, rope.armed := true, rope.compared := 0,
    rope.runNo := 0, rope.chunkNo := 0, rope.crcs := [], rope.capture := none, rope.record := [],
    rope.shadowBytes := [], rope.run := none, rope.shadowOut := [] }
  holdReset .ary (s.clock + 2000000) (resetRegs .ary s)

/-- ARY_RESET (R87, R385, R386, R388 to R390). -/
def aryReset (cause : ResetCause) (s : State) : State := resetRow .ary cause aryLoses s

def execAryReset (cause : ResetCause) (s : State) : Host.Outcome State Fault Refusal :=
  actSettled s (aryReset cause)

/-- A queue when the array reset ends: FENCED if ENABLE is 1, and the records due are written in ring order (R80, R386,
R387). -/
def aryRestart (s : State) (q : Fin 512) : State :=
  let v := getQ q.val s
  let s := putQ q.val { v with st := if qEnabled q.val s then .fenced else .idle } s
  completeUpTo v.fetched.length q s

/-- ARY_RESET_END (R385 to R387). -/
def execAryResetEnd (s : State) : Host.Outcome State Fault Refusal :=
  act s (fun s =>
    if resetDue .ary s && broughtUp 0x0C s then (List.finRange 512).foldl aryRestart (leaveReset .ary s) else s)

/-! ### PRT (R385, R388, R390) -/

/-- What a port reset loses: its replay buffer, its credits, its registers. -/
def prtLoses (p : Nat) (s : State) : State :=
  let s := putLink p link0 (enterDown p false s)
  let other := fun (i : Nat) => !(decide (i / 16 = p))
  let s := { s with credit := tblKeep other s.credit, owed := tblKeep other s.owed }
  holdReset (.prt p) (s.clock + 10000) (resetRegs (.prt p) s)

/-- PRT_RESET (R385, R388 to R390). -/
def prtReset (p : Nat) (cause : ResetCause) (s : State) : State := resetRow (.prt p) cause (prtLoses p) s

def execPrtReset (p : Fin 36) (cause : ResetCause) (s : State) : Host.Outcome State Fault Refusal :=
  act s (prtReset p.val cause)

/-- An enabled port leaves DOWN (R305). -/
def trainEnabled (p : Nat) (s : State) : State :=
  if getBit (rPrtCfg p) 63 s && decide ((linkOf p s).st = .down) then startTraining p s else s

/-- PRT_RESET_END: after 10 µs the port trains (R385). -/
def execPrtResetEnd (p : Fin 36) (s : State) : Host.Outcome State Fault Refusal :=
  act s (fun s =>
    if resetDue (.prt p.val) s then
      let s := leaveReset (.prt p.val) s
      if broughtUp 0x0C s then trainEnabled p.val s else s
    else s)

/-- LOST_RETRAIN_TIMEOUT: a RETRAIN of a LOST port has not brought it up within 10 ms (R388). -/
def execLostRetrainTimeout (p : Fin 36) (s : State) : Host.Outcome State Fault Refusal :=
  act s (fun s => match (linkOf p.val s).lostRetrainAt with
    | some t => if due (t + 10000000) s && !(portUp p.val s) then prtReset p.val .lostRetrain s else s
    | none => s)

/-- A write to KPR_PRT_RETIRED: clearing a bit zeroes the port's count and lets it train (R390, R391). -/
def writeRetired (v collide : Word) (s : State) : State :=
  let clear := getReg rKprPrtRetired s &&& v &&& ~~~collide
  let s := putReg rKprPrtRetired (getReg rKprPrtRetired s &&& ~~~clear) s
  (List.range 36).foldl (fun s p =>
    if wbit clear p then
      trainEnabled p { s with service.resetTimes := tblSet [] s.service.resetTimes (Dom.prt p).code [] }
    else s) s

/-- The W1C bits that stay 1 because the part sets them in the cycle of the write (R439). -/
def keptBits (o : Nat) (v collide : Word) (s : State) : Word :=
  match regDesc o with
  | some d => v &&& collide &&& getReg o s &&& fieldMask (fun f => decide (f.acc = .w1c)) d.fields
  | none => 0

/-- The set-wins rule: BLOCK_EVENT_COUNT increments once for each W1C bit so kept (R439). -/
def countKept (o : Nat) (v collide : Word) (s : State) : State :=
  match regDesc o with
  | some d =>
    let kept := keptBits o v collide s
    bump (rBlockEvents d.blk) ((List.range 64).filter (fun i => wbit kept i)).length s
  | none => s

/-- PORTS: the write to KPR_PRT_RETIRED.PORTS; `collide` are the bits the part sets in the same cycle (R390, R391,
R439). -/
def execPorts (side : Side) (val collide : Word) (s : State) : Host.Outcome State Fault Refusal :=
  act s (fun s => guarded side bKPR false .pwr s (fun s =>
    writeRetired val collide (countKept rKprPrtRetired val collide s)))

/-! ### STK (R333, R334, R385) -/

/-- What a stack reset loses: training and the scrub position; the DRAM contents stay. -/
def stkLoses (k : Nat) (s : State) : State :=
  let s := putStack k { stack0 with temp := (getStack k s).temp } s
  holdReset (.stk k) (s.clock + 3000000) (resetRegs (.stk k) s)

/-- STK_RESET (R385, R388 to R390). -/
def stkReset (k : Nat) (cause : ResetCause) (s : State) : State := resetRow (.stk k) cause (stkLoses k) s

def execStkReset (k : Fin 6) (cause : ResetCause) (s : State) : Host.Outcome State Fault Refusal :=
  actSettled s (stkReset k.val cause)

/-- STK_RESET_END: 3 ms typically; the stack is trained afresh and serves what waits (R385). -/
def execStkResetEnd (k : Fin 6) (s : State) : Host.Outcome State Fault Refusal :=
  act s (fun s =>
    if inReset (.stk k.val) s then
      let s := leaveReset (.stk k.val) s
      let v := getStack k.val s
      let s := putStack k.val { v with st := .online, trainTemp := v.temp } s
      (List.range 6).foldl (fun s j => beginStackFence j s) s
    else s)

/-- STACK_RETRAIN_TIMEOUT: a retrain not complete within 50 µs is repeated once; then the stack is FAILED and reset
(R334). -/
def retrainTimeout (k : Nat) (s : State) : State :=
  let v := getStack k s
  if v.st = .fenced ∧ due (v.fencedAt + 50000) s = true then
    if v.repeated then stkReset k .stackRetrain (putStack k { v with st := .failed } s)
    else putStack k { v with repeated := true, fencedAt := s.clock } s
  else s

def execStackRetrainTimeout (k : Fin 6) (s : State) : Host.Outcome State Fault Refusal :=
  actSettled s (retrainTimeout k.val)

/-! ### Watchdogs (R388, R390) -/

/-- KEEPER_WATCHDOG_EXPIRY: 100 ms without a keeper heartbeat (R388). -/
def execKeeperWatchdogExpiry (s : State) : Host.Outcome State Fault Refusal :=
  actSettled s (kprReset .watchdog)

/-- HEARTBEAT_TIMEOUT: a unit fails its 1 ms heartbeat for 10 ms (R388). -/
def heartbeatReset : Beating → State → State
  | .endPoint, s => eptReset .heartbeat s
  | .caravan, s => aryReset .heartbeat s
  | .porterProcessor, s => aryReset .heartbeat s
  | .routeScheduler, s => aryReset .heartbeat s
  | .port n, s => prtReset n.val .heartbeat s
  | .stack n, s => stkReset n.val .heartbeat s

def execHeartbeatTimeout (unit : Beating) (s : State) : Host.Outcome State Fault Refusal :=
  actSettled s (heartbeatReset unit)

/-- RESET_COUNT_EXPIRY: starts that have left the 15-minute window no longer count (R390). -/
def execResetCountExpiry (s : State) : Host.Outcome State Fault Refusal :=
  act s (fun s => { s with service.resetTimes :=
    s.service.resetTimes.foldl (fun t e => tblSet [] t e.1 (recentStarts e.2 s)) [] })

/-- A write of GO to KPR_RESET: the domain named is reset; a reserved domain or number is counted (R388). -/
def writeReset (v : Word) (s : State) : State :=
  let n := wfield v 15 8
  let c : ResetCause := .command none
  if wbit v 16 = false then s
  else match wfield v 2 0 with
    | 0 => pwrReset s
    | 1 => kprReset c s
    | 2 => eptReset c s
    | 3 => aryReset c s
    | 4 => if n < 36 then prtReset n c s else blockEvent bKPR s
    | 5 => if n < 6 then stkReset n c s else blockEvent bKPR s
    | _ => blockEvent bKPR s

end Sys2Proof.Machine
end

