-- ==== Sys2Proof/Machine/Firmware.lean ====
section
/-! DEFINITION. Updating programs in place: staging, checking, fencing and swapping an image (R338, R340, R378, R395 to
R397, R403, R406). -/
namespace Sys2Proof.Machine

/-- PLDM firmware update is served for a component: also in RECOVERY for component 0 and in NO_CONFIG for component 6
(R403). -/
def updateServed (c : Nat) (s : State) : Bool :=
  sidebandUp s || (keeperRuns s && (decide (s.power.stage = stageRecovery ∧ c = 0) ||
    decide (s.power.stage = stageNoConfig ∧ c = 6)))

/-- The slot a component does not run from. -/
def idleSlot (c : Nat) (s : State) : Nat := 1 - activeSlot c s

/-- REQUEST_FIRMWARE_DATA: up to 1,024 B, in order, go into the inactive slot, which then holds no verified image until
it is activated; offset 0 begins anew (R378). Not while the component's swap runs. -/
def execRequestFirmwareData (comp : Fin 8) (offset : BitVec 32) (data : List Byte) (s : State) :
    Host.Outcome State Fault Refusal :=
  act s (fun s =>
    let c := comp.val
    let v := if offset = 0 then slotImage0 else getImage c (idleSlot c s) s
    if updateServed c s && !(swapping c s) && decide (data.length ≤ 1024 ∧ offset.toNat = v.bytes) then
      putImage c (idleSlot c s) { v with verified := false, bytes := v.bytes + data.length } s
    else s)

/-- The three conditions of R395; a configuration image must carry its values. -/
def imageAccepted (c : Nat) (img : FirmwareImage) (s : State) : Bool :=
  img.sigOk && decide (img.index.toNat = c ∧ tblGet 0 s.img.minVersions c ≤ img.version.toNat) &&
    (decide (c ≠ 6) || img.config.isSome)

/-- DETAIL of a swap's log entry: INDEX and VERSION (R399). -/
def swapDetail (index version : Nat) : BitVec 128 := BitVec.ofNat 128 (index + 2 ^ 32 * version)

/-- An image is refused: the update reports failure and the active slot keeps running (R395, R399). -/
def refuseImage (c : Nat) (img : FirmwareImage) (s : State) : State :=
  let s := logEvent bKPR 0 4 stIntegrity 0 (swapDetail img.index.toNat img.version.toNat)
    { s with service.updateFailed := true }
  answer .pldm (BitVec.ofNat 8 c) stIntegrity [] s

/-- The accepted image as its slot holds it. -/
def storeImage (c : Nat) (img : FirmwareImage) (s : State) : State :=
  let v := getImage c (idleSlot c s) s
  putImage c (idleSlot c s)
    { version := img.version, digest := img.digest, verified := true, bytes := v.bytes, config := img.config,
      library := img.library } s

/-- A component runs from its other slot. -/
def toggleSlot (c : Nat) (s : State) : State :=
  { s with service.activeB := s.service.activeB ^^^ BitVec.ofNat 8 (2 ^ c) }

/-- The queues a component's fence takes: the porter queues under R86, the caravan queues (R396). -/
def fenceFor (c : Nat) (s : State) : List (Fin 512) :=
  let engine := if c = 3 then engCaravan else engPorter
  if c = 3 ∨ c = 4 then
    (List.finRange 512).filter (fun q => qEnabled q.val s && decide (qEngine q.val s = engine) &&
      decide ((getQ q.val s).st ≠ .fenced) && (getQ q.val s).fencing.isNone)
  else []

/-- A port is in a state in which its sequencer may be swapped (R396). -/
def portQuiet (p : Nat) (s : State) : Bool :=
  liveState (linkOf p s).st || decide ((linkOf p s).st = .down)

/-- The ports whose sequencer may be swapped now. -/
def quietPorts (s : State) : List Nat := (List.range 36).filter (fun p => portQuiet p s)

/-- ACTIVATE_FIRMWARE: the checks of R395, then the component's fence begins (R396); in RECOVERY and NO_CONFIG bring-up
starts again at that stage (R403). -/
def activate (c : Nat) (img : FirmwareImage) (s : State) : State :=
  if !(updateServed c s) then s
  else if s.service.activation.isSome then answer .pldm (BitVec.ofNat 8 c) stRetryBusy [] s
  else if !(imageAccepted c img s) then refuseImage c img s
  else
    let s := answer .pldm (BitVec.ofNat 8 c) stOk [] (storeImage c img { s with service.updateFailed := false })
    if s.power.stage = stageRecovery then { toggleSlot c s with power.stage := 0x01 }
    else if s.power.stage = stageNoConfig then { toggleSlot c s with power.stage := 0x02 }
    else
      let l := fenceFor c s
      let s := l.foldl (fun s q => beginFence q s) s
      { s with service.activation := some ⟨c, s.clock, l.map (·.val), if c = 1 then quietPorts s else []⟩ }

def execActivateFirmware (comp : Fin 8) (img : FirmwareImage) (s : State) : Host.Outcome State Fault Refusal :=
  act s (activate comp.val img)

/-- A component's fence is met (R396); a thermal hold or PWR_WARN_N delays it (R397). -/
def fenceMet (a : Activation) (s : State) : Bool :=
  !(issueHeld s) &&
  (match a.component with
    | 0 => s.tenant.run.isNone
    | 1 => (List.range 36).all (fun p => a.swapped.contains p)
    | 2 => (List.range 6).all (fun k => a.swapped.contains k)
    | 4 => a.fencedQueues.all (fun q => decide ((getQ q s).st = .fenced))
    | 5 => s.array.current.isNone
    | 7 => match s.array.current with
      | some (.step _ _ _ _ _) => false
      | _ => true
    | _ => true)

/-- The img fields of a register that a new configuration image changes at once: not the RWL fields, nor port roles,
nor ownership, which changes only as R380 says. -/
def liveImgMask (o : Nat) : Word :=
  match regDesc o with
  | some d =>
    if o = rKprOwn then 0
    else fieldMask (fun f => decide (f.rst = .img ∧ f.acc ≠ .rwl ∧ f.acc ≠ .ro)) d.fields
  | none => 0

/-- A table's value at an offset merged: the fields of a mask from the new image, the others as before. -/
def mergeReg (old new : Tbl Word) (t : Tbl Word) (o : Nat) : Tbl Word :=
  let m := liveImgMask o
  tblSet 0 t o ((tblGet 0 old o &&& ~~~m) ||| (tblGet 0 new o &&& m))

/-- A register takes a value of a new image, with the effects a write of it has on a port, a meter's buckets or the time
tree. -/
def adoptReg (o : Nat) (v : Word) (s : State) : State :=
  if rPrt 0 ≤ o ∧ o < rPrt 36 ∧ o % 0x10000 = 0 then writePortCfg ((o - rPrt 0) / 0x10000) v s
  else if o = rTimCfg then writeTimCfg v s
  else if rSwcMeter 0 ≤ o ∧ o < rSwcMeter 128 then putReg o v (refreshBuckets ((o - rSwcMeter 0) / 16) s)
  else putReg o v s

/-- The new configuration image takes effect (R396): port roles and groups, RWL fields wait for the next PWR reset;
equalisation for each port's next training; every other field at once. -/
def adoptImage (new : Image) (s : State) : State :=
  let old := s.img
  let keys := old.regs.map (·.1) ++ new.regs.map (·.1)
  let kept := keys.foldl (mergeReg old.regs new.regs) old.regs
  let kept := if (keys.contains rKprOwn) then tblSet 0 kept rKprOwn (tblGet 0 new.regs rKprOwn &&& 0x3FFF) else kept
  let s := keys.foldl (fun s o =>
    if liveImgMask o = 0 then s
    else adoptReg o ((getReg o s &&& ~~~(liveImgMask o)) ||| (tblGet 0 new.regs o &&& liveImgMask o)) s) s
  { s with img := { new with regs := kept, groups := old.groups } }

/-- The library area (R254). -/
abbrev libraryBase : Nat := 0x2E5C000000
abbrev librarySize : Nat := 0x4000000

/-- Images of the route library are written into their places (R254, R396). -/
def writeLibrary (l : List Host.Cell) (s : State) : State :=
  l.foldl (fun s e => if e.1 < librarySize then storeBytes (libraryBase + e.1) [e.2] s else s) s

/-- What the swap of a component changes beside its slot (R338, R396). -/
def swapEffect (c : Nat) (s : State) : State :=
  let v := getImage c (activeSlot c s) s
  if c = 0 then takeHeldCmd (dropSessions (fun _ => true) { s with tenant.akDigest := v.digest })
  else if c = 6 then (match v.config with
    | some i => adoptImage i s
    | none => s)
  else if c = 7 then writeLibrary v.library s
  else s

/-- The part restarts a queue it had fenced for a swap (R82, R396). -/
def restartQueue (s : State) (q : Nat) : State :=
  if (getQ q s).st = .fenced ∧ partitionActive (qPart q s) s = true then runOrIdle q s else s

/-- The stack whose sequencer may be swapped now: the lowest that has not been, while no stack is fenced and a second has
passed since the one before (R333, R396). -/
def nextStackSwap (a : Activation) (s : State) : Option Nat :=
  if (List.range 6).any (fun k => decide ((getStack k s).st = .fenced)) ||
      (!a.swapped.isEmpty && !(due (a.beganAt + 1000000000) s)) then none
  else (List.range 6).find? (fun k => !(a.swapped.contains k) && decide ((getStack k s).st ≠ .training))

/-- One more stack's sequencer is swapped; its accesses wait for no time that the model counts (R396; log entry 82). -/
def swapStack (a : Activation) (s : State) : Activation :=
  match nextStackSwap a s with
  | some k => { a with swapped := k :: a.swapped, beganAt := s.clock }
  | none => a

/-- What a FIRMWARE_SWAP_DONE adds to the swap: component 2 is swapped stack by stack (R396). -/
def swapStep (a : Activation) (s : State) : Activation :=
  if a.component = 2 ∧ issueHeld s = false then swapStack a s else a

/-- FIRMWARE_SWAP_DONE: the fence is met, the swap is made, the measurement changes, held work resumes (R340, R396,
R397, R399). -/
def swapDone (s : State) : State :=
  match s.service.activation.map (fun a => swapStep a s) with
  | none => s
  | some a =>
    if !(fenceMet a s) then { s with service.activation := some a }
    else
      let c := a.component
      let s := toggleSlot c { s with service.activation := none }
      let s := { s with tenant.updates := tblSet 0 s.tenant.updates c (tblGet 0 s.tenant.updates c + 1) }
      let s := swapEffect c s
      let s := logEvent bKPR 0 3 0 0 (swapDetail c (getImage c (activeSlot c s) s).version.toNat) s
      a.fencedQueues.foldl restartQueue s

def execFirmwareSwapDone (s : State) : Host.Outcome State Fault Refusal := act s swapDone

end Sys2Proof.Machine
end

