-- ==== Sys2Proof/Machine/HostPort.lean ====
section
/-! DEFINITION. The CXL host port: reset and link, HDM decoders and windows, CXL.cache, the DOE mailbox (R364 to R374). -/
namespace Sys2Proof.Machine

/-! ### Link and reset (R373, R374) -/

/-- Host lines being read for a request at the target can no longer come: it is answered UNREACHABLE (R24, R374). -/
def dropCacheReads (s : State) : State :=
  let ids := (s.host.cacheReads.map (·.1)).foldl (fun l i => insertNew i l) []
  ids.foldl (fun s i => match findReq i s with
    | some r => finishReq { r with status := stUnreachable } s
    | none => s) { s with host.cacheReads := [] }

/-- The CXL link leaves L0. -/
def linkDown (s : State) : State :=
  if s.host.linkUp then dropCacheReads (setFlag rHstStatus 5 { s with host.linkUp := false }) else s

/-- The host port is reset (R374): link, decoders, MSI-X state and mailbox; results of window accesses under way will be
discarded. -/
def hostPortReset (s : State) : State :=
  let s := linkDown s
  let blank := fun (r : Request) => match r.who with
    | .window _ => { r with hpa := none }
    | .queue _ => r
  { s with host.decoders := [], host.doeBusy := false, req.reqs := s.req.reqs.map blank,
           regs := tblKeep (fun o => !(decide (rHstMsix ≤ o ∧ o < 0x128100))) s.regs }

/-- The stage whose end leaves the host port configured (R401). -/
abbrev stageHost : Nat := 0x08

/-- PERST_ASSERT (R374). -/
def execPerstAssert (s : State) : Host.Outcome State Fault Refusal :=
  act s (fun s => { hostPortReset s with host.perst := true, host.configured := false })

/-- PERST_DEASSERT: the port trains; configuration requests are served once the keeper has configured it (R373). -/
def execPerstDeassert (s : State) : Host.Outcome State Fault Refusal :=
  act s (fun s => { s with host.perst := false,
                           host.configured := decide (stageHost ≤ s.power.stage ∧ s.power.stage ≤ stageReady) })

/-- HOT_RESET (R374). -/
def execHotReset (s : State) : Host.Outcome State Fault Refusal := act s hostPortReset

/-- CXL_LINK_DOWN (R374). -/
def execCxlLinkDown (s : State) : Host.Outcome State Fault Refusal := act s linkDown

/-- CXL_LINK_UP: the link is in L0 (R374); not while PERST_N is asserted. -/
def execCxlLinkUp (s : State) : Host.Outcome State Fault Refusal :=
  act s (fun s => if s.host.perst then s else { s with host.linkUp := true })

/-! ### Windows (R36, R37, R370) -/

/-- A decoder. -/
def getDecoder (w : Nat) (s : State) : Decoder := tblGet decoder0 s.host.decoders w

def putDecoder (w : Nat) (d : Decoder) (s : State) : State :=
  { s with host.decoders := tblSet decoder0 s.host.decoders w d }

/-- R370 refuses the commit of a decoder whose window is enabled. -/
def commitRefused (w : Nat) (base size : Word) (s : State) : Bool :=
  let fa := winBase w s
  getBit (rHstWin w) 63 s &&
    (decide (size.toNat % 2 ^ 30 ≠ 0 ∨ 2 ^ 40 < size.toNat ∨ base.toNat % 2 ^ 30 ≠ 0) ||
      decide (fa / 2 ^ 48 ≠ (fa + size.toNat - 1) / 2 ^ 48))

/-- HDM_DECODER_COMMIT (R37, R370). A decoder committed already stays as it is. -/
def execHdmDecoderCommit (w : Fin 4) (base size : Word) (s : State) : Host.Outcome State Fault Refusal :=
  act s (fun s =>
    if !s.host.configured || (getDecoder w.val s).committed then s
    else if commitRefused w.val base size s then
      refuse bHST rHstStatus 1 (putDecoder w.val ⟨base, size, false, true⟩ s)
    else putDecoder w.val ⟨base, size, true, false⟩ s)

/-- A write to HST_WIN: ignored while its decoder is committed (R370). -/
def writeHstWin (w : Nat) (v : Word) (s : State) : State :=
  if (getDecoder w s).committed then refuse bHST rHstStatus 1 s else putReg (rHstWin w) (written (rHstWin w) v s) s

/-- HST_WIN_WRITE (R370). -/
def execHstWinWrite (side : Side) (w : Fin 4) (val : Word) (s : State) : Host.Outcome State Fault Refusal :=
  act s (fun s => guarded side bHST false .ept s (writeHstWin w.val val))

/-! ### CXL.cache (R365) -/

/-- Puts 64 bytes of a host line into what a load has read of a fabric line. -/
def gotHostLine (a : Nat) (bs : List Byte) (got : List (Nat × List Byte)) : List (Nat × List Byte) :=
  let l := lineOf a
  let old := match got.find? (fun g => decide (g.1 = l)) with
    | some g => g.2
    | none => List.replicate 256 0
  let o := a % 256
  got.filter (fun g => decide (g.1 ≠ l)) ++ [(l, old.take o ++ bs ++ old.drop (o + 64))]

/-- CXL_CACHE_COMPLETION: the data of the oldest host line being read (R365). -/
def execCxlCacheCompletion (data : BitVec 512) (s : State) : Host.Outcome State Fault Refusal :=
  act s (fun s =>
    match s.host.cacheReads with
    | [] => s
    | (id, a) :: t =>
      let s := { s with host.cacheReads := t }
      match findReq id s with
      | some r => lineDone { r with got := gotHostLine (apertureBase + a) (bytesOfNat 64 data.toNat) r.got } s
      | none => s)

/-- SNOOP: RspIHitI, whatever the line: the part keeps none (R365). -/
def execSnoop (addr : Word) (s : State) : Host.Outcome State Fault Refusal :=
  act s (fun s => if s.host.linkUp then answer .host 0 stOk (bytesOfNat 8 (addr.toNat / 64 * 64)) s else s)

/-! ### The DOE mailbox (R368) -/

/-- The protocols of R368, by their index in DOE Discovery: vendor ID and type. -/
def doeProtocol (i : Nat) : Option (Nat × Nat) :=
  if i = 0 then some (0x0001, 0)
  else if i = 1 then some (0x1E98, 2)
  else if i = 2 then some (Config.vendorId.toNat, 1)
  else if i = 3 then some (Config.vendorId.toNat, 2)
  else none

/-- DOE_DISCOVERY: vendor ID, type and next index (R368); past the last protocol, vendor ID 0xFFFF. -/
def execDoeDiscovery (index : Byte) (s : State) : Host.Outcome State Fault Refusal :=
  act s (fun s =>
    if !(doeUp s) then s
    else match doeProtocol index.toNat with
      | some (v, t) =>
        answer .doe 0 stOk (bytesOfNat 2 v ++ bytesOfNat 1 t ++ bytesOfNat 1 ((index.toNat + 1) % 4)) s
      | none => answer .doe 0 stOk (bytesOfNat 2 0xFFFF ++ bytesOfNat 2 0) s)

/-- The windows committed. -/
def committedWindows (s : State) : List Nat := (List.range 4).filter (fun w => (getDecoder w s).committed)

/-- What the DSMAS entry of a window reports: the window, its base and size, 900 ns, 256 GB/s (R368). -/
def dsmasEntry (w : Nat) (s : State) : List Byte :=
  let d := getDecoder w s
  bytesOfNat 1 w ++ bytesOfNat 8 d.base.toNat ++ bytesOfNat 8 d.size.toNat ++ bytesOfNat 2 900 ++ bytesOfNat 2 256

/-- CDAT_TABLE_ACCESS: one entry per committed window (R368). -/
def execCdatTableAccess (handle : BitVec 16) (s : State) : Host.Outcome State Fault Refusal :=
  act s (fun s =>
    if !(doeUp s) then s
    else match (committedWindows s)[handle.toNat]? with
      | some w => answer .doe 0 stOk (dsmasEntry w s) s
      | none => answer .doe 0 stMalformed [] s)

/-- IDE_KM: a sealed message of a session in the DOE (R368). What its body does to the link's keys, and the answer's
body, the spec does not give: the body is a free value. -/
def execIdeKm (env : Envelope) (body : List Byte) (s : State) : Host.Outcome State Fault Refusal :=
  act s (sealedMessage env (fun tr s =>
    let (v, s) := takeFree s
    if tr = .doe ∧ body ≠ [] then keyAnswer .doe stOk (bytesOfNat 8 v.toNat) s
    else keyAnswer tr stMalformed [] s))

/-- DOE_ABORT: the answer in the mailbox is dropped (R368). -/
def execDoeAbort (s : State) : Host.Outcome State Fault Refusal :=
  act s (fun s => { s with host.doeBusy := false })

end Sys2Proof.Machine
end

