-- ==== Sys2Proof/Machine/Power.lean ====
section
/-! DEFINITION. Power, temperature and bring-up (R233, R254, R328, R335, R385, R392 to R394, R400 to R406, R410,
R413). -/
namespace Sys2Proof.Machine

/-! ### The 48 V input (R394, R400, R410) -/

/-- The state of an event of the input, which also reaches a part without power. -/
def inputEvent (s : State) (f : State → State) : Host.Outcome State Fault Refusal := .next (f s)

/-- POWER_APPLIED: the input first reaches 42 V (R400). -/
def execPowerApplied (s : State) : Host.Outcome State Fault Refusal :=
  inputEvent s (fun s => if s.power.supply = .off then { s with power.supply := .standby s.clock } else s)

/-- The input has stood in range for 100 ms (R394, R410). -/
def inputStood (s : State) : Bool :=
  match s.power.supply with
  | .standby t => due (t + 100000000) s
  | .above t => due (t + 100000000) s
  | _ => false

/-- INPUT_QUALIFIED: the keeper leaves reset, a PWR reset (R388, R394, R400). -/
def execInputQualified (s : State) : Host.Outcome State Fault Refusal :=
  inputEvent s (fun s => if inputStood s then pwrReset { s with power.supply := .qualified } else s)

/-- Power is removed from every domain. -/
def powerOff (s : State) : State := { s with powered := false }

/-- BROWNOUT: below 40 V for 5 µs (R394, R400). -/
def execBrownout (s : State) : Host.Outcome State Fault Refusal :=
  inputEvent s (fun s =>
    if s.power.supply = .off then s
    else
      let s := if s.powered then logEvent bKPR 0 11 0 0 0 s else s
      powerOff { s with power.supply := .off, power.tripped := false })

/-- OVERVOLTAGE: above 62 V for 5 µs, handled as a brownout (R410). -/
def execOvervoltage (s : State) : Host.Outcome State Fault Refusal :=
  inputEvent s (fun s =>
    if s.power.supply = .off then s
    else
      let s := if s.powered then logEvent bKPR 0 11 0 0 0 s else s
      powerOff { s with power.supply := .above s.clock })

/-- PWR_WARN_ASSERT: a qualifying assertion holds the porters' and the array's work (R393, R405, R413). -/
def execPwrWarnAssert (s : State) : Host.Outcome State Fault Refusal :=
  act s (fun s =>
    if s.power.warn then s
    else logEvent bKPR 0 10 0 0 0 (setFlag rKprAttn attnWarn { s with power.warn := true }))

/-- PWR_WARN_DEASSERT: the pin has been high for 100 µs; held work resumes (R393, R413). -/
def execPwrWarnDeassert (s : State) : Host.Outcome State Fault Refusal :=
  act s (fun s => { s with power.warn := false })

/-! ### Temperature (R233, R392) -/

/-- A sample of the hottest junction. -/
def takeTemp (t : Nat) (s : State) : State :=
  let hot := decide (95 ≤ t)
  let cool := decide (t < 90)
  let began := (hot && !s.power.aboveHot) || (cool && !s.power.belowCool)
  let s := putGauge 0x1960008 t { s with
    power.temp := t, power.aboveHot := hot, power.belowCool := cool,
    power.stepAt := if began then s.clock else s.power.stepAt,
    power.thermHold := decide (105 ≤ t) || (s.power.thermHold && decide (100 ≤ t)) }
  if 110 ≤ t then powerOff (logEvent bKPR 0 9 0 0 (BitVec.ofNat 128 t) { s with power.tripped := true }) else s

/-- THERMAL_SAMPLE (R392). -/
def execThermalSample (temp : BitVec 8) (s : State) : Host.Outcome State Fault Refusal := act s (takeTemp temp.toNat)

/-- CLOCK_STEP changes, which is counted (R425). -/
def putStep (n : Nat) (s : State) : State :=
  bump 0x1960010 1 { s with power.clockStep := n, power.stepAt := s.clock }

/-- CLOCK_STEP_UP: one step every 1 ms at or above 95 °C, up to 7; leaving 0 asserts THERM_ALERT_N (R392). -/
def execClockStepUp (s : State) : Host.Outcome State Fault Refusal :=
  act s (fun s =>
    if s.power.aboveHot && decide (s.power.clockStep < 7) && due (s.power.stepAt + 1000000) s then
      let first := decide (s.power.clockStep = 0)
      let s := putStep (s.power.clockStep + 1) s
      if first then logEvent bKPR 0 9 0 0 (BitVec.ofNat 128 s.power.temp) (setFlag rKprAttn attnThermal s) else s
    else s)

/-- CLOCK_STEP_DOWN: one step every 10 ms below 90 °C, down to 0 (R392). -/
def execClockStepDown (s : State) : Host.Outcome State Fault Refusal :=
  act s (fun s =>
    if s.power.belowCool && decide (0 < s.power.clockStep) && due (s.power.stepAt + 10000000) s then
      putStep (s.power.clockStep - 1) s
    else s)

/-- THERM_ALERT_N is asserted (R379, R392). -/
def thermAlert (s : State) : Bool := decide (0 < s.power.clockStep)

/-! ### Bring-up (R400 to R406) -/

/-- One register takes the image's values in its fields marked img: zero where the image lists none (R8, R16). -/
def loadReg (s : State) (o : Nat) : State :=
  match regDesc o with
  | some d => putReg o ((getReg o s &&& ~~~(imgMask d)) ||| (tblGet 0 s.img.regs o &&& imgMask d)) s
  | none => s

/-- The values marked img are loaded into every register (R401, R406). -/
def loadImage (s : State) : State := (s.regs.map (·.1) ++ s.img.regs.map (·.1)).foldl loadReg s

/-- The image read in bring-up gives DET_STRICT its value (R8, R197, R406). -/
def loadStrict (s : State) : State := putReg rKprMode (placeBit 0 s.img.detStrict) s

/-- Retired pages are UNUSABLE (R335, R351). -/
def applyRetired (s : State) : State :=
  s.memory.retired.foldl (fun s p => putPage p pgUnusable false 0 0 s) s

/-- What the end of a bring-up stage brings, by the stage code then shown (R401). -/
def stageEffect (n : Nat) (s : State) : State :=
  if n = 0x02 then { s with tenant.identity := true, tenant.akDigest := (getImage 0 (activeSlot 0 s) s).digest }
  else if n = 0x03 then loadStrict { s with img := bootImage s }
  else if n = 0x05 then { s with timeBase := 0, timeFrac := 0 }
  else if n = 0x08 then
    let up := fun (s : State) (k : Nat) =>
      let v := getStack k s
      if v.st = .training ∧ s.power.failedComps.contains 2 = false then putStack k { v with st := .online, trainTemp := v.temp } s else s
    leaveReset .ept ((List.range 6).foldl up { s with host.configured := !s.host.perst })
  else if n = 0x0A then
    writeLibrary (getImage 7 (activeSlot 7 s) s).library (applyRetired (clearRegion 0 tagEnd s))
  else if n = 0x0C then (List.range 36).foldl (fun s p => trainEnabled p s) (leaveReset .ary (loadImage s))
  else s

/-- Bring-up goes on to the next stage. -/
def nextStage (s : State) : State :=
  let n := s.power.stage + 1
  { stageEffect n s with power.stage := n }

/-- A stage fails and the part goes out of service; READY still rises (R403). -/
def stageFails (s : State) : State :=
  let n := s.power.stage + 1
  let s := goOutOfService 0 { s with power.failStage := if s.power.failStage = 0 then n else s.power.failStage }
  nextStage s

/-- The stage in which a component's image is verified (R401, R402). -/
def verifyStage (c : Nat) : Nat := if c = 0 then 0x01 else if c = 6 then 0x02 else 0x05

/-- A slot fails its checks: the component boots from the other, which is recorded as active (R402). -/
def otherSlot (c : Nat) (s : State) : State :=
  let v := getImage c (activeSlot c s) s
  toggleSlot c (logEvent bKPR 0 4 stIntegrity 0 (swapDetail c v.version.toNat) s)

/-- The configuration image verified in stage 0x02 names a minimum VERSION above the keeper's: the keeper restarts from its
other slot (R402). -/
def verified (s : State) : State :=
  if s.power.stage = 0x02 ∧
      (getImage 0 (activeSlot 0 s) s).version.toNat < tblGet 0 (bootImage s).minVersions 0 then
    { toggleSlot 0 s with power.stage := 0x01 }
  else nextStage s

/-- A stage of bring-up under way ends (R401 to R403). A result that does not belong to the stage does nothing. -/
def stageDone (result : StageResult) (s : State) : State :=
  let n := s.power.stage
  match result with
  | .done => verified s
  | .slotFails c => if verifyStage c.val = n then verified (otherSlot c.val s) else s
  | .bothSlotsFail c =>
    if verifyStage c.val ≠ n then s
    else if n = 0x01 then { s with power.stage := stageRecovery }
    else if n = 0x02 then { s with power.stage := stageNoConfig }
    else stageFails { s with power.failedComps := c.val :: s.power.failedComps }
  | .sramFail => if n = 0x06 then stageFails s else s
  | .stackFail k => if n = 0x07 then stageFails (putStack k.val { getStack k.val s with st := .failed } s) else s
  | .pageFail p => if n = 0x08 then retirePage (lineStack (p.val * 4194304)) p.val s else s
  | .regionFail => if n = 0x08 then stageFails s else s
  | .cellFail => if n = 0x0A then stageFails s else s

/-- The memory test, the region clear and the array self-test are held while PWR_WARN_N or a thermal hold lasts
(R405). -/
def stageHeld (s : State) : Bool := issueHeld s && decide (0x08 ≤ s.power.stage ∧ s.power.stage ≤ 0x0A)

/-- BRINGUP_STAGE_DONE (R400 to R405). -/
def execBringupStageDone (result : StageResult) (s : State) : Host.Outcome State Fault Refusal :=
  act s (fun s =>
    if decide (s.power.stage < stageReady) && keeperRuns s && !(stageHeld s) then stageDone result s else s)

end Sys2Proof.Machine
end

