-- ==== Sys2Proof/Machine/RegMap.lean ====
section
/-! DEFINITION. The register map: what a write to any BAR0 offset does, what a read of one returns, and the rows
REGISTER_WRITE, REG_READ and REG_WRITE (R6, R8, R376, R377, R381, R433 to R439). -/
namespace Sys2Proof.Machine

/-! ### Reads (R436, R438) -/

/-- Bit `i` of a word for every `i` below `n` that passes a test. -/
def bitMap (n : Nat) (p : Nat → Bool) : Word :=
  BitVec.ofNat 64 ((List.range n).foldl (fun a i => a + (if p i then 2 ^ i else 0)) 0)

/-- KPR_STATUS (R404). -/
def kprStatusWord (s : State) : Word :=
  placeBit 63 (isReady s) ||| placeBit 62 s.power.oos ||| place 55 48 s.power.stage |||
    place 47 40 s.power.failStage ||| place 31 24 (184 - s.memory.retired.length)

/-- KPR_ESC (R390). -/
def kprEscWord (s : State) : Word :=
  let stk := (List.range 6).foldl (fun n k => max n (resetCount (.stk k) s)) 0
  place 63 60 (min 4 (resetCount .ary s)) ||| place 59 56 (min 4 (resetCount .ept s)) |||
    place 55 52 (min 4 (resetCount .kpr s)) ||| place 51 48 (min 4 stk) ||| place 39 32 s.power.oosCause ||| place 31 0 s.service.totalResets

/-- KPR_SLOTS (R395 to R397). -/
def kprSlotsWord (s : State) : Word :=
  let staged := bitMap 8 (fun c => (getImage c (idleSlot c s) s).verified)
  let swaps := bitMap 8 (fun c => swapping c s)
  place 23 16 swaps.toNat ||| place 15 8 staged.toNat ||| place 7 0 s.service.activeB.toNat

/-- What the KPR block shows beyond stored fields. -/
def kprLive (o : Nat) (s : State) : Word :=
  if o = rKprStatus then kprStatusWord s
  else if o = rKprPartId then place 23 16 0x36 ||| place 15 8 0x41 ||| place 7 0 2
  else if o = rKprPcap then pcapWord s
  else if o = rKprEsc then kprEscWord s
  else if o = rKprSlots then kprSlotsWord s
  else if o = rKprLogHead then place 63 32 s.service.logTotal ||| place 7 0 s.service.logNext
  else if rKprLog ≤ o then
    BitVec.ofNat 64 ((tblGet 0 s.service.log ((o - rKprLog) / 32)).toNat / 2 ^ (8 * (o % 32)))
  else 0

/-- The code of a slot's state (R346). -/
def SlotState.code : SlotState → Nat
  | .empty => 0
  | .bound => 1
  | .keyed => 2
  | .active => 3
  | .fenced => 4
  | .clearing => 5

/-- SEC_SLOT's fields but HOST (R346 to R349). -/
def slotWord (n : Nat) (s : State) : Word :=
  let k := getSlot n s
  place 63 61 (SlotState.code k.st) ||| place 58 57 k.rotation ||| place 55 48 k.partition.toNat |||
    place 47 40 k.generation.toNat ||| place 39 8 k.epoch.toNat ||| place 7 0 (ownedPages n s).length

/-- What the SEC block shows beyond stored fields. -/
def secLive (o : Nat) (s : State) : Word :=
  if o = rSecStatus then
    placeBit 63 (isEnrolled s) ||| place 58 56 (s.tenant.sessions.filter (fun e => e.2.isSome)).length
  else if o = rSecCmdStatus then placeBit 63 (s.tenant.run.isSome || s.tenant.heldCmd.isSome)
  else if o = rSecDeviceId then deviceId
  else if rSecSlot 0 ≤ o then slotWord ((o - rSecSlot 0) / 8) s
  else 0

/-- What the TIM block shows beyond stored fields (R421, R422). -/
def timLive (o : Nat) (s : State) : Word :=
  if o = rTimNow then now s
  else if o = rTimStatus then
    placeBit 63 s.time.locked ||| placeBit 62 s.time.holdover ||| placeBit 61 s.time.measuring
  else 0

/-- The 96 bytes of one congestion map in the read area (R289). -/
def cmapBytes (m : Cmap) : List Byte :=
  (m.bins.map (fun n => bytesOfNat 4 n)).flatten ++ bytesOfNat 8 m.marks ++ bytesOfNat 8 m.samples ++
    bytesOfNat 4 m.peak ++ bytesOfNat 12 0

/-- Eight bytes of the read area of R289: eight maps of 96 B for each output's 1,024. -/
def cmapWord (o : Nat) (s : State) : Word :=
  let r := o - rSwcCmap 0
  let i := r % 0x400
  if 768 ≤ i then 0
  else BitVec.ofNat 64 (natOfBytes
    (((cmapBytes (tblGet cmap0 s.sw.cmapRead (8 * (r / 0x400) + i / 96))).drop (i % 96)).take 8))

/-- What the RTE block shows beyond stored fields (R283, R287). -/
def rteLive (o : Nat) (s : State) : Word :=
  if o = rRteStatus then place 63 40 (inFlight s) ||| place 39 16 (waitingFrames s)
  else if rRteLocal 0 ≤ o ∧ o < rRteLocal 16 then placeBit 62 (inService ((o - rRteLocal 0) / 8) s)
  else 0

/-- What a PRT block shows beyond stored fields (R305, R314). -/
def prtLive (o : Nat) (s : State) : Word :=
  let k := linkOf ((o - 0x1000000) / 0x10000) s
  let r := (o - 0x1000000) % 0x10000
  if r = 0x10 then
    place 63 60 (PortState.code k.st) ||| place 59 56 k.width ||| place 55 48 k.laneOk.toNat |||
      placeBit 47 k.rate160 ||| placeBit 46 k.partnerEp ||| place 43 32 k.partnerPart.toNat |||
      place 29 24 k.partnerPort.toNat
  else if 0x30 ≤ r then placeBit 63 (k.sync.getLsbD ((r - 0x30) / 8))
  else 0

/-- What the EPT block shows beyond stored fields (R44, R142). OPEN_FAULTS leaves out the WITHDRAWN faults of a MIGRATE,
which are never posted (R54; log entry 71). -/
def eptLive (o : Nat) (s : State) : Word :=
  if o = rXltStatus then place 47 32 (s.xlt.faults.filter (fun f => !f.silent)).length
  else if o = rLedgerStatus then
    place 63 48 s.tgt.streams.length ||| place 47 31 (resultsHeld s) ||| placeBit 7 s.tgt.quarantineEnd.isSome
  else 0

/-- POR_QPROG.BYTES_DONE: what the descriptor at the consumer count has landed (R86). -/
def bytesDone (k : Queue) : Nat :=
  match k.fetched.find? (fun d => decide (d.index = k.consumer)) with
  | some d => d.landed
  | none => 0

/-- The queues assigned to a porter (R88). -/
def porterQueues (i : Nat) (s : State) : List Queue :=
  (s.queues.map (·.2)).filter (fun k => decide (k.porter = some i))

/-- What the POR block shows beyond stored fields (R62, R88). -/
def porLive (o : Nat) (s : State) : Word :=
  if o < rQueue 0 then
    let l := porterQueues ((o - rEngStatus 0) / 0x10000) s
    placeBit 63 (l.any (fun k => decide (k.st = .running))) ||| place 57 48 l.length
  else
    let k := getQ ((o - rQueue 0) / 0x40) s
    let r := o % 0x40
    if r = 0x18 then place 63 61 (QState.code k.st) ||| place 31 0 k.cmplCount.toNat
    else if r = 0x20 then place 63 32 k.producer.toNat ||| place 31 0 k.consumer.toNat
    else if r = 0x28 then place 39 0 (bytesDone k)
    else 0

/-- What the CVN block shows beyond stored fields (R162, R177). -/
def cvnLive (o : Nat) (s : State) : Word :=
  if o = rCvnStatus then
    place 55 48 (s.caravan.colls.filter (fun c => c.admitted.isSome)).length ||| place 47 32 (roomsFree s)
  else if rRoomQuota 0 ≤ o ∧ o < rRoomQuota 64 then place 44 32 (roomsUsed ((o - rRoomQuota 0) / 8 + 1) s)
  else 0

/-- The route identifier of a plane. -/
def planeRoute (p : Plane) : Nat := if p.loaded then p.routeId else 0

/-- What the ARY block shows (R234, R236). -/
def aryLive (o : Nat) (s : State) : Word :=
  if o = rAryStatus then
    place 63 61 s.power.clockStep ||| placeBit 60 (arrayHeld s) ||| place 59 58 s.array.shadow |||
      placeBit 57 s.array.activeB ||| placeBit 56 s.array.current.isSome ||| place 55 48 (min 255 s.array.batch)
  else if o = rAryPlanes then
    let active := if s.array.activeB then s.array.planeB else s.array.planeA
    let shadow := if s.array.activeB then s.array.planeA else s.array.planeB
    place 63 32 (planeRoute active) ||| place 31 0 (if s.array.shadow = 2 then planeRoute shadow else 0)
  else 0

/-- The code of a stack's state. -/
def StackMode.code : StackMode → Nat
  | .training => 0
  | .online => 1
  | .fenced => 2
  | .failed => 3

/-- What the MEM block shows beyond stored fields (R329, R333, R335). -/
def memLive (o : Nat) (s : State) : Word :=
  if o < rMemClearCmd then
    if o % 0x10000 = 0 then
      let v := getStack ((o - rMem 0) / 0x10000) s
      place 63 56 v.temp ||| place 55 54 (StackMode.code v.st) ||| place 47 40 v.trainTemp
    else 0
  else if o = rMemClearStatus then
    placeBit 63 (!s.memory.regClear.isEmpty) ||| place 47 40 s.memory.regClear.length
  else if rMemRetired 0 ≤ o then
    bitMap 64 (fun i => s.memory.retired.contains (8 * (o - rMemRetired 0) + i))
  else 0

/-- What the CNT block shows: counters, and their copies taken by the last LATCH (R425 to R427). -/
def cntLive (o : Nat) (s : State) : Word :=
  if 0x1980000 ≤ o then BitVec.ofNat 64 (tblGet 0 s.latched (o - 0x80000))
  else if isProfSel o ∨ o = rCntCtl then 0
  else BitVec.ofNat 64 (counterValue o s)

/-- What the DBG block shows beyond stored fields (R203). -/
def dbgLive (o : Nat) (s : State) : Word :=
  if o = rRopeStatus then
    place 63 32 s.rope.compared ||| placeBit 4 s.rope.paired ||| placeBit 3 s.rope.held |||
      placeBit 2 s.rope.recordValid
  else if rRopeRecord ≤ o then BitVec.ofNat 64 (natOfBytes ((s.rope.record.drop (o - rRopeRecord)).take 8))
  else 0

/-- The computed fields of a decoded register. -/
def liveWord (o : Nat) (s : State) : Word :=
  if o < 0x3000 then kprLive o s
  else if o < 0x200000 then 0
  else if o < 0x300000 then secLive o s
  else if o < 0x400000 then timLive o s
  else if o < rSwcCmap 0 then 0
  else if o < 0x500000 then cmapWord o s
  else if o < 0x1000000 then rteLive o s
  else if o < 0x1400000 then prtLive o s
  else if o < 0x1500000 then eptLive o s
  else if o < 0x1600000 then porLive o s
  else if o < 0x1700000 then cvnLive o s
  else if o < 0x1800000 then aryLive o s
  else if o < 0x1900000 then memLive o s
  else if o < 0x1A00000 then cntLive o s
  else dbgLive o s

/-- The stored fields a read shows: while the register's domain is in reset, the values that the reset gives (R438). -/
def storedWord (o : Nat) (d : RegDesc) (s : State) : Word := if inReset d.dom s then resetWord o d s else getReg o s

/-- What a read of an offset returns; an undecoded one reads zero (R436). The CXL component registers' contents are
not stated, a free value. -/
def readReg (o : Nat) (s : State) : Word × State :=
  match regDesc o with
  | none => (0, s)
  | some d =>
    if 0x100000 ≤ o ∧ o < 0x110000 then takeFree s
    else (storedWord o d s ||| liveWord o s, s)

/-- A 32-bit read returns the addressed half of the register (R435). -/
def readHalf (o : Nat) (s : State) : BitVec 32 × State :=
  let (v, s) := readReg (o / 8 * 8) s
  (BitVec.ofNat 32 (if o % 8 = 4 then wfield v 63 32 else wfield v 31 0), s)

/-! ### Writes -/

/-- A write to a logging register: clearing VALID clears the whole log (R322, R371). A clear that meets a new event in
its cycle leaves VALID at 1 and the new event logged, whose fields are a free value here (R439). -/
def writeErrLog (a b : Nat) (hi lo : Nat) (v collide : Word) (s : State) : State :=
  if !(wbit v 63) || !(getBit a 63 s) then s
  else if wbit collide 63 then
    let (x, s) := takeFree s
    let (y, s) := takeFree s
    putReg b (y &&& maskOf hi lo) (putReg a (placeBit 63 true ||| (x &&& fieldMask (fun f => decide (f.acc = .ro)) (regFields a) &&&
      ~~~(placeBit 61 true))) s)
  else putReg b 0 (putReg a 0 s)

/-- As `writeErrLog`, for the host port's log: its overflow bit is bit 62. -/
def writeHostLog (v collide : Word) (s : State) : State :=
  if !(wbit v 63) || !(getBit rHstErrA 63 s) then s
  else if wbit collide 63 then
    let (x, s) := takeFree s
    let (y, s) := takeFree s
    putReg rHstErrB y (putReg rHstErrA (placeBit 63 true ||| (x &&&
      fieldMask (fun f => decide (f.acc = .ro)) (regFields rHstErrA) &&& ~~~(placeBit 62 true))) s)
  else putReg rHstErrB 0 (putReg rHstErrA 0 s)

/-- A write to PRT_CTL (R305, R313, R314). -/
def writePortCtl (p : Nat) (v : Word) (s : State) : State :=
  match wfield v 2 0 with
  | 1 => portRetrain p s
  | 2 => enterDown p true s
  | 3 => clearTestCounts p s
  | _ => portRefuse p s

/-- A write inside a port's window. -/
def writePort (o : Nat) (v : Word) (s : State) : State :=
  let p := (o - 0x1000000) / 0x10000
  let r := (o - 0x1000000) % 0x10000
  if r = 0 then writePortCfg p v s
  else if r = 0x08 then writePortCtl p v s
  else if r = 0x20 then writePortTest p v s
  else plainWrite o v s

/-- The queue a number names. -/
def queueNo (n : Nat) : Fin 512 := ⟨n % 512, Nat.mod_lt n (by decide)⟩

/-- A write inside the registers of a queue (R59). -/
def writeQueueReg (o : Nat) (v : Word) (s : State) : State :=
  let q := (o - rQueue 0) / 0x40
  let r := o % 0x40
  if r = 0 then writeQcfg q v s
  else if r = 0x08 ∨ r = 0x10 ∨ r = 0x38 then writeQreg q o v s
  else if r = 0x30 then writeQctl (queueNo q) v s
  else plainWrite o v s

/-- A write inside the MEM block. -/
def writeMemReg (o : Nat) (v collide : Word) (s : State) : State :=
  let k := (o - rMem 0) / 0x10000
  let r := o % 0x10000
  if o = rMemClearCmd then writeMemClear v s
  else if rMemClearCmd ≤ o then plainWrite o v s
  else if r = 8 then writeErrLog (rMemErrA k) (rMemErrB k) 47 4 v collide s
  else if r = 0x20 then (if wbit v 0 then wantRetrain k s else s)
  else if r = 0x28 then writeMemInject k v s
  else plainWrite o v s

/-- A write inside the CNT block. -/
def writeCntReg (o : Nat) (v : Word) (s : State) : State :=
  if o = rCntCtl then writeCntCtl v s
  else if isProfSel o then writeProfSel ((o - rProfSel 0 0) / 0x400) ((o - rProfSel 0 0) % 0x400 / 8) v s
  else plainWrite o v s

/-- A write inside the DBG block. -/
def writeDbgReg (o : Nat) (v : Word) (s : State) : State :=
  if o = rCairnReq then (if wbit v 0 then captureRequest s else s)
  else if o = rRopeCfg then writeRopeCfg v s
  else if o = rRopeCtl then writeRopeCtl v s
  else plainWrite o v s

/-- The effect of a write that passed the first three checks of R437, by the rules of the register's own chapter, else
by its fields' access types. A bit kept by the set-wins rule is not cleared (R439). -/
def regEffect (o : Nat) (val collide : Word) (s : State) : State :=
  let v := val &&& ~~~(keptBits o val collide s)
  let s := countKept o val collide s
  if o = rKprMode then writeMode v s
  else if o = rKprReset then writeReset v s
  else if o = rKprPrtRetired then writeRetired val collide s
  else if o < 0x100000 then plainWrite o v s
  else if o < 0x110000 then s
  else if o = rHstErrA then writeHostLog val collide s
  else if 0x110100 ≤ o ∧ o < 0x110140 then writeHstWin ((o - 0x110100) / 16) v s
  else if o < 0x200000 then plainWrite o v s
  else if o = rSecCmd then writeSecCmd v s
  else if o = rTimCfg then writeTimCfg v s
  else if o = rTimCtl then writeTimCtl v s
  else if o = rSwcCmapCtl then writeCmapCtl v s
  else if rSwcClassCfg 0 ≤ o ∧ o < rSwcClassCfg 8 then writeClassCfg ((o - rSwcClassCfg 0) / 8) v s
  else if rSwcRed 0 ≤ o ∧ o < rSwcRed 3 then writeRed ((o - rSwcRed 0) / 8) v s
  else if rSwcMeter 0 ≤ o ∧ o < rSwcMeter 128 then
    writeMeter ((o - rSwcMeter 0) / 16) (decide (o % 16 = 8)) v s
  else if rRteEntry 0 ≤ o ∧ o < rRteEntry 4096 then writeEntry ((o - rRteEntry 0) / 8) v s
  else if o < 0x1000000 then plainWrite o v s
  else if o < 0x1400000 then writePort o v s
  else if o = rFaultRing then writeFaultRing v s
  else if o = rSettleRing then writeSettleRing v s
  else if o = rResume then writeResume v s
  else if o < rQueue 0 then plainWrite o v s
  else if o < 0x1600000 then writeQueueReg o v s
  else if rRoomQuota 0 ≤ o ∧ o < rRoomQuota 64 then writeQuota ((o - rRoomQuota 0) / 8) v s
  else if rGroup 0 ≤ o ∧ o < rGroup 256 then writeGroup ((o - rGroup 0) / 0x20) (o % 0x20 / 8) v s
  else if o < 0x1800000 then plainWrite o v s
  else if o < 0x1900000 then writeMemReg o v collide s
  else if o < 0x1A00000 then writeCntReg o v s
  else writeDbgReg o v s

/-- The reset registers, the power cap registers and the cairn snapshot control always belong to the side band
(R380). -/
def alwaysSideband (o : Nat) : Bool := decide (o = rKprReset ∨ o = rKprPcap ∨ o = rCairnCtl)

/-- One 64-bit write to a decoded offset from a side. -/
def regWriteFrom (side : Side) (o : Nat) (d : RegDesc) (val collide : Word) (s : State) : State :=
  guarded side d.blk (alwaysSideband o) d.dom s (regEffect o val collide)

/-! ### REGISTER_WRITE (R6, R433 to R439) -/

/-- An access that R435 does not serve, or an undecoded offset: counted for the host, MALFORMED for the side band. -/
def badAccess (side : Side) (s : State) : State :=
  match side with
  | .host => blockEvent bHST s
  | .sideband => answer .sideband 0 stMalformed [] s

/-- A 32-bit write inside the MSI-X table replaces the addressed half (R435). -/
def halfWrite (o : Nat) (val : Word) (s : State) : State :=
  let w := o / 8 * 8
  let hi := decide (o % 8 = 4)
  putReg w (if hi then setField (getReg w s) 63 32 val.toNat else setField (getReg w s) 31 0 val.toNat) s

/-- An offset of the MSI-X table or of the component registers takes 32-bit writes (R435). -/
def takesHalf (o : Nat) : Bool := decide (o % 4 = 0 ∧ (rHstMsix ≤ o ∧ o < rHstPba ∨ 0x100000 ≤ o ∧ o < 0x110000))

/-- One write of a BAR0 register. -/
def registerWrite (side : Side) (o : Nat) (full : Bool) (val collide : Word) (s : State) : State :=
  if full then
    match regDesc o with
    | none => badAccess side s
    | some d => regWriteFrom side o d val collide s
  else if side = .host ∧ takesHalf o then
    guarded side bHST false .ept s (fun s => if rHstMsix ≤ o then halfWrite o val s else s)
  else badAccess side s

/-- REGISTER_WRITE: `collide` are the W1C bits the part sets in the same cycle (R439). -/
def execRegisterWrite (side : Side) (off : BitVec 32) (full : Bool) (val collide : Word) (s : State) :
    Host.Outcome State Fault Refusal :=
  actSettled s (registerWrite side off.toNat full val collide)

/-! ### REG_READ and REG_WRITE (R376, R377) -/

/-- The offsets of `n` words from one on. -/
def wordOffsets (o n : Nat) : List Nat := (List.range n).map (fun i => o + 8 * i)

/-- Every word of a range is aligned and decoded, and their count is 1 to 32 (R377). -/
def rangeGood (o n : Nat) : Bool :=
  decide (1 ≤ n ∧ n ≤ 32) && (wordOffsets o n).all (fun a => (regDesc a).isSome)

/-- Reads words in order. -/
def readRegs : List Nat → State → List Byte × State
  | [], s => ([], s)
  | o :: t, s =>
    let (v, s) := readReg o s
    let (l, s) := readRegs t s
    (bytesOfNat 8 v.toNat ++ l, s)

/-- REG_READ: served whoever owns the block (R377). -/
def execRegRead (inst : Byte) (off : BitVec 32) (count : Byte) (s : State) : Host.Outcome State Fault Refusal :=
  act s (sbVendor inst (fun s =>
    if rangeGood off.toNat count.toNat then
      let (l, s) := readRegs (wordOffsets off.toNat count.toNat) s
      sbAnswer inst stOk l s
    else sbAnswer inst stMalformed [] s))

/-- The side band may write the word at an offset (R380, R381). -/
def sidebandMay (o : Nat) (s : State) : Bool :=
  match regDesc o with
  | some d => alwaysSideband o || sidebandOwns d.blk s
  | none => false

/-- Writes words in order. -/
def writeRegs : List (Nat × Word) → State → State
  | [], s => s
  | (o, v) :: t, s => writeRegs t (match regDesc o with
    | some d => regWriteFrom .sideband o d v 0 s
    | none => s)

/-- REG_WRITE: refused whole where a word is undecoded or not owned; answered before a reset it starts takes effect;
otherwise OK, whatever the block's own conditions say (R377, R437). -/
def regWriteMessage (inst : Byte) (o n : Nat) (words : List Word) (s : State) : State :=
  if rangeGood o n = false ∨ words.length ≠ n then sbAnswer inst stMalformed [] s
  else if (wordOffsets o n).all (fun a => sidebandMay a s) = false then sbAnswer inst stDenied [] s
  else writeRegs ((wordOffsets o n).zip words) (sbAnswer inst stOk [] s)

/-- REG_WRITE (R376, R377, R381, R437). -/
def execRegWrite (inst : Byte) (off : BitVec 32) (count : Byte) (words : List Word) (s : State) :
    Host.Outcome State Fault Refusal :=
  actSettled s (sbVendor inst (regWriteMessage inst off.toNat count.toNat words))

end Sys2Proof.Machine
end

