-- ==== Sys2Proof/Machine/Dispatch.lean ====
section
/-! DEFINITION. The dispatch: one arm per command, each one direct call of its meaning. -/
namespace Sys2Proof.Machine

/-- The effect of a command on everything but the queue of waiting commands. -/
def exec (i : Instr) (s : State) : Host.Outcome State Fault Refusal :=
  match i with
  | .registerWrite side off full val collide => Sys2Proof.Machine.execRegisterWrite side off full val collide s
  | .xltWalk q fva kind ahead => Sys2Proof.Machine.execXltWalk q fva kind ahead s
  | .faultGatherExpiry tag => Sys2Proof.Machine.execFaultGatherExpiry tag s
  | .faultRecordPost => Sys2Proof.Machine.execFaultRecordPost s
  | .pendingFaultCreate => Sys2Proof.Machine.execPendingFaultCreate s
  | .faultRingEnable side val => Sys2Proof.Machine.execFaultRingEnable side val s
  | .retry side tag => Sys2Proof.Machine.execRetry side tag s
  | .abort side tag => Sys2Proof.Machine.execAbort side tag s
  | .settleRingEnable side val => Sys2Proof.Machine.execSettleRingEnable side val s
  | .qcfgWrite side q val => Sys2Proof.Machine.execQcfgWrite side q val s
  | .fence side q => Sys2Proof.Machine.execFence side q s
  | .queueFenced q => Sys2Proof.Machine.execQueueFenced q s
  | .restart side q => Sys2Proof.Machine.execRestart side q s
  | .resetPtrs side q => Sys2Proof.Machine.execResetPtrs side q s
  | .doorbellWrite q full val => Sys2Proof.Machine.execDoorbellWrite q full val s
  | .cmplHeadWrite q full val => Sys2Proof.Machine.execCmplHeadWrite q full val s
  | .memoryDoorbellPoll q => Sys2Proof.Machine.execMemoryDoorbellPoll q s
  | .descriptorFetch q host => Sys2Proof.Machine.execDescriptorFetch q host s
  | .nop q => Sys2Proof.Machine.execNop q s
  | .copy q => Sys2Proof.Machine.execCopy q s
  | .gather q => Sys2Proof.Machine.execGather q s
  | .scatter q => Sys2Proof.Machine.execScatter q s
  | .fill q => Sys2Proof.Machine.execFill q s
  | .signal q => Sys2Proof.Machine.execSignal q s
  | .wait q => Sys2Proof.Machine.execWait q s
  | .waitPoll q => Sys2Proof.Machine.execWaitPoll q s
  | .waitTimeout q => Sys2Proof.Machine.execWaitTimeout q s
  | .prefetch q => Sys2Proof.Machine.execPrefetch q s
  | .migrate q => Sys2Proof.Machine.execMigrate q s
  | .migrateWithdrawDone q => Sys2Proof.Machine.execMigrateWithdrawDone q s
  | .migrateCopyDone q => Sys2Proof.Machine.execMigrateCopyDone q s
  | .advise q => Sys2Proof.Machine.execAdvise q s
  | .rekey q => Sys2Proof.Machine.execRekey q s
  | .unmap q => Sys2Proof.Machine.execUnmap q s
  | .xltInvalDone f => Sys2Proof.Machine.execXltInvalDone f s
  | .unmapComplete q => Sys2Proof.Machine.execUnmapComplete q s
  | .unmapTimeout q => Sys2Proof.Machine.execUnmapTimeout q s
  | .collStart q => Sys2Proof.Machine.execCollStart q s
  | .routeRun q => Sys2Proof.Machine.execRouteRun q s
  | .routePreload q => Sys2Proof.Machine.execRoutePreload q s
  | .descriptorComplete q => Sys2Proof.Machine.execDescriptorComplete q s
  | .requestIssue who => Sys2Proof.Machine.execRequestIssue who s
  | .flaggedStoreRelease who => Sys2Proof.Machine.execFlaggedStoreRelease who s
  | .load port f => Sys2Proof.Machine.execLoad port f s
  | .store port f => Sys2Proof.Machine.execStore port f s
  | .storeFlagged port f => Sys2Proof.Machine.execStoreFlagged port f s
  | .bulkData port f => Sys2Proof.Machine.execBulkData port f s
  | .atomic port f => Sys2Proof.Machine.execAtomic port f s
  | .combineApply line => Sys2Proof.Machine.execCombineApply line s
  | .atomicApply line => Sys2Proof.Machine.execAtomicApply line s
  | .loadRsp f => Sys2Proof.Machine.execLoadRsp f s
  | .storeAck f => Sys2Proof.Machine.execStoreAck f s
  | .bulkAck f => Sys2Proof.Machine.execBulkAck f s
  | .atomicRsp f => Sys2Proof.Machine.execAtomicRsp f s
  | .cxlMemRead hpa => Sys2Proof.Machine.execCxlMemRead hpa s
  | .cxlMemWrite hpa data mask => Sys2Proof.Machine.execCxlMemWrite hpa data mask s
  | .requestRetryTimeout who seq => Sys2Proof.Machine.execRequestRetryTimeout who seq s
  | .requestFinalTimeout who seq => Sys2Proof.Machine.execRequestFinalTimeout who seq s
  | .retryBusyBackoff who seq => Sys2Proof.Machine.execRetryBusyBackoff who seq s
  | .fenceRequestDeadline who seq => Sys2Proof.Machine.execFenceRequestDeadline who seq s
  | .statusQuery f => Sys2Proof.Machine.execStatusQuery f s
  | .statusQueryRetry who seq => Sys2Proof.Machine.execStatusQueryRetry who seq s
  | .statusRsp f => Sys2Proof.Machine.execStatusRsp f s
  | .settlementDeadline who seq => Sys2Proof.Machine.execSettlementDeadline who seq s
  | .settlementRecordPost => Sys2Proof.Machine.execSettlementRecordPost s
  | .ledgerRetentionExpiry src sid => Sys2Proof.Machine.execLedgerRetentionExpiry src sid s
  | .quarantineEnd => Sys2Proof.Machine.execQuarantineEnd s
  | .collectiveStart g => Sys2Proof.Machine.execCollectiveStart g s
  | .collectiveAdmit => Sys2Proof.Machine.execCollectiveAdmit s
  | .admitTimeout g epoch => Sys2Proof.Machine.execAdmitTimeout g epoch s
  | .sendOffer g epoch st => Sys2Proof.Machine.execSendOffer g epoch st s
  | .offer f => Sys2Proof.Machine.execOffer f s
  | .sendInvite g epoch st => Sys2Proof.Machine.execSendInvite g epoch st s
  | .invite f => Sys2Proof.Machine.execInvite f s
  | .collData f => Sys2Proof.Machine.execCollData f s
  | .inviteRepeatTimeout g epoch st input => Sys2Proof.Machine.execInviteRepeatTimeout g epoch st input s
  | .stepResultStaged g epoch st => Sys2Proof.Machine.execStepResultStaged g epoch st s
  | .collResult f => Sys2Proof.Machine.execCollResult f s
  | .chunkReadbackDone g epoch chunk clean => Sys2Proof.Machine.execChunkReadbackDone g epoch chunk clean s
  | .seal f => Sys2Proof.Machine.execSeal f s
  | .sealSignal g epoch chunk => Sys2Proof.Machine.execSealSignal g epoch chunk s
  | .sealWaitTimeout g epoch chunk => Sys2Proof.Machine.execSealWaitTimeout g epoch chunk s
  | .sealRepeatTimeout g epoch chunk eid => Sys2Proof.Machine.execSealRepeatTimeout g epoch chunk eid s
  | .void f => Sys2Proof.Machine.execVoid f s
  | .groupWrite side g word val => Sys2Proof.Machine.execGroupWrite side g word val s
  | .quotaWrite side n val => Sys2Proof.Machine.execQuotaWrite side n val s
  | .modeWrite side val => Sys2Proof.Machine.execModeWrite side val s
  | .ropeCfgWrite side val => Sys2Proof.Machine.execRopeCfgWrite side val s
  | .ropePairForm peer peerConsents => Sys2Proof.Machine.execRopePairForm peer peerConsents s
  | .ropeCrcCompare crc => Sys2Proof.Machine.execRopeCrcCompare crc s
  | .ropeCaptureDone sigs => Sys2Proof.Machine.execRopeCaptureDone sigs s
  | .release side => Sys2Proof.Machine.execRelease side s
  | .rearm side => Sys2Proof.Machine.execRearm side s
  | .roomGrant => Sys2Proof.Machine.execRoomGrant s
  | .roomLoadDone q => Sys2Proof.Machine.execRoomLoadDone q s
  | .runStart => Sys2Proof.Machine.execRunStart s
  | .runEnd => Sys2Proof.Machine.execRunEnd s
  | .roomSaveDone q => Sys2Proof.Machine.execRoomSaveDone q s
  | .runLimitExpiry => Sys2Proof.Machine.execRunLimitExpiry s
  | .shadowLoadStart => Sys2Proof.Machine.execShadowLoadStart s
  | .shadowLoadDone => Sys2Proof.Machine.execShadowLoadDone s
  | .cellNop cell => Sys2Proof.Machine.execCellNop cell s
  | .mov cell => Sys2Proof.Machine.execMov cell s
  | .oplus cell => Sys2Proof.Machine.execOplus cell s
  | .otimes cell => Sys2Proof.Machine.execOtimes cell s
  | .mac cell => Sys2Proof.Machine.execMac cell s
  | .dot cell => Sys2Proof.Machine.execDot cell s
  | .sub cell => Sys2Proof.Machine.execSub cell s
  | .cmpsel cell => Sys2Proof.Machine.execCmpsel cell s
  | .logic cell => Sys2Proof.Machine.execLogic cell s
  | .shift cell => Sys2Proof.Machine.execShift cell s
  | .cmp cell => Sys2Proof.Machine.execCmp cell s
  | .sel cell => Sys2Proof.Machine.execSel cell s
  | .perm cell => Sys2Proof.Machine.execPerm cell s
  | .cvt cell => Sys2Proof.Machine.execCvt cell s
  | .anchor cell => Sys2Proof.Machine.execAnchor cell s
  | .tofix cell => Sys2Proof.Machine.execTofix cell s
  | .fromfix cell => Sys2Proof.Machine.execFromfix cell s
  | .scale cell => Sys2Proof.Machine.execScale cell s
  | .rand cell => Sys2Proof.Machine.execRand cell s
  | .setidx cell => Sys2Proof.Machine.execSetidx cell s
  | .ldi cell => Sys2Proof.Machine.execLdi cell s
  | .hred cell => Sys2Proof.Machine.execHred cell s
  | .instructionResultWrite => Sys2Proof.Machine.execInstructionResultWrite s
  | .frameIngress input f => Sys2Proof.Machine.execFrameIngress input f s
  | .frameDepart output => Sys2Proof.Machine.execFrameDepart output s
  | .frameAgeExpiry pos => Sys2Proof.Machine.execFrameAgeExpiry pos s
  | .bufferAudit => Sys2Proof.Machine.execBufferAudit s
  | .cmapSample => Sys2Proof.Machine.execCmapSample s
  | .snap side => Sys2Proof.Machine.execSnap side s
  | .snapClear side => Sys2Proof.Machine.execSnapClear side s
  | .cmapSnapshotTake => Sys2Proof.Machine.execCmapSnapshotTake s
  | .classCfgWrite side c val => Sys2Proof.Machine.execClassCfgWrite side c val s
  | .meterWrite side n burst val => Sys2Proof.Machine.execMeterWrite side n burst val s
  | .redWrite side k val => Sys2Proof.Machine.execRedWrite side k val s
  | .lock side => Sys2Proof.Machine.execLock side s
  | .routeEntryWrite side p val => Sys2Proof.Machine.execRouteEntryWrite side p val s
  | .drained => Sys2Proof.Machine.execDrained s
  | .flitReceive p ctl slots words => Sys2Proof.Machine.execFlitReceive p ctl slots words s
  | .replayTimeout p => Sys2Proof.Machine.execReplayTimeout p s
  | .signalDetect p lanes => Sys2Proof.Machine.execSignalDetect p lanes s
  | .calibrateDone p => Sys2Proof.Machine.execCalibrateDone p s
  | .alignDone p => Sys2Proof.Machine.execAlignDone p s
  | .fecLockDone p => Sys2Proof.Machine.execFecLockDone p s
  | .deskewDone p blocks => Sys2Proof.Machine.execDeskewDone p blocks s
  | .initRecord p record credits acked => Sys2Proof.Machine.execInitRecord p record credits acked s
  | .trainingTimeout p => Sys2Proof.Machine.execTrainingTimeout p s
  | .laneFail p lane => Sys2Proof.Machine.execLaneFail p lane s
  | .portLost p => Sys2Proof.Machine.execPortLost p s
  | .idleEntry p => Sys2Proof.Machine.execIdleEntry p s
  | .wake p => Sys2Proof.Machine.execWake p s
  | .wakeReceive p => Sys2Proof.Machine.execWakeReceive p s
  | .wakeTimeout p => Sys2Proof.Machine.execWakeTimeout p s
  | .portCfgWrite side p val => Sys2Proof.Machine.execPortCfgWrite side p val s
  | .portRetrain side p => Sys2Proof.Machine.execPortRetrain side p s
  | .down side p => Sys2Proof.Machine.execDown side p s
  | .clearCounts side p => Sys2Proof.Machine.execClearCounts side p s
  | .portTestWrite side p val => Sys2Proof.Machine.execPortTestWrite side p val s
  | .scrubRead k => Sys2Proof.Machine.execScrubRead k s
  | .refresh k => Sys2Proof.Machine.execRefresh k s
  | .stackTempSample k temp => Sys2Proof.Machine.execStackTempSample k temp s
  | .stackRetrainRequest side k => Sys2Proof.Machine.execStackRetrainRequest side k s
  | .stackRetrainDone k => Sys2Proof.Machine.execStackRetrainDone k s
  | .stackRetrainTimeout k => Sys2Proof.Machine.execStackRetrainTimeout k s
  | .memClear side val => Sys2Proof.Machine.execMemClear side val s
  | .clearDone page => Sys2Proof.Machine.execClearDone page s
  | .memInjectWrite side k val => Sys2Proof.Machine.execMemInjectWrite side k val s
  | .getCerts tr => Sys2Proof.Machine.execGetCerts tr s
  | .getReport tr nonce partition => Sys2Proof.Machine.execGetReport tr nonce partition s
  | .keyExchange tr pub nonce => Sys2Proof.Machine.execKeyExchange tr pub nonce s
  | .install env msg => Sys2Proof.Machine.execInstall env msg s
  | .permit env rec => Sys2Proof.Machine.execPermit env rec s
  | .revoke env number mac => Sys2Proof.Machine.execRevoke env number mac s
  | .endSession env => Sys2Proof.Machine.execEndSession env s
  | .sessionTimeout sess => Sys2Proof.Machine.execSessionTimeout sess s
  | .bind side slot partition gen => Sys2Proof.Machine.execBind side slot partition gen s
  | .openSlot side slot => Sys2Proof.Machine.execOpenSlot side slot s
  | .openDigestDone => Sys2Proof.Machine.execOpenDigestDone s
  | .grant side slot first count => Sys2Proof.Machine.execGrant side slot first count s
  | .grantShared side slot first count => Sys2Proof.Machine.execGrantShared side slot first count s
  | .releasePages side slot first count => Sys2Proof.Machine.execReleasePages side slot first count s
  | .stage side slot => Sys2Proof.Machine.execStage side slot s
  | .switch side slot => Sys2Proof.Machine.execSwitch side slot s
  | .rotationAnswer f => Sys2Proof.Machine.execRotationAnswer f s
  | .rotationAnswerTimeout => Sys2Proof.Machine.execRotationAnswerTimeout s
  | .rotationWindowExpiry slot => Sys2Proof.Machine.execRotationWindowExpiry slot s
  | .close side slot => Sys2Proof.Machine.execClose side slot s
  | .closeDrainDone slot => Sys2Proof.Machine.execCloseDrainDone slot s
  | .clearingDone slot => Sys2Proof.Machine.execClearingDone slot s
  | .enrol inst cert => Sys2Proof.Machine.execEnrol inst cert s
  | .perstAssert => Sys2Proof.Machine.execPerstAssert s
  | .perstDeassert => Sys2Proof.Machine.execPerstDeassert s
  | .hotReset => Sys2Proof.Machine.execHotReset s
  | .cxlLinkDown => Sys2Proof.Machine.execCxlLinkDown s
  | .cxlLinkUp => Sys2Proof.Machine.execCxlLinkUp s
  | .hdmDecoderCommit w base size => Sys2Proof.Machine.execHdmDecoderCommit w base size s
  | .hstWinWrite side w val => Sys2Proof.Machine.execHstWinWrite side w val s
  | .cxlCacheCompletion data => Sys2Proof.Machine.execCxlCacheCompletion data s
  | .snoop addr => Sys2Proof.Machine.execSnoop addr s
  | .doeDiscovery index => Sys2Proof.Machine.execDoeDiscovery index s
  | .cdatTableAccess handle => Sys2Proof.Machine.execCdatTableAccess handle s
  | .ideKm env body => Sys2Proof.Machine.execIdeKm env body s
  | .doeAbort => Sys2Proof.Machine.execDoeAbort s
  | .entdaa addr => Sys2Proof.Machine.execEntdaa addr s
  | .setdasa static addr => Sys2Proof.Machine.execSetdasa static addr s
  | .setEndpointId eid => Sys2Proof.Machine.execSetEndpointId eid s
  | .getEndpointId => Sys2Proof.Machine.execGetEndpointId s
  | .getMctpVersionSupport msgType => Sys2Proof.Machine.execGetMctpVersionSupport msgType s
  | .getMessageTypeSupport => Sys2Proof.Machine.execGetMessageTypeSupport s
  | .getVendorDefinedMessageSupport selector => Sys2Proof.Machine.execGetVendorDefinedMessageSupport selector s
  | .regRead inst off count => Sys2Proof.Machine.execRegRead inst off count s
  | .regWrite inst off count words => Sys2Proof.Machine.execRegWrite inst off count words s
  | .ownerGet inst => Sys2Proof.Machine.execOwnerGet inst s
  | .ownerSet inst mask => Sys2Proof.Machine.execOwnerSet inst mask s
  | .capSet inst cap => Sys2Proof.Machine.execCapSet inst cap s
  | .capApplied => Sys2Proof.Machine.execCapApplied s
  | .capGet inst => Sys2Proof.Machine.execCapGet inst s
  | .leaseExpiry => Sys2Proof.Machine.execLeaseExpiry s
  | .snapshot inst => Sys2Proof.Machine.execSnapshot inst s
  | .snapRead inst number off length => Sys2Proof.Machine.execSnapRead inst number off length s
  | .capture side => Sys2Proof.Machine.execCapture side s
  | .cairnDone => Sys2Proof.Machine.execCairnDone s
  | .sensorPoll sensor => Sys2Proof.Machine.execSensorPoll sensor s
  | .sensorUpdate power voltage current => Sys2Proof.Machine.execSensorUpdate power voltage current s
  | .requestFirmwareData comp offset data => Sys2Proof.Machine.execRequestFirmwareData comp offset data s
  | .activateFirmware comp img => Sys2Proof.Machine.execActivateFirmware comp img s
  | .firmwareSwapDone => Sys2Proof.Machine.execFirmwareSwapDone s
  | .pwrReset cause => Sys2Proof.Machine.execPwrReset cause s
  | .kprReset cause => Sys2Proof.Machine.execKprReset cause s
  | .kprResetEnd => Sys2Proof.Machine.execKprResetEnd s
  | .eptReset cause => Sys2Proof.Machine.execEptReset cause s
  | .eptResetEnd => Sys2Proof.Machine.execEptResetEnd s
  | .aryReset cause => Sys2Proof.Machine.execAryReset cause s
  | .aryResetEnd => Sys2Proof.Machine.execAryResetEnd s
  | .prtReset p cause => Sys2Proof.Machine.execPrtReset p cause s
  | .prtResetEnd p => Sys2Proof.Machine.execPrtResetEnd p s
  | .stkReset k cause => Sys2Proof.Machine.execStkReset k cause s
  | .stkResetEnd k => Sys2Proof.Machine.execStkResetEnd k s
  | .resetCountExpiry => Sys2Proof.Machine.execResetCountExpiry s
  | .keeperWatchdogExpiry => Sys2Proof.Machine.execKeeperWatchdogExpiry s
  | .heartbeatTimeout unit => Sys2Proof.Machine.execHeartbeatTimeout unit s
  | .lostRetrainTimeout p => Sys2Proof.Machine.execLostRetrainTimeout p s
  | .ports side val collide => Sys2Proof.Machine.execPorts side val collide s
  | .thermalSample temp => Sys2Proof.Machine.execThermalSample temp s
  | .clockStepUp => Sys2Proof.Machine.execClockStepUp s
  | .clockStepDown => Sys2Proof.Machine.execClockStepDown s
  | .pwrWarnAssert => Sys2Proof.Machine.execPwrWarnAssert s
  | .pwrWarnDeassert => Sys2Proof.Machine.execPwrWarnDeassert s
  | .sbRst => Sys2Proof.Machine.execSbRst s
  | .powerApplied => Sys2Proof.Machine.execPowerApplied s
  | .inputQualified => Sys2Proof.Machine.execInputQualified s
  | .brownout => Sys2Proof.Machine.execBrownout s
  | .overvoltage => Sys2Proof.Machine.execOvervoltage s
  | .bringupStageDone result => Sys2Proof.Machine.execBringupStageDone result s
  | .measure side => Sys2Proof.Machine.execMeasure side s
  | .measureExchange stamps => Sys2Proof.Machine.execMeasureExchange stamps s
  | .measureDone => Sys2Proof.Machine.execMeasureDone s
  | .lockExchange stamps rooted => Sys2Proof.Machine.execLockExchange stamps rooted s
  | .timCfgWrite side val => Sys2Proof.Machine.execTimCfgWrite side val s
  | .timeSyncPulse => Sys2Proof.Machine.execTimeSyncPulse s
  | .timeSyncEdge => Sys2Proof.Machine.execTimeSyncEdge s
  | .timeQuery port f => Sys2Proof.Machine.execTimeQuery port f s
  | .latch side => Sys2Proof.Machine.execLatch side s
  | .counterLatchTake => Sys2Proof.Machine.execCounterLatchTake s
  | .profSelWrite side b k val => Sys2Proof.Machine.execProfSelWrite side b k val s
  | .checkerSync p lane => Sys2Proof.Machine.execCheckerSync p lane s
  | .checkerSyncLost p lane => Sys2Proof.Machine.execCheckerSyncLost p lane s
  | .columnBusTransfer cell inward => Sys2Proof.Machine.execColumnBusTransfer cell inward s
  | .ropeInputReceive kind bytes => Sys2Proof.Machine.execRopeInputReceive kind bytes s
  | .pldmBaseCommand command => Sys2Proof.Machine.execPldmBaseCommand command s

end Sys2Proof.Machine
end

