-- ==== Sys2Proof/Safety.lean ====
section
/-! DEFINITION. What holds of every state of the part: the canonical forms of its memory and tables, what a run keeps
without a stop, and what it means that the caravan gave out frames. -/
namespace Sys2Proof.Machine

/-- A byte memory is in its canonical form: addresses strictly rising, no entry equal to the 0 that an unlisted address
reads as. -/
def Memory.wf (m : List Host.Cell) : Bool := tblWf 0 m

/-- The part's own memory and what it wrote into host memory are in canonical form. -/
def State.memWf (s : State) : Bool := Memory.wf s.mem && Memory.wf s.hostMem

/-- A step goes on: no command ends in a fault or a refusal. -/
def State.goesOn (s : State) : Prop := ∃ t, step s = .next t

/-- Between two states the caravan gave out frames for a partition: those `sent` entered the switch core from an end-point
port, those `held` wait because their IVs would repeat under the install (R353, R354), which only sealed ones do. -/
def gaveOut (p : Byte) (sent held : List Frame) (s u : State) : Prop :=
  u.sw.coreIn = s.sw.coreIn ++ sent.map (fun f => ⟨36, s.clock, now s, true, f⟩) ∧
    u.tenant.ivHeld = s.tenant.ivHeld ++ held ∧ (held ≠ [] → getBit rSecStatus 5 u = true) ∧
    (partSlot p s = none → held = [])

/-- Between two states bytes were written into memory from an address on, and no other byte changed. -/
def wroteBytes (a : Nat) (bs : List Byte) (s u : State) : Prop :=
  ∀ x, memByte u x = if a ≤ x ∧ x < a + bs.length then bs.getD (x - a) 0 else memByte s x

/-- A frame is the one its core input takes up next: the first of its class that waits there, or one that comes where none
waits (R267). `x` is the frame as it waits and `l` what goes on waiting at the inputs. -/
def comesUp (input : Nat) (f : Frame) (s : State) (x : CoreFrame) (l : List CoreFrame) : Prop :=
  x.input = input ∧ x.frame = f ∧
    ((firstWaiting? input f.cls s = some x ∧ l = eraseFirst (fun c => decide (c = x)) s.sw.coreIn) ∨
      (firstWaiting? input f.cls s = none ∧ x = ⟨input, s.clock, now s, true, f⟩ ∧ l = s.sw.coreIn))

/-- The core input has the cells a frame needs (R260). -/
def hasCells (input : Nat) (f : Frame) (s : State) : Prop :=
  (freeCells (frameCells f) s).length = frameCells f ∧ coreRoom input f s = true

/-- A port's receiver is awake on a trained link (R302, R305, R310). -/
def portListens (p : Nat) (s : State) : Bool :=
  portUp p s || (decide ((linkOf p s).st = .idle) && !(linkOf p s).rxIdle)

/-- SEC_CMD takes a command from a side: the write passes the checks of R373, R381 and R437, none runs or waits (R350), and
the keeper is not fenced for its swap (R396). -/
def takesSecCmd (side : Side) (s : State) : Prop :=
  gate side bSEC false .pwr s = .go ∧ s.tenant.run = none ∧ s.tenant.heldCmd = none ∧ swapping 0 s = false

/-- A key session's transport is served, over the DOE only once the part is READY (R342, R373). -/
def sessionServed (x : Session) (s : State) : Prop := transportUp x.via s = true ∧ (x.via = .doe → isReady s = true)

end Sys2Proof.Machine
end

