-- ==== Sys2Proof/WellFormed.lean ====
section
/-! DEFINITION. Which commands can come from outside the part: operands whose shape no encoding of the spec could carry
are ill-formed. The effect of a command is defined on every operand all the same. -/
namespace Sys2Proof

/-- A frame carries the slots its header implies (R258, R260): as many data slots as LENGTH says, none for a LOAD; a
trailer exactly where ENC is set; a multicast slot only where MCAST is set. -/
def Frame.wf (f : Frame) : Bool :=
  decide (f.data.length = (if f.ty = 0x01 then 0 else f.len.toNat)) && (f.sealed.isSome == f.enc) &&
    (f.mcast || decide (f.mslot = 0))

/-- A step of a chunk: one of the stage codes of R156, and a chunk number a count of elements can reach. -/
def CollStep.wf (st : CollStep) : Bool := decide (st.stage < 16 ∧ st.chunk < 2 ^ 32)

/-- A canonical table: keys strictly rising. -/
def risingFrom {α : Type} (lo : Nat) : List (Nat × α) → Bool
  | [] => true
  | (i, _) :: t => decide (lo ≤ i) && risingFrom (i + 1) t

/-- A program image carries a library within its 64 MiB area (R254), in rising order. -/
def FirmwareImage.wf (i : FirmwareImage) : Bool :=
  risingFrom 0 i.library && i.library.all (fun e => decide (e.1 < 0x4000000))

/-- A command that can come from outside the part. -/
def Instr.wf : Instr → Bool
  | .xltInvalDone f | .load _ f | .store _ f | .storeFlagged _ f | .bulkData _ f | .atomic _ f | .loadRsp f | .storeAck f
  | .bulkAck f | .atomicRsp f | .statusQuery f | .statusRsp f | .offer f | .invite f | .collData f | .collResult f
  | .seal f | .void f | .frameIngress _ f | .rotationAnswer f | .timeQuery _ f => f.wf
  | .sendOffer _ _ st | .sendInvite _ _ st | .inviteRepeatTimeout _ _ st _ | .stepResultStaged _ _ st => st.wf
  | .chunkReadbackDone _ _ k _ | .sealSignal _ _ k | .sealWaitTimeout _ _ k | .sealRepeatTimeout _ _ k _ =>
    decide (k < 2 ^ 32)
  | .descriptorFetch _ host => decide (host.length ≤ 64)
  | .flitReceive _ _ slots _ => decide (slots.length = 15)
  | .ropeCaptureDone sigs => decide (sigs = [] ∨ sigs.length = 4096)
  | .frameAgeExpiry pos => decide (pos < 131072)
  | .keyExchange _ pub _ => decide (pub.length ≤ 4096)
  | .install _ msg => decide (msg.manifest.length ≤ 4096)
  | .ideKm _ body => decide (body.length ≤ 4096)
  | .regWrite _ _ _ words => decide (words.length ≤ 255)
  | .requestFirmwareData _ _ data => decide (data.length ≤ 1024)
  | .activateFirmware _ img => img.wf
  | _ => true

end Sys2Proof
end

