-- ==== Sys2Proof/Certificates/Slice0/Obligations.lean ====
section
/-! DEFINITION. What the provers prove of the model: one definition for each statement of OBLIGATIONS.json. -/
open Sys2Proof Sys2Proof.Machine

/-- Tier 1. A step takes the command at the front of the queue and is its effect on the state with the queue's rest. -/
def Obligations.StepRunsQueueFront : Prop :=
  ∀ (c : Instr) (rest : List Instr) (s : State), s.pending = c :: rest →
    Sys2Proof.Machine.step s = Sys2Proof.Machine.exec c { s with pending := rest }

/-- Tier 2. With no command waiting one nanosecond passes (the model's choice, log entry 4): the model's clock advances
by 1; without power nothing else changes; with power only the time base, the checkers' bit counts, and the counts of
capacity, room time and profiled clocks move. -/
def Obligations.EmptyQueueLetsTimePass : Prop :=
  ∀ s : State, s.pending = [] → ∃ t, Sys2Proof.Machine.step s = .next t ∧ t.clock = s.clock + 1 ∧
    t = { s with clock := t.clock, timeBase := t.timeBase, timeFrac := t.timeFrac, counters := t.counters,
                 regs := t.regs } ∧
    (s.powered = false → t = { s with clock := s.clock + 1 }) ∧
    (s.powered = true → 5 ≤ s.power.stage → s.power.stage ≤ 13 → s.time.rate = 0 → s.timeFrac = 0 →
      t.timeBase = s.timeBase + 1) ∧
    (∀ o, (∀ p, o ≠ rPrtTestBits p) → getReg o t = getReg o s) ∧
    (∀ a, (∀ p, a ≠ 0x1910010 + 0x100 * p) → a ≠ 0x1930020 → (a < rProfSel 0 0 ∨ rProfSel 14 0 + 0x200 ≤ a) →
      tblGet 0 t.counters a = tblGet 0 s.counters a)

/-- Tier 3. Every command, in every state, answers a next state; it leaves the waiting commands and the clock alone,
keeps the canonical form of both memories, and never takes a page out of the list of retired pages. -/
def Obligations.EveryCommandCompletesAndKeeps : Prop :=
  ∀ (c : Instr) (s : State), ∃ t, Sys2Proof.Machine.exec c s = .next t ∧ t.pending = s.pending ∧ t.clock = s.clock ∧
    (s.memWf = true → t.memWf = true) ∧ ∀ p ∈ s.memory.retired, p ∈ t.memory.retired

/-- Tier 3. Every step keeps the invariant that both memories are in canonical form and that a set of pages is retired;
the queue loses its first command and nothing else. -/
def Obligations.StepKeepsMemoryAndRetiredPages : Prop :=
  ∀ (l : List Nat) (s t : State), s.memWf = true ∧ (∀ p ∈ l, p ∈ s.memory.retired) → Sys2Proof.Machine.step s = .next t →
    (t.memWf = true ∧ ∀ p ∈ l, p ∈ t.memory.retired) ∧ t.pending = s.pending.tail

/-- Tier 1. The state after reset meets the invariant, waits for no command, and lists no retired page. -/
def Obligations.ResetMeetsInvariant : Prop :=
  State.reset.memWf = true ∧ State.reset.pending = [] ∧ State.reset.memory.retired = [] ∧ State.reset.mem = [] ∧
    State.reset.hostMem = []

/-- Tier 1. A part without power takes no command but the events of its supply (log entry 2). -/
def Obligations.NoPowerNoEffect : Prop :=
  ∀ (c : Instr) (s : State), s.powered = false → c ≠ .powerApplied → c ≠ .inputQualified → c ≠ .brownout →
    c ≠ .overvoltage → Sys2Proof.Machine.exec c s = .next s

/-- Tier 2. The supply (POWER_APPLIED, INPUT_QUALIFIED, BROWNOUT, OVERVOLTAGE): what each event of the 48 V input does. -/
def Obligations.SupplyEvents : Prop :=
  (∀ s : State, s.power.supply = .off →
    Sys2Proof.Machine.exec .powerApplied s = .next { s with power.supply := .standby s.clock }) ∧
  (∀ (s : State) (t : Nat), s.power.supply = .standby t ∨ s.power.supply = .above t → t + 100000000 ≤ s.clock →
    ∃ u, Sys2Proof.Machine.exec .inputQualified s = .next u ∧ u.powered = true ∧ u.power.supply = .qualified ∧
      u.power.stage = 1 ∧ u.mem = [] ∧ u.hostMem = s.hostMem ∧ u.memory.retired = s.memory.retired ∧
      u.tenant.enrolled = s.tenant.enrolled ∧ u.service.activeB = s.service.activeB ∧
      u.service.totalResets = 0 ∧ u.service.resetTimes = [] ∧ u.pending = s.pending ∧ u.clock = s.clock) ∧
  (∀ (s : State) (t : Nat), s.power.supply = .standby t ∨ s.power.supply = .above t → s.clock < t + 100000000 →
    Sys2Proof.Machine.exec .inputQualified s = .next s) ∧
  (∀ s : State, s.power.supply ≠ .off → ∃ u, Sys2Proof.Machine.exec .brownout s = .next u ∧ u.powered = false ∧
    u.power = { s.power with supply := .off, tripped := false } ∧
    u = { s with powered := false, power := u.power, service := u.service }) ∧
  (∀ s : State, s.power.supply ≠ .off → ∃ u, Sys2Proof.Machine.exec .overvoltage s = .next u ∧ u.powered = false ∧
    u.power = { s.power with supply := .above s.clock } ∧
    u = { s with powered := false, power := u.power, service := u.service })

/-- Tier 2. PWR_WARN_ASSERT, PWR_WARN_DEASSERT, THERMAL_SAMPLE, CLOCK_STEP_UP and CLOCK_STEP_DOWN: holds, the trip at
110 °C, and the clock steps with their alert. -/
def Obligations.WarningsAndTemperature : Prop :=
  (∀ s : State, s.powered = true → s.power.warn = false → ∃ u, Sys2Proof.Machine.exec .pwrWarnAssert s = .next u ∧
    u.power = { s.power with warn := true } ∧ getBit rKprAttn 0 u = true ∧ u.service.logTotal = (s.service.logTotal + 1) % 2 ^ 32 ∧
    (∀ o, o ≠ rKprAttn → getReg o u = getReg o s) ∧
    u = { s with power := u.power, regs := u.regs, host := u.host, side := u.side, service := u.service }) ∧
  (∀ s : State, s.powered = true →
    Sys2Proof.Machine.exec .pwrWarnDeassert s = .next { s with power.warn := false }) ∧
  (∀ (c : BitVec 8) (s : State), s.powered = true → ∃ u, Sys2Proof.Machine.exec (.thermalSample c) s = .next u ∧
    u.power.temp = c.toNat ∧ (u.powered = true ↔ c.toNat < 110) ∧
    u.power.thermHold = (decide (105 ≤ c.toNat) || (s.power.thermHold && decide (100 ≤ c.toNat))) ∧
    u = { s with powered := u.powered, power := u.power, counters := u.counters, service := u.service }) ∧
  (∀ s : State, s.powered = true → s.power.aboveHot = true → s.power.clockStep < 7 →
    s.power.stepAt + 1000000 ≤ s.clock → ∃ u, Sys2Proof.Machine.exec .clockStepUp s = .next u ∧
      u.power = { s.power with clockStep := s.power.clockStep + 1, stepAt := s.clock } ∧
      (s.power.clockStep = 0 → getBit rKprAttn 1 u = true) ∧ (∀ o, o ≠ rKprAttn → getReg o u = getReg o s) ∧
      u = { s with power := u.power, counters := u.counters, regs := u.regs, host := u.host, side := u.side,
                   service := u.service }) ∧
  (∀ s : State, s.powered = true → s.power.belowCool = true → 0 < s.power.clockStep →
    s.power.stepAt + 10000000 ≤ s.clock → ∃ u, Sys2Proof.Machine.exec .clockStepDown s = .next u ∧
      u.power = { s.power with clockStep := s.power.clockStep - 1, stepAt := s.clock } ∧
      u = { s with power := u.power, counters := u.counters })

/-- Tier 2. BRINGUP_STAGE_DONE: a stage that ends shows the next stage code, and each of these stages brings what it
names; a keeper older than the image's minimum restarts from its other slot; a boot or configuration component with no good
slot stops bring-up in RECOVERY or NO_CONFIG; a failed self-test goes on with the part out of service. -/
def Obligations.BringUpAdvances : Prop :=
  (∀ s : State, s.powered = true → s.power.stage < 13 → inReset .kpr s = false → s.power.thermHold = false →
    s.power.warn = false →
    (s.power.stage = 2 → tblGet 0 (bootImage s).minVersions 0 ≤ (getImage 0 (activeSlot 0 s) s).version.toNat) →
    ∃ u, Sys2Proof.Machine.exec (.bringupStageDone .done) s = .next u ∧
      u.power.stage = s.power.stage + 1 ∧
      (s.power.stage + 1 = 2 → u.tenant.identity = true) ∧
      (s.power.stage + 1 = 5 → u.timeBase = 0) ∧
      (s.power.stage + 1 = 8 → inReset .ept u = false) ∧
      (s.power.stage + 1 = 12 → inReset .ary u = false) ∧
      (s.power.stage + 1 = 13 → u = { s with power := u.power } ∧ isReady u = true)) ∧
  (∀ s : State, s.powered = true → s.power.stage = 2 → inReset .kpr s = false →
    (getImage 0 (activeSlot 0 s) s).version.toNat < tblGet 0 (bootImage s).minVersions 0 →
    Sys2Proof.Machine.exec (.bringupStageDone .done) s =
      .next { s with service.activeB := s.service.activeB ^^^ 1, power.stage := 1 }) ∧
  (∀ s : State, s.powered = true → s.power.stage = 1 → inReset .kpr s = false →
    Sys2Proof.Machine.exec (.bringupStageDone (.bothSlotsFail 0)) s = .next { s with power.stage := stageRecovery }) ∧
  (∀ s : State, s.powered = true → s.power.stage = 2 → inReset .kpr s = false →
    Sys2Proof.Machine.exec (.bringupStageDone (.bothSlotsFail 6)) s = .next { s with power.stage := stageNoConfig }) ∧
  (∀ s : State, s.powered = true → s.power.stage = 6 → inReset .kpr s = false → s.power.oos = false →
    ∃ u, Sys2Proof.Machine.exec (.bringupStageDone .sramFail) s = .next u ∧ u.power.stage = 7 ∧ u.power.oos = true ∧
      (s.power.failStage = 0 → u.power.failStage = 7) ∧ getBit rKprAttn 2 u = true ∧ getBit rKprAttn 3 u = true)

/-- Tier 2. REQUEST_FIRMWARE_DATA, ACTIVATE_FIRMWARE and FIRMWARE_SWAP_DONE: data gathers in the slot a component does
not run from; only an image that passes the three checks is stored and begins its fence; the swap makes its slot the
active one and counts the update. -/
def Obligations.FirmwareUpdate : Prop :=
  (∀ (c : Fin 8) (off : BitVec 32) (data : List Byte) (s : State), s.powered = true → sidebandUp s = true →
    s.service.activation = none → data.length ≤ 1024 → off ≠ 0 →
    off.toNat = (getImage c.val (1 - activeSlot c.val s) s).bytes →
    ∃ u, Sys2Proof.Machine.exec (.requestFirmwareData c off data) s = .next u ∧
      (getImage c.val (1 - activeSlot c.val s) u).bytes = off.toNat + data.length ∧
      (getImage c.val (1 - activeSlot c.val s) u).verified = false ∧
      getImage c.val (activeSlot c.val s) u = getImage c.val (activeSlot c.val s) s ∧
      u = { s with service := u.service } ∧ u.service = { s.service with slots := u.service.slots }) ∧
  (∀ (c : Fin 8) (img : FirmwareImage) (s : State), s.powered = true → sidebandUp s = true →
    s.service.activation = none → img.sigOk = true → img.index.toNat = c.val →
    tblGet 0 s.img.minVersions c.val ≤ img.version.toNat → (c.val = 6 → img.config.isSome = true) →
    ∃ u l w, Sys2Proof.Machine.exec (.activateFirmware c img) s = .next u ∧
      u.service.activation = some ⟨c.val, s.clock, l, w⟩ ∧ (c.val = 1 → w = quietPorts s) ∧ (c.val ≠ 1 → w = []) ∧
      (c.val ≠ 3 → c.val ≠ 4 → l = [] ∧ u.service.activeB = s.service.activeB ∧
        u.service.updateFailed = false ∧ (getImage c.val (1 - activeSlot c.val s) u).verified = true ∧
        (getImage c.val (1 - activeSlot c.val s) u).version = img.version ∧
        u.side.answers = s.side.answers ++ [⟨.pldm, BitVec.ofNat 8 c.val, stOk, []⟩] ∧
        u = { s with service := u.service, side := u.side, host := u.host })) ∧
  (∀ (c : Fin 8) (img : FirmwareImage) (s : State), s.powered = true → sidebandUp s = true →
    s.service.activation = none → img.sigOk = false ∨ img.index.toNat ≠ c.val ∨
      img.version.toNat < tblGet 0 s.img.minVersions c.val →
    ∃ u, Sys2Proof.Machine.exec (.activateFirmware c img) s = .next u ∧ u.service.activation = none ∧
      u.service.slots = s.service.slots ∧ u.service.activeB = s.service.activeB ∧ u.service.updateFailed = true ∧
      u.side.answers = s.side.answers ++ [⟨.pldm, BitVec.ofNat 8 c.val, stIntegrity, []⟩]) ∧
  (∀ (s : State) (a : Activation), s.powered = true → s.service.activation = some a → fenceMet a s = true →
    a.component = 1 ∨ a.component = 2 ∨ a.component = 5 → a.fencedQueues = [] →
    ∃ u, Sys2Proof.Machine.exec .firmwareSwapDone s = .next u ∧ u.service.activation = none ∧
      u.service.activeB = s.service.activeB ^^^ BitVec.ofNat 8 (2 ^ a.component) ∧
      tblGet 0 u.tenant.updates a.component = tblGet 0 s.tenant.updates a.component + 1 ∧
      u = { s with service := u.service, tenant := u.tenant }) ∧
  (∀ (s : State) (a : Activation) (k : Nat), s.powered = true → s.service.activation = some a → a.component = 2 →
    s.power.warn = false → s.power.thermHold = false → nextStackSwap a s = some k →
    (∃ j ∈ List.range 6, j ≠ k ∧ a.swapped.contains j = false) →
    Sys2Proof.Machine.exec .firmwareSwapDone s =
      .next { s with service.activation := some { a with swapped := k :: a.swapped, beganAt := s.clock } }) ∧
  (∀ (s : State) (a : Activation), s.powered = true → s.service.activation = some a → s.power.warn = true →
    Sys2Proof.Machine.exec .firmwareSwapDone s = .next s)

/-- Tier 2. MEASURE, MEASURE_EXCHANGE and MEASURE_DONE: a measurement of the parent makes 100 exchanges 1 ms apart, in each
of which the part stamps; the stamps that come back are a sample; ten unanswered in a row fail it; its end writes the
results and sets MEAS_DONE. On the root a MEASURE completes at once with every result zero. -/
def Obligations.TimeMeasurement : Prop :=
  (∀ (side : Side) (s : State), s.powered = true → gate side bTIM false .pwr s = .go → getBit rTimCfg 63 s = false →
    s.time.measuring = false → ∃ u, Sys2Proof.Machine.exec (.measure side) s = .next u ∧
      u.time = { s.time with measuring := true, exchanges := 0, samples := [], missed := 0, lastExchange := s.clock,
                             forMeasure := false } ∧
      u = { s with time := u.time, counters := u.counters }) ∧
  (∀ (side : Side) (s : State), s.powered = true → gate side bTIM false .pwr s = .go → getBit rTimCfg 63 s = true →
    ∃ u, Sys2Proof.Machine.exec (.measure side) s = .next u ∧ getReg rTimOffset u = 0 ∧ getReg rTimRate u = 0 ∧
      getReg rTimMeasTime u = 0 ∧ getBit rTimStatus 0 u = true ∧ u.time.measuring = false) ∧
  (∀ s : State, s.powered = true → s.time.measuring = true → s.time.exchanges < 100 →
    s.time.sentAt = none ∨ s.time.forMeasure = false → s.time.missed < 10 → s.time.lastExchange + 1000000 ≤ s.clock →
    ∃ u, Sys2Proof.Machine.exec (.measureExchange ()) s = .next u ∧
      u.time = { s.time with lastExchange := s.clock, sentAt := some (now s), echo := none, back := none,
                             forMeasure := true } ∧
      u = { s with time := u.time, links := u.links, owed := u.owed }) ∧
  (∀ s : State, s.powered = true → s.time.measuring = true → s.time.exchanges < 100 → 9 ≤ s.time.missed →
    s.time.sentAt.isSome = true → s.time.forMeasure = true →
    s.time.lastExchange + 1000000 ≤ s.clock → ∃ u, Sys2Proof.Machine.exec (.measureExchange ()) s = .next u ∧
      u.time.measuring = false ∧ getBit rTimStatus 1 u = true ∧ (∀ o, o ≠ rTimStatus → getReg o u = getReg o s)) ∧
  (∀ (x : TimeStamps) (rooted : Bool) (s : State), s.time.measuring = true → s.time.forMeasure = true →
    (takeExchange x rooted s).time.samples = s.time.samples ++ [takeSample x] ∧
      (takeExchange x rooted s).time.exchanges = s.time.exchanges + 1 ∧
      (takeExchange x rooted s).time.missed = 0 ∧ (takeExchange x rooted s).time.sentAt = none) ∧
  (∀ s : State, s.powered = true → s.time.measuring = true → s.time.exchanges = 100 →
    ∃ u, Sys2Proof.Machine.exec .measureDone s = .next u ∧ u.time.measuring = false ∧
      getBit rTimStatus 0 u = true ∧
      getReg rTimOffset u = BitVec.ofInt 64 (measureResults s.time.samples).1 ∧
      getReg rTimMeasTime u = BitVec.ofNat 64 (measureResults s.time.samples).2.2.2 ∧
      (∀ o, o ≠ rTimStatus → o ≠ rTimOffset → o ≠ rTimRate → o ≠ rTimMeasTime → getReg o u = getReg o s)) ∧
  (∀ x : TimeStamps, (takeSample x).delay = 500 * ((x.t2 - x.t1).toInt + (x.t4 - x.t3).toInt))

/-- Tier 2. LOCK_EXCHANGE, TIM_CFG_WRITE, TIME_SYNC_PULSE, TIME_SYNC_EDGE and TIME_QUERY: the exchange every 10 µs, what its
stamps do to the counter (R421), a write that restarts
acquisition, the pulse, the recorded edge, and the one reply of a query. -/
def Obligations.LockedTime : Prop :=
  (∀ s : State, s.powered = true → lockedMode s = true → isRoot s = false →
    s.time.lastLock + 10000 ≤ s.clock → ∃ u,
      Sys2Proof.Machine.exec (.lockExchange () ()) s = .next u ∧ u.time.lastLock = s.clock ∧
      (s.time.sentAt = none ∨ s.time.forMeasure = false →
        u.time.sentAt = some (now s) ∧ u.time.echo = none ∧ u.time.back = none ∧ u.time.forMeasure = false) ∧
      (s.time.sentAt ≠ none → s.time.forMeasure = true → u = { s with time.lastLock := s.clock }) ∧
      u = { s with time := u.time, links := u.links, owed := u.owed }) ∧
  (∀ (x : TimeStamps) (s : State),
      (discipline x s).time.holdover = false ∧ -200000000 ≤ (discipline x s).time.rate ∧
      (discipline x s).time.rate ≤ 200000000 ∧
      (timeDiff x.t2 x.t1 - timeDiff x.t4 x.t3 ≤ 200000 → (discipline x s).timeBase = s.timeBase) ∧
      (200000 < timeDiff x.t2 x.t1 - timeDiff x.t4 x.t3 → getBit rTimStatus 3 (discipline x s) = true ∧
        (discipline x s).timeBase =
          s.timeBase + BitVec.ofInt 64 ((timeDiff x.t2 x.t1 - timeDiff x.t4 x.t3) / 2))) ∧
  (∀ (side : Side) (v : Word) (s : State), s.powered = true → gate side bTIM false .pwr s = .go →
    s.time.measuring = false → ∃ u, Sys2Proof.Machine.exec (.timCfgWrite side v) s = .next u ∧
      getReg rTimCfg u = getReg rTimCfg (plainWrite rTimCfg v s) ∧
      (getReg rTimCfg u ≠ getReg rTimCfg s → u.time.locked = false ∧ u.time.holdover = false) ∧
      (∀ o, o ≠ rTimCfg → getReg o u = getReg o s)) ∧
  (∀ s : State, s.powered = true → isRoot s = true → s.timeBase.toNat % 1000000 = 0 →
    Sys2Proof.Machine.exec .timeSyncPulse s = .next { s with time.pulseUntil := some (s.clock + 100) }) ∧
  (∀ s : State, s.powered = true → isRoot s = false → (∀ t ∈ s.time.lastEdge, t + 1000 ≤ s.clock) →
    ∃ u, Sys2Proof.Machine.exec .timeSyncEdge s = .next u ∧ getReg rTimPulse u = s.timeBase ∧
      u.time.lastEdge = some s.clock ∧ (∀ o, o ≠ rTimPulse → getReg o u = getReg o s) ∧
      u = { s with regs := u.regs, time := u.time }) ∧
  (∀ (s : State) (t : Nat), s.powered = true → isRoot s = false → s.time.lastEdge = some t → s.clock < t + 1000 →
    Sys2Proof.Machine.exec .timeSyncEdge s = .next { s with time.lastEdge := some s.clock }) ∧
  (∀ (port : Fin 8) (f : Frame) (s : State), s.powered = true → f.cls = clTime → f.ty = tyMgmt → f.be = 1 →
    ∃ u, Sys2Proof.Machine.exec (.timeQuery port f) s = .next u ∧
      u.sw.coreIn = s.sw.coreIn ++ [⟨36 + port.val, s.clock, now s, true, timeReply f (queryTime f s) s⟩] ∧
      u = { s with sw := u.sw, tgt := u.tgt })

/-- Tier 2. LATCH, COUNTER_LATCH_TAKE and PROF_SEL_WRITE: a latch waits for a 10 µs boundary and then copies every counter
and adds 1 to LATCH_SEQ; a write of a selection zeroes its count. -/
def Obligations.CounterLatch : Prop :=
  (∀ (side : Side) (s : State), s.powered = true → gate side bCNT false .pwr s = .go →
    ∃ u, Sys2Proof.Machine.exec (.latch side) s = .next u ∧ u.observe = { s.observe with latchWaiting := true } ∧
      u = { s with observe := u.observe, counters := u.counters }) ∧
  (∀ s : State, s.powered = true → s.observe.latchWaiting = true → s.timeBase.toNat % 10000 = 0 →
    ∃ u, Sys2Proof.Machine.exec .counterLatchTake s = .next u ∧ u.observe.latchWaiting = false ∧
      (∀ a, tblGet 0 u.latched a = counterValue a s) ∧
      getField rCntCtl 63 32 u = (getField rCntCtl 63 32 s + 1) % 2 ^ 32 ∧ u.counters = s.counters ∧
      (∀ o, o ≠ rCntCtl → getReg o u = getReg o s)) ∧
  (∀ s : State, s.powered = true → s.timeBase.toNat % 10000 ≠ 0 →
    Sys2Proof.Machine.exec .counterLatchTake s = .next s) ∧
  (∀ (side : Side) (k : Fin 14) (i : Fin 64) (v : Word) (s : State), s.powered = true →
    gate side bCNT false .pwr s = .go → ∃ u, Sys2Proof.Machine.exec (.profSelWrite side k i v) s = .next u ∧
      tblGet 0 u.counters (rProfCount k.val i.val) = 0 ∧
      (∀ o, o ≠ rProfSel k.val i.val → getReg o u = getReg o s) ∧ u.latched = s.latched)

/-- Tier 2. R436: an undecoded offset reads zero, a host write to one is dropped and counted in HST_EVENT_COUNT, and over
the side band REG_READ and REG_WRITE that touch one answer MALFORMED and change no register. -/
def Obligations.UndecodedOffsets : Prop :=
  (∀ (o : Nat) (s : State), regDesc o = none → readReg o s = (0, s)) ∧
  (∀ (off : BitVec 32) (v c : Word) (s : State), s.powered = true → regDesc off.toNat = none →
    Sys2Proof.Machine.exec (.registerWrite .host off true v c) s = .next (bump (rBlockEvents bHST) 1 s)) ∧
  (∀ (inst : Byte) (off : BitVec 32) (n : Byte) (i : Nat) (s : State), s.powered = true → sidebandUp s = true →
    s.side.capWaiting.length < 4 → i < n.toNat → regDesc (off.toNat + 8 * i) = none →
    ∃ u, Sys2Proof.Machine.exec (.regRead inst off n) s = .next u ∧
      u.side.answers = s.side.answers ++ [⟨.sideband, inst, stMalformed, []⟩] ∧
      u = { s with side.answers := u.side.answers, counters := u.counters }) ∧
  (∀ (inst : Byte) (off : BitVec 32) (n : Byte) (l : List Word) (i : Nat) (s : State), s.powered = true →
    sidebandUp s = true → s.side.capWaiting.length < 4 → i < n.toNat → regDesc (off.toNat + 8 * i) = none →
    ∃ u, Sys2Proof.Machine.exec (.regWrite inst off n l) s = .next u ∧
      u.side.answers = s.side.answers ++ [⟨.sideband, inst, stMalformed, []⟩] ∧
      u = { s with side.answers := u.side.answers, counters := u.counters })

/-- Tier 2. REGISTER_WRITE, REG_READ and REG_WRITE: a write of KPR_ATTN by its owner sets the enables and clears the
flags written 1 that the part does not set in that cycle; a host write to a block of the side band is dropped, flagged
and counted; a write into a domain in reset is only counted; the messages read and write words and are answered OK. -/
def Obligations.RegisterAccess : Prop :=
  (∀ (side : Side) (v c : Word) (s : State), s.powered = true → gate side bKPR false .kpr s = .go →
    ∃ u, Sys2Proof.Machine.exec (.registerWrite side 0x48 true v c) s = .next u ∧
      (∀ i, i < 6 → getBit rKprAttn i u = (getBit rKprAttn i s && !(wbit v i && !(wbit c i)))) ∧
      (∀ i, 32 ≤ i → i < 38 → getBit rKprAttn i u = wbit v i) ∧
      (∀ o, o ≠ rKprAttn → getReg o u = getReg o s) ∧ u = { s with regs := u.regs, counters := u.counters }) ∧
  (∀ (off : BitVec 32) (d : RegDesc) (v c : Word) (s : State), s.powered = true → regDesc off.toNat = some d →
    alwaysSideband off.toNat = false → isReady s = true → sidebandOwns d.blk s = true → inReset .ept s = false →
    ∃ u, Sys2Proof.Machine.exec (.registerWrite .host off true v c) s = .next u ∧ getBit rHstStatus 3 u = true ∧
      getField rHstStatus 63 48 u = min 65535 (getField rHstStatus 63 48 s + 1) ∧
      (∀ o, o ≠ rHstStatus → getReg o u = getReg o s) ∧ u = { s with regs := u.regs, host := u.host }) ∧
  (∀ (side : Side) (off : BitVec 32) (d : RegDesc) (v c : Word) (s : State), s.powered = true →
    regDesc off.toNat = some d → gate side d.blk (alwaysSideband off.toNat) d.dom s = .held →
    Sys2Proof.Machine.exec (.registerWrite side off true v c) s = .next (bump (rBlockEvents d.blk) 1 s)) ∧
  (∀ (off : BitVec 32) (v c : Word) (s : State), s.powered = true → takesHalf off.toNat = false →
    Sys2Proof.Machine.exec (.registerWrite .host off false v c) s = .next (bump (rBlockEvents bHST) 1 s)) ∧
  (∀ (off : BitVec 32) (v c : Word) (s : State), s.powered = true → rHstMsix ≤ off.toNat → off.toNat < rHstPba →
    off.toNat % 4 = 0 → sidebandOwns bHST s = false → inReset .ept s = false →
    ∃ u, Sys2Proof.Machine.exec (.registerWrite .host off false v c) s = .next u ∧
      (off.toNat % 8 = 0 → getReg off.toNat u = setField (getReg off.toNat s) 31 0 v.toNat) ∧
      (off.toNat % 8 = 4 → getReg (off.toNat - 4) u = setField (getReg (off.toNat - 4) s) 63 32 v.toNat) ∧
      (∀ o, o ≠ off.toNat → o + 4 ≠ off.toNat → getReg o u = getReg o s) ∧ u = { s with regs := u.regs }) ∧
  (∀ (inst : Byte) (s : State), s.powered = true → sidebandUp s = true → s.side.capWaiting.length < 4 →
    ∃ u, Sys2Proof.Machine.exec (.regRead inst 0x40 1) s = .next u ∧
      u.side.answers = s.side.answers ++ [⟨.sideband, inst, stOk, bytesOfNat 8 (getReg rKprOwn s).toNat⟩] ∧
      u = { s with side.answers := u.side.answers, counters := u.counters }) ∧
  (∀ (inst : Byte) (off : BitVec 32) (n : Byte) (s : State), s.powered = true → sidebandUp s = true →
    s.side.capWaiting.length < 4 → rangeGood off.toNat n.toNat = true →
    ∃ u body, Sys2Proof.Machine.exec (.regRead inst off n) s = .next u ∧ body.length = 8 * n.toNat ∧
      u.side.answers = s.side.answers ++ [⟨.sideband, inst, stOk, body⟩] ∧
      u = { s with side.answers := u.side.answers, counters := u.counters, freeCtr := u.freeCtr }) ∧
  (∀ (inst : Byte) (w : Word) (s : State), s.powered = true → sidebandUp s = true → s.side.capWaiting.length < 4 →
    inReset .kpr s = false → ∃ u, Sys2Proof.Machine.exec (.regWrite inst 0x1A00000 1 [w]) s = .next u ∧
      u.side.answers = s.side.answers ++ [⟨.sideband, inst, stOk, []⟩] ∧
      getReg rCairnCtl u = setField (getReg rCairnCtl s) 63 63 (wfield w 63 63) ∧
      (∀ o, o ≠ rCairnCtl → getReg o u = getReg o s) ∧
      u = { s with side.answers := u.side.answers, counters := u.counters, regs := u.regs }) ∧
  (∀ (inst : Byte) (off : BitVec 32) (n : Byte) (l : List Word) (s : State), s.powered = true →
    sidebandUp s = true → s.side.capWaiting.length < 4 → rangeGood off.toNat n.toNat = true → l.length = n.toNat →
    (∃ i ∈ List.range n.toNat, sidebandMay (off.toNat + 8 * i) s = false) →
    ∃ u, Sys2Proof.Machine.exec (.regWrite inst off n l) s = .next u ∧
      u.side.answers = s.side.answers ++ [⟨.sideband, inst, stDenied, []⟩] ∧
      u = { s with side.answers := u.side.answers, counters := u.counters })

/-- Tier 2. R31: a walk of XLT_WALK that reaches a leaf which permits the access caches it, and the address then
translates to FA = TGT_EID × 2⁴⁸ + FRAME × 2³⁰ + FVA[29:0] for a 1 GiB page, + FVA[34:0] for a 32 GiB page; nothing but
the cache changes. -/
def Obligations.CompletedWalkGivesTheFa : Prop :=
  ∀ (q : Fin 512) (fva : Word) (k : Access) (big : Bool) (w : Word) (a : Nat) (s : State), s.powered = true →
    (getQ q.val s).st = .running → (getQ q.val s).fencing = none → qPart q.val s ≠ 0 → fva.toNat < 2 ^ 57 →
    withdrawing (qPart q.val s) (fva.toNat / 2 ^ 30) s = none →
    walkTables (qPart q.val s) fva.toNat s = .leaf big w a → leafPermits k w = true →
    ∃ u, Sys2Proof.Machine.exec (.xltWalk q fva k false) s = .next u ∧
      translate (qPart q.val s) fva.toNat k u = .fa (wfield w 63 48 * 2 ^ 48 + wfield w 47 30 * 2 ^ 30 +
        (if big then fva.toNat % 2 ^ 35 else fva.toNat % 2 ^ 30)) w ∧
      u = { s with xlt.cache := u.xlt.cache }

/-- Tier 2. XLT_WALK: a leaf without the permission and every other end of the walk park the queue on a fault of the page
with its reason and level; a VALID that is 0 ends the walk NOT_MAPPED, a third-level entry that is no leaf MALFORMED; a walk ahead that faults parks nothing. -/
def Obligations.TranslationWalk : Prop :=
  (∀ (q : Fin 512) (fva : Word) (k : Access) (big : Bool) (w : Word) (a : Nat) (s : State), s.powered = true →
    (getQ q.val s).st = .running → (getQ q.val s).fencing = none → qPart q.val s ≠ 0 → fva.toNat < 2 ^ 57 →
    withdrawing (qPart q.val s) (fva.toNat / 2 ^ 30) s = none →
    walkTables (qPart q.val s) fva.toNat s = .leaf big w a → leafPermits k w = false →
    ∃ u, Sys2Proof.Machine.exec (.xltWalk q fva k false) s = .next u ∧ (getQ q.val u).st = .parked ∧
      (∀ o, getReg o u ≠ getReg o s → o = rXltStatus) ∧
      u = { s with xlt := u.xlt, queues := u.queues, regs := u.regs }) ∧
  (∀ (q : Fin 512) (fva : Word) (k : Access) (r l : Nat) (s : State), s.powered = true →
    (getQ q.val s).st = .running → (getQ q.val s).fencing = none → qPart q.val s ≠ 0 → fva.toNat < 2 ^ 57 →
    withdrawing (qPart q.val s) (fva.toNat / 2 ^ 30) s = none →
    walkTables (qPart q.val s) fva.toNat s = .fault r l →
    (∀ f ∈ s.xlt.faults ++ s.xlt.waitingFaults, f.part = qPart q.val s → f.page ≠ fva.toNat / 2 ^ 30) →
    s.xlt.faults.length < 256 → ∃ u f, Sys2Proof.Machine.exec (.xltWalk q fva k false) s = .next u ∧
      u.xlt.faults = s.xlt.faults ++ [f] ∧ f.part = qPart q.val s ∧ f.page = fva.toNat / 2 ^ 30 ∧ f.reason = r ∧
      f.level = l ∧ f.waiters = [q] ∧ f.openedAt = s.clock ∧ f.gathered = false ∧ (getQ q.val u).st = .parked ∧
      u = { s with xlt := u.xlt, queues := u.queues }) ∧
  (∀ (q : Fin 512) (fva : Word) (k : Access) (s : State), s.powered = true →
    ∃ u, Sys2Proof.Machine.exec (.xltWalk q fva k true) s = .next u ∧ u.xlt.faults = s.xlt.faults ∧
      u.xlt.waitingFaults = s.xlt.waitingFaults ∧ (∀ p : Fin 512, (getQ p.val u).st = (getQ p.val s).st ∧
        (getQ p.val u).fetched = (getQ p.val s).fetched) ∧ u = { s with xlt := u.xlt, queues := u.queues }) ∧
  (∀ (p : Byte) (fva : Nat) (n : Nat) (s : State), partSlot p s = some n → getBit (rXltRoot n) 0 s = false →
    walkTables p fva s = .fault 1 1) ∧
  (∀ (p : Byte) (fva : Nat) (n t1 t2 t3 : Nat) (s : State), partSlot p s = some n →
    getBit (rXltRoot n) 0 s = true → getField (rXltRoot n) 47 18 s * 2 ^ 18 = t1 → tenantEnd ≤ t1 → t1 < privEnd →
    wbit (tableEntry (t1 + 8 * field fva 56 42) s) 0 = true → wbit (tableEntry (t1 + 8 * field fva 56 42) s) 1 = false →
    wfield (tableEntry (t1 + 8 * field fva 56 42) s) 47 8 * 2 ^ 8 = t2 → tenantEnd ≤ t2 → t2 < privEnd →
    wbit (tableEntry (t2 + 8 * field fva 41 35) s) 0 = true → wbit (tableEntry (t2 + 8 * field fva 41 35) s) 1 = false →
    wfield (tableEntry (t2 + 8 * field fva 41 35) s) 47 8 * 2 ^ 8 = t3 → tenantEnd ≤ t3 → t3 < privEnd →
    walkTables p fva s =
      (if wbit (tableEntry (t3 + 8 * field fva 34 30) s) 0 = false then .fault 1 3
       else if wbit (tableEntry (t3 + 8 * field fva 34 30) s) 1 = true ∨
           wfield (tableEntry (t3 + 8 * field fva 34 30) s) 13 12 = 3 ∨
           (wfield (tableEntry (t3 + 8 * field fva 34 30) s) 13 12 = 1 ∧
            wbit (tableEntry (t3 + 8 * field fva 34 30) s) 11 = false) then .fault 3 3
       else .leaf false (tableEntry (t3 + 8 * field fva 34 30) s) (t3 + 8 * field fva 34 30)))

/-- Tier 2. FAULT_GATHER_EXPIRY, FAULT_RECORD_POST and PENDING_FAULT_CREATE: 1 µs after a fault opened its record is
made; the oldest record goes to the ring at HEAD when the ring is ready, sets POSTED and advances HEAD; the oldest
pending fault opens when fewer than 256 are open. -/
def Obligations.FaultRecords : Prop :=
  (∀ (tag : BitVec 16) (f : XltFault) (s : State), s.powered = true →
    s.xlt.faults.find? (fun f => decide (f.tag = tag)) = some f → f.gathered = false → f.silent = false →
    f.openedAt + 1000 ≤ s.clock → ∃ u, Sys2Proof.Machine.exec (.faultGatherExpiry tag) s = .next u ∧
      u.xlt.records = s.xlt.records ++ [{ f with gathered := true }] ∧
      u.xlt.faults.map (fun x => (x.tag, x.waiters)) = s.xlt.faults.map (fun x => (x.tag, x.waiters)) ∧
      (∀ o, o ≠ rXltStatus → getReg o u = getReg o s) ∧ u = { s with xlt := u.xlt, regs := u.regs }) ∧
  (∀ (f : XltFault) (t : List XltFault) (s : State), s.powered = true → s.xlt.records = f :: t →
    evRingReady rFaultRing rFaultPtrs 64 s = true → ∃ u, Sys2Proof.Machine.exec .faultRecordPost s = .next u ∧
      u.xlt.records = t ∧ u.xlt.faults = s.xlt.faults ∧ getBit rXltStatus 0 u = true ∧
      getField rFaultPtrs 11 0 u = (getField rFaultPtrs 11 0 s + 1) % evRingSize rFaultRing s ∧
      (getBit rFaultRing 63 s = false → u.mem = s.mem ∧
        u.hostMem = writeCells (faultRecord f (decide (s.xlt.faultPass % 2 = 0)))
          (getField rFaultRing 51 12 s * 4096 + 64 * getField rFaultPtrs 11 0 s) s.hostMem) ∧
      (getBit rFaultRing 63 s = true → u.hostMem = s.hostMem) ∧ u.queues = s.queues) ∧
  (∀ s : State, s.powered = true → evRingReady rFaultRing rFaultPtrs 64 s = false →
    ∃ u, Sys2Proof.Machine.exec .faultRecordPost s = .next u ∧ u = { s with regs := u.regs }) ∧
  (∀ (f : XltFault) (t : List XltFault) (s : State), s.powered = true → s.xlt.waitingFaults = f :: t →
    s.xlt.faults.length < 256 → ∃ u g, Sys2Proof.Machine.exec .pendingFaultCreate s = .next u ∧
      u.xlt.faults = s.xlt.faults ++ [g] ∧ u.xlt.waitingFaults = t ∧ g.page = f.page ∧ g.part = f.part ∧
      g.reason = f.reason ∧ g.waiters = f.waiters ∧ g.openedAt = s.clock ∧ u = { s with xlt := u.xlt }) ∧
  (∀ s : State, s.powered = true → 256 ≤ s.xlt.faults.length → Sys2Proof.Machine.exec .pendingFaultCreate s = .next s)

/-- Tier 2. FAULT_RING_ENABLE, SETTLE_RING_ENABLE, RETRY and ABORT: a write that sets ENABLE from 0 to 1 sets HEAD and
the pass count to 0; RETRY closes the fault and its parked waiters run, forced to walk again; ABORT closes it and fails the
descriptor each waiter stands at with FAULT, after which the queue runs on with CONT_ON_ERR, and without it is in ERROR as
soon as the record is written (log entry 56); a tag of no open fault changes nothing and is counted. -/
def Obligations.RingsAndResume : Prop :=
  (∀ (side : Side) (v : Word) (s : State), s.powered = true → gate side bEPT false .ept s = .go →
    ∃ u, Sys2Proof.Machine.exec (.faultRingEnable side v) s = .next u ∧ getBit rFaultRing 0 u = wbit v 0 ∧
      getBit rFaultRing 63 u = wbit v 63 ∧ getField rFaultRing 51 12 u = wfield v 51 12 ∧
      getField rFaultPtrs 11 0 u = (if getBit rFaultRing 0 s = false ∧ wbit v 0 = true then 0
        else getField rFaultPtrs 11 0 s) ∧
      u.xlt.faultPass = (if getBit rFaultRing 0 s = false ∧ wbit v 0 = true then 0 else s.xlt.faultPass) ∧
      getField rFaultPtrs 43 32 u = getField rFaultPtrs 43 32 s ∧
      (∀ o, o ≠ rFaultRing → o ≠ rFaultPtrs → getReg o u = getReg o s) ∧
      u = { s with regs := u.regs, xlt.faultPass := u.xlt.faultPass }) ∧
  (∀ (side : Side) (v : Word) (s : State), s.powered = true → gate side bEPT false .ept s = .go →
    ∃ u, Sys2Proof.Machine.exec (.settleRingEnable side v) s = .next u ∧ getBit rSettleRing 0 u = wbit v 0 ∧
      getBit rSettleRing 63 u = wbit v 63 ∧ getField rSettleRing 51 12 u = wfield v 51 12 ∧
      getField rSettlePtrs 11 0 u = (if getBit rSettleRing 0 s = false ∧ wbit v 0 = true then 0
        else getField rSettlePtrs 11 0 s) ∧
      u.req.settlePass = (if getBit rSettleRing 0 s = false ∧ wbit v 0 = true then 0 else s.req.settlePass) ∧
      getField rSettlePtrs 43 32 u = getField rSettlePtrs 43 32 s ∧
      (∀ o, o ≠ rSettleRing → o ≠ rSettlePtrs → getReg o u = getReg o s) ∧
      u = { s with regs := u.regs, req.settlePass := u.req.settlePass }) ∧
  (∀ (side : Side) (tag : BitVec 16) (f : XltFault) (s : State), s.powered = true →
    gate side bEPT false .ept s = .go → openFault tag s = some f →
    ∃ u, Sys2Proof.Machine.exec (.retry side tag) s = .next u ∧ (∀ x ∈ u.xlt.faults, x.tag ≠ tag) ∧
      (∀ q ∈ f.waiters, (getQ q.val s).st = .parked → (getQ q.val u).st = .running) ∧
      (∀ q : Fin 512, q ∉ f.waiters → getQ q.val u = getQ q.val s) ∧
      cacheFind f.part (f.page * 2 ^ 30) u = none ∧ u.xlt.records = s.xlt.records ∧
      u = { s with xlt := u.xlt, queues := u.queues }) ∧
  (∀ (side : Side) (tag : BitVec 16) (f : XltFault) (s : State), s.powered = true →
    gate side bEPT false .ept s = .go → openFault tag s = some f →
    ∃ u, Sys2Proof.Machine.exec (.abort side tag) s = .next u ∧ (∀ x ∈ u.xlt.faults, x.tag ≠ tag) ∧
      (∀ q : Fin 512, q ∉ f.waiters → getQ q.val u = getQ q.val s) ∧ u.xlt.records = s.xlt.records) ∧
  (∀ (side : Side) (tag : BitVec 16) (f : XltFault) (q : Fin 512) (d : DescEx) (s : State), s.powered = true →
    gate side bEPT false .ept s = .go → openFault tag s = some f → f.waiters = [q] →
    (∀ x ∈ s.xlt.faults, x.tag ≠ tag → q ∉ x.waiters) → (∀ x ∈ s.xlt.waitingFaults, q ∉ x.waiters) →
    (getQ q.val s).st = .parked → (getQ q.val s).fencing = none → (getQ q.val s).fetched = [d] →
    parkedDesc q s = some d → (descReqs q.val d.index s).isEmpty = true → dOp d.raw ≠ opMigrate →
    d.failed = none → d.index = (getQ q.val s).consumer → inReset .ary s = false →
    ∃ u, Sys2Proof.Machine.exec (.abort side tag) s = .next u ∧ (∀ x ∈ u.xlt.faults, x.tag ≠ tag) ∧
      (∀ p : Fin 512, p ≠ q → getQ p.val u = getQ p.val s) ∧
      (∀ c ∈ u.caravan.colls, ∀ m ∈ c.members, m.queue = q → m.index = d.index → m.status ≠ none) ∧
      (cmplRoom q.val s = true → (getQ q.val u).fetched = [] ∧
        (getQ q.val u).consumer = (getQ q.val s).consumer + 1 ∧
        (getQ q.val u).cmplCount = (getQ q.val s).cmplCount + 1 ∧
        (dCont d.raw = false → (getQ q.val u).st = .error ∧ getField (rQstate q.val) 55 48 u = 5) ∧
        (dCont d.raw = true → (getQ q.val u).st =
          (if (getQ q.val s).producer = (getQ q.val s).consumer + 1 then .idle else .running))) ∧
      (cmplRoom q.val s = false → (getQ q.val u).fetched = [failDesc stFault d] ∧
        (getQ q.val u).consumer = (getQ q.val s).consumer ∧
        (getQ q.val u).st = (if dCont d.raw then .running else .parked)) ∧
      u.req = s.req ∧ u.tenant = s.tenant ∧ u.xlt.records = s.xlt.records) ∧
  (∀ (side : Side) (tag : BitVec 16) (s : State), s.powered = true → gate side bEPT false .ept s = .go →
    openFault tag s = none → ∀ c ∈ [(.retry side tag : Instr), .abort side tag],
    ∃ u, Sys2Proof.Machine.exec c s = .next u ∧
      getBit rXltStatus 1 u = true ∧ (∀ o, o ≠ rXltStatus → getReg o u = getReg o s) ∧
      u = { s with regs := u.regs, counters := u.counters })

/-- Tier 2. QCFG_WRITE, FENCE, RESTART, RESET_PTRS and QUEUE_FENCED: configuration while disabled, enabling under the
conditions of R60 to R62, CFG_BAD otherwise; a fence at once or once nothing sent is open; restart and pointer reset. -/
def Obligations.QueueControl : Prop :=
  (∀ (side : Side) (q : Fin 512) (v : Word) (s : State), s.powered = true → gate side bPOR false .ary s = .go →
    getBit (rQcfg q.val) 63 s = false →
    (wbit v 63 = true → enableOk q.val (written (rQcfg q.val) v s) s = true) →
    ∃ u, Sys2Proof.Machine.exec (.qcfgWrite side q v) s = .next u ∧ getBit (rQcfg q.val) 63 u = wbit v 63 ∧
      getField (rQcfg q.val) 55 32 u = wfield v 55 32 ∧ getField (rQcfg q.val) 26 16 u = wfield v 26 16 ∧
      (∀ o, o ≠ rQcfg q.val → getReg o u = getReg o s) ∧ u = { s with regs := u.regs }) ∧
  (∀ (side : Side) (q : Fin 512) (v : Word) (s : State), s.powered = true → gate side bPOR false .ary s = .go →
    getBit (rQcfg q.val) 63 s = false → wbit v 63 = true → enableOk q.val (written (rQcfg q.val) v s) s = false →
    ∃ u, Sys2Proof.Machine.exec (.qcfgWrite side q v) s = .next u ∧ getBit (rQstate q.val) 56 u = true ∧
      (∀ o, o ≠ rQstate q.val → getReg o u = getReg o s) ∧ u = { s with regs := u.regs, counters := u.counters }) ∧
  (∀ (side : Side) (q : Fin 512) (s : State), s.powered = true → gate side bPOR false .ary s = .go →
    (getQ q.val s).st ≠ .fenced → (getQ q.val s).fencing = none →
    ∃ u, Sys2Proof.Machine.exec (.fence side q) s = .next u ∧
      (qEngine q.val s ≠ 0 ∨ sentReqs q.val s = [] → (getQ q.val u).st = .fenced ∧ (getQ q.val u).porter = none ∧
        (getQ q.val u).fencing = none) ∧
      (qEngine q.val s = 0 → sentReqs q.val s ≠ [] → (getQ q.val u).fencing = some s.clock ∧
        (getQ q.val u).st = (getQ q.val s).st) ∧
      (∀ f ∈ u.xlt.faults, q ∉ f.waiters) ∧ (∀ p : Fin 512, p ≠ q → getQ p.val u = getQ p.val s) ∧
      u = { s with queues := u.queues, xlt := u.xlt, req := u.req, caravan := u.caravan, array := u.array }) ∧
  (∀ (side : Side) (q : Fin 512) (s : State), s.powered = true → gate side bPOR false .ary s = .go →
    (getQ q.val s).st = .fenced ∨ (getQ q.val s).st = .error → (getQ q.val s).fencing = none →
    partitionActive (qPart q.val s) s = true → ∃ u, Sys2Proof.Machine.exec (.restart side q) s = .next u ∧
      (getQ q.val u).st = (if (getQ q.val s).producer = (getQ q.val s).consumer then .idle else .running) ∧
      (getQ q.val u).consumer = (getQ q.val s).consumer ∧ (getQ q.val u).fetched = (getQ q.val s).fetched ∧
      (∀ p : Fin 512, p ≠ q → getQ p.val u = getQ p.val s) ∧ u = { s with queues := u.queues }) ∧
  (∀ (side : Side) (q : Fin 512) (s : State), s.powered = true → gate side bPOR false .ary s = .go →
    (getQ q.val s).st = .idle ∨ (getQ q.val s).st = .fenced → getBit (rQcfg q.val) 63 s = false →
    ∃ u, Sys2Proof.Machine.exec (.resetPtrs side q) s = .next u ∧ (getQ q.val u).producer = 0 ∧
      (getQ q.val u).consumer = 0 ∧ (getQ q.val u).cmplCount = 0 ∧ (getQ q.val u).cmplHead = 0 ∧
      (getQ q.val u).st = (getQ q.val s).st ∧ (∀ p : Fin 512, p ≠ q → getQ p.val u = getQ p.val s) ∧
      u = { s with queues := u.queues }) ∧
  (∀ (q : Fin 512) (s : State), s.powered = true → (getQ q.val s).fencing ≠ none → sentReqs q.val s = [] →
    ∃ u, Sys2Proof.Machine.exec (.queueFenced q) s = .next u ∧ (getQ q.val u).st = .fenced ∧
      (getQ q.val u).fencing = none ∧ (getQ q.val u).porter = none ∧
      (getQ q.val u).consumer = (getQ q.val s).consumer ∧
      (∀ p : Fin 512, p ≠ q → getQ p.val u = getQ p.val s) ∧ u = { s with queues := u.queues })

/-- Tier 2. DOORBELL_WRITE, CMPL_HEAD_WRITE and MEMORY_DOORBELL_POLL: an accepted producer count starts an IDLE queue; a
refused one changes no count, sets DB_BAD and is counted; the poll takes the count from the doorbell word. -/
def Obligations.Doorbells : Prop :=
  (∀ (q : Fin 512) (v : Word) (s : State), s.powered = true → isReady s = true → inReset .ary s = false →
    qEnabled q.val s = true → qDbMode q.val s ≠ 1 → (v.setWidth 32 - (getQ q.val s).producer).toNat < 2 ^ 31 →
    (v.setWidth 32 - (getQ q.val s).consumer).toNat ≤ descEntries q.val s →
    ∃ u, Sys2Proof.Machine.exec (.doorbellWrite q true v) s = .next u ∧
      (getQ q.val u).producer = v.setWidth 32 ∧ (getQ q.val u).consumer = (getQ q.val s).consumer ∧
      (getQ q.val u).st = (if (getQ q.val s).st = .idle ∧ v.setWidth 32 ≠ (getQ q.val s).consumer then .running
        else (getQ q.val s).st) ∧
      (∀ p : Fin 512, p ≠ q → getQ p.val u = getQ p.val s) ∧ u = { s with queues := u.queues }) ∧
  (∀ (q : Fin 512) (full : Bool) (v : Word) (s : State), s.powered = true → isReady s = true →
    inReset .ary s = false → full = false ∨ qDbMode q.val s = 1 ∨ qEnabled q.val s = false ∨
      2 ^ 31 ≤ (v.setWidth 32 - (getQ q.val s).producer).toNat ∨
      descEntries q.val s < (v.setWidth 32 - (getQ q.val s).consumer).toNat →
    ∃ u, Sys2Proof.Machine.exec (.doorbellWrite q full v) s = .next u ∧ getBit (rQstate q.val) 57 u = true ∧
      (∀ o, o ≠ rQstate q.val → getReg o u = getReg o s) ∧ u.counters = (bump (rBlockEvents bPOR) 1 s).counters ∧
      u = { s with regs := u.regs, counters := u.counters }) ∧
  (∀ (q : Fin 512) (v : Word) (s : State), s.powered = true → isReady s = true → inReset .ary s = false →
    ∃ u, Sys2Proof.Machine.exec (.cmplHeadWrite q true v) s = .next u ∧ (getQ q.val u).cmplHead = v.setWidth 32 ∧
      getQ q.val u = { getQ q.val s with cmplHead := v.setWidth 32 } ∧
      (∀ p : Fin 512, p ≠ q → getQ p.val u = getQ p.val s) ∧ u = { s with queues := u.queues }) ∧
  (∀ (q : Fin 512) (s : State), s.powered = true → inReset .ary s = false → qEnabled q.val s = true →
    qDbMode q.val s = 1 →
    (∀ t ∈ (getQ q.val s).lastPoll, t + 250 * 2 ^ getField (rQmemdb q.val) 55 52 s ≤ s.clock) →
    doorbellBad q.val (memoryCount q.val s) s = false →
    ∃ u, Sys2Proof.Machine.exec (.memoryDoorbellPoll q) s = .next u ∧
      (getQ q.val u).producer = BitVec.ofNat 32 (readNat s (getField (rQmemdb q.val) 47 3 s * 8) 4) ∧
      (getQ q.val u).lastPoll = some s.clock ∧
      ((getQ q.val s).st = .idle → (getQ q.val u).producer ≠ (getQ q.val s).consumer → (getQ q.val u).st = .running) ∧
      (∀ p : Fin 512, p ≠ q → getQ p.val u = getQ p.val s) ∧ u = { s with queues := u.queues })

/-- Tier 2. DESCRIPTOR_FETCH and DESCRIPTOR_COMPLETE: descriptors are fetched in ring order within the run-ahead, none a
second time; the head that is done writes its record where one is due, in the host's ring the 16 bytes of R79, and the
consumer count advances; a failure without CONT_ON_ERR puts a RUNNING queue in ERROR with its code, with it the queue goes
on, and PARTITION_CLOSED and OUT_OF_SERVICE fence it; otherwise nothing moves. -/
def Obligations.FetchAndComplete : Prop :=
  (∀ (q : Fin 512) (host : List (BitVec 512)) (s : State), s.powered = true → working q.val s = true →
    ringReachable (getReg (rQring q.val) s) s = true →
    ringAllowed (qPart q.val s) (getReg (rQring q.val) s) (64 * descEntries q.val s) s = true →
    ∃ u, Sys2Proof.Machine.exec (.descriptorFetch q host) s = .next u ∧
      (∀ d ∈ (getQ q.val s).fetched, d ∈ (getQ q.val u).fetched) ∧
      (∀ d ∈ (getQ q.val u).fetched, d ∈ (getQ q.val s).fetched ∨
        d.started = false ∧ d.index ∉ (getQ q.val s).fetched.map (·.index) ∧
        (ringLocal (getReg (rQring q.val) s) = true → d.raw = BitVec.ofNat 512 (readNat s
          (ringBase (getReg (rQring q.val) s) + 64 * (d.index.toNat % descEntries q.val s)) 64))) ∧
      (∀ p : Fin 512, p ≠ q → getQ p.val u = getQ p.val s) ∧
      u = { s with queues := u.queues, counters := u.counters }) ∧
  (∀ (q : Fin 512) (host : List (BitVec 512)) (s : State), s.powered = true → working q.val s = true →
    ringReachable (getReg (rQring q.val) s) s = true →
    ringAllowed (qPart q.val s) (getReg (rQring q.val) s) (64 * descEntries q.val s) s = true →
    (∀ e ∈ (getQ q.val s).fetched.zipIdx, e.1.index = (getQ q.val s).consumer + BitVec.ofNat 32 e.2) →
    (getQ q.val s).fetched.length < 2 ^ 31 →
    ∃ u l, Sys2Proof.Machine.exec (.descriptorFetch q host) s = .next u ∧
      (getQ q.val u).fetched = (getQ q.val s).fetched ++ l ∧
      l.length = (if ringLocal (getReg (rQring q.val) s) then fetchRoom q.val s
        else min (fetchRoom q.val s) host.length) ∧
      (∀ i d, l[i]? = some d → d.started = false ∧
        d.index = (getQ q.val s).consumer + BitVec.ofNat 32 ((getQ q.val s).fetched.length + i) ∧
        d.raw = (if ringLocal (getReg (rQring q.val) s) then
            BitVec.ofNat 512 (readNat s (ringBase (getReg (rQring q.val) s) +
              64 * (d.index.toNat % descEntries q.val s)) 64)
          else host.getD i 0))) ∧
  (∀ (q : Fin 512) (d : DescEx) (t : List DescEx) (s : State), s.powered = true →
    (getQ q.val s).fetched = d :: t → d.index = (getQ q.val s).consumer → finalStatus q.val d s = some stOk →
    cmplRoom q.val s = true → inReset .ary s = false →
    ∃ u, Sys2Proof.Machine.exec (.descriptorComplete q) s = .next u ∧ (getQ q.val u).fetched = t ∧
      (getQ q.val u).consumer = (getQ q.val s).consumer + 1 ∧
      (getQ q.val u).cmplCount = (if dCmpl d.raw then (getQ q.val s).cmplCount + 1 else (getQ q.val s).cmplCount) ∧
      (getQ q.val u).st = (if (getQ q.val s).st = .running ∧ (getQ q.val s).fencing = none ∧
        (getQ q.val s).producer = (getQ q.val s).consumer + 1 then .idle else (getQ q.val s).st) ∧
      (∀ p : Fin 512, p ≠ q → getQ p.val u = getQ p.val s) ∧
      u.hostMem = (if dCmpl d.raw ∧ ringLocal (getReg (rQcmpl q.val) s) = false
        then writeCells (cmplRecord q.val d stOk s) (ringBase (getReg (rQcmpl q.val) s) +
          16 * ((getQ q.val s).cmplCount.toNat % cmplEntries q.val s)) s.hostMem else s.hostMem) ∧
      u.mem = (if dCmpl d.raw ∧ ringLocal (getReg (rQcmpl q.val) s) = true
        then (storeBytes (ringBase (getReg (rQcmpl q.val) s) +
          16 * ((getQ q.val s).cmplCount.toNat % cmplEntries q.val s)) (cmplRecord q.val d stOk s) s).mem
        else s.mem) ∧
      (dCmpl d.raw = false ∨ ringLocal (getReg (rQcmpl q.val) s) = false →
        u.host.vectors = (if dIrq d.raw then s.host.vectors ++ [qVector q.val s] else s.host.vectors) ∧
        u.host = { s.host with vectors := u.host.vectors } ∧
        u = { s with queues := u.queues, hostMem := u.hostMem, counters := u.counters, host := u.host }) ∧
      u.req = s.req ∧ u.tenant = s.tenant ∧ u.array = s.array ∧ u.caravan = s.caravan ∧ u.xlt = s.xlt) ∧
  (∀ (q : Fin 512) (d : DescEx) (t : List DescEx) (st : Byte) (s : State), s.powered = true →
    (getQ q.val s).fetched = d :: t → d.index = (getQ q.val s).consumer → finalStatus q.val d s = some st →
    cmplRoom q.val s = true → inReset .ary s = false → (getQ q.val s).st = .running →
    (getQ q.val s).fencing = none → st ≠ stOk → st ≠ stClosed → st ≠ stOos →
    ∃ u, Sys2Proof.Machine.exec (.descriptorComplete q) s = .next u ∧ (getQ q.val u).fetched = t ∧
      (dCont d.raw = false → (getQ q.val u).st = .error ∧ getField (rQstate q.val) 55 48 u = st.toNat) ∧
      (dCont d.raw = true → (getQ q.val u).st =
        (if (getQ q.val s).producer = (getQ q.val s).consumer + 1 then .idle else .running)) ∧
      (getQ q.val u).consumer = (getQ q.val s).consumer + 1 ∧
      (getQ q.val u).cmplCount = (getQ q.val s).cmplCount + 1 ∧
      (∀ p : Fin 512, p ≠ q → getQ p.val u = getQ p.val s) ∧ u.req = s.req ∧ u.tenant = s.tenant ∧
      u.array = s.array ∧ u.caravan = s.caravan ∧ u.xlt = s.xlt) ∧
  (∀ (q : Fin 512) (d : DescEx) (t : List DescEx) (st : Byte) (s : State), s.powered = true →
    (getQ q.val s).fetched = d :: t → d.index = (getQ q.val s).consumer → finalStatus q.val d s = some st →
    cmplRoom q.val s = true → inReset .ary s = false → (getQ q.val s).st = .running →
    (getQ q.val s).fencing = none → st = stClosed ∨ st = stOos →
    ∃ u, Sys2Proof.Machine.exec (.descriptorComplete q) s = .next u ∧
      (getQ q.val u).consumer = (getQ q.val s).consumer + 1 ∧
      (getQ q.val u).cmplCount = (getQ q.val s).cmplCount + 1 ∧
      ((getQ q.val u).st = .fenced ∨ (getQ q.val u).fencing = some s.clock) ∧
      (∀ p : Fin 512, p ≠ q → getQ p.val u = getQ p.val s)) ∧
  (∀ (q : Fin 512) (d : DescEx) (t : List DescEx) (s : State), s.powered = true →
    (getQ q.val s).fetched = d :: t → finalStatus q.val d s = none ∨ cmplRoom q.val s = false ∨
      inReset .ary s = true ∨ d.index ≠ (getQ q.val s).consumer →
    Sys2Proof.Machine.exec (.descriptorComplete q) s = .next s)

/-- Tier 2. NOP, COPY, GATHER, SCATTER, FILL, SIGNAL, WAIT, PREFETCH, ADVISE and REKEY: a descriptor that passes R70 starts
(NOP, PREFETCH and ADVISE are done at once with OK); one that fails a check is done with that check's status; COPY of
overlapping ranges is MALFORMED; REKEY without its permit is DENIED. -/
def Obligations.DescriptorStarts : Prop :=
  (∀ (q : Fin 512) (d : DescEx) (s : State), s.powered = true → nextToStart q.val s = some d →
    s.power.oos = false ∨ qPart q.val s = 0 → checkDesc (qEngine q.val s) (qPart q.val s) d.raw = stOk →
    ∀ c op, (c, op) ∈ [((.gather q : Instr), opGather), (.scatter q, opScatter), (.fill q, opFill),
      (.signal q, opSignal), (.wait q, opWait)] ∨
      (c = .copy q ∧ op = opCopy ∧ rangesOverlap (dfield d.raw 8 8) (dfield d.raw 16 8) (dfield d.raw 24 8) = false) ∨
      (c = .rekey q ∧ op = opRekey ∧ rekeyPermitted d.raw s = true) → dOp d.raw = op →
    ∃ u, Sys2Proof.Machine.exec c s = .next u ∧
      (getQ q.val u).fetched = updFirst (fun e => decide (e.index = d.index))
        (fun e => { e with started := true, beganAt := s.clock }) (getQ q.val s).fetched ∧
      (∀ p : Fin 512, p ≠ q → getQ p.val u = getQ p.val s) ∧ u = { s with queues := u.queues }) ∧
  (∀ (q : Fin 512) (d : DescEx) (s : State), s.powered = true → nextToStart q.val s = some d →
    s.power.oos = false ∨ qPart q.val s = 0 → checkDesc (qEngine q.val s) (qPart q.val s) d.raw = stOk →
    ∀ c op st, (c, op, st) ∈ [((.nop q : Instr), opNop, stOk), (.prefetch q, opPrefetch, stOk),
      (.advise q, opAdvise, stOk)] ∨ (c = .copy q ∧ op = opCopy ∧ st = stMalformed ∧
        rangesOverlap (dfield d.raw 8 8) (dfield d.raw 16 8) (dfield d.raw 24 8) = true) ∨
      (c = .rekey q ∧ op = opRekey ∧ st = stDenied ∧ rekeyPermitted d.raw s = false) → dOp d.raw = op →
    ∃ u, Sys2Proof.Machine.exec c s = .next u ∧
      (getQ q.val u).fetched = updFirst (fun e => decide (e.index = d.index))
        (fun e => { e with started := true, beganAt := s.clock, status := some st, result := 0 })
        (getQ q.val s).fetched ∧
      (∀ p : Fin 512, p ≠ q → getQ p.val u = getQ p.val s) ∧
      u = { s with queues := u.queues, xlt := u.xlt } ∧
      (op = opAdvise → dfield d.raw 20 1 = 3 → ∀ e ∈ u.xlt.cache,
        entryIn (qPart q.val s) (dfield d.raw 8 8 / 2 ^ 30) (dfield d.raw 16 4) e = false) ∧
      (op = opAdvise → u.xlt.advice = ⟨qPart q.val s, dfield d.raw 8 8 / 2 ^ 30, dfield d.raw 16 4,
        dfield d.raw 20 1⟩ :: s.xlt.advice) ∧
      (op = opAdvise → dfield d.raw 20 1 = 0 → ∀ e ∈ u.xlt.cache,
        entryIn (qPart q.val s) (dfield d.raw 8 8 / 2 ^ 30) (dfield d.raw 16 4) e = true → e.pinned = false) ∧
      (op = opNop ∨ op = opCopy ∨ op = opRekey → u.xlt = s.xlt)) ∧
  (∀ (q : Fin 512) (d : DescEx) (st : Byte) (s : State), s.powered = true → nextToStart q.val s = some d →
    s.power.oos = false ∨ qPart q.val s = 0 → checkDesc (qEngine q.val s) (qPart q.val s) d.raw = st → st ≠ stOk →
    ∀ c ∈ [(.nop q : Instr), .copy q, .gather q, .scatter q, .fill q, .signal q, .wait q, .prefetch q, .advise q,
      .rekey q, .unmap q, .migrate q], ∃ u, Sys2Proof.Machine.exec c s = .next u ∧
      (getQ q.val u).fetched = updFirst (fun e => decide (e.index = d.index))
        (fun e => { e with started := true, beganAt := s.clock, status := some st, result := 0 })
        (getQ q.val s).fetched ∧
      (∀ p : Fin 512, p ≠ q → getQ p.val u = getQ p.val s) ∧ u = { s with queues := u.queues }) ∧
  (∀ (q : Fin 512) (d : DescEx) (s : State), s.powered = true → nextToStart q.val s = some d →
    s.power.oos = true → qPart q.val s ≠ 0 →
    ∀ c ∈ [(.nop q : Instr), .copy q, .gather q, .scatter q, .fill q, .signal q, .wait q, .prefetch q, .advise q,
      .rekey q, .unmap q, .migrate q], ∃ u, Sys2Proof.Machine.exec c s = .next u ∧
      (getQ q.val u).fetched = updFirst (fun e => decide (e.index = d.index))
        (fun e => { e with started := true, beganAt := s.clock, status := some stOos, result := 0 })
        (getQ q.val s).fetched ∧
      (∀ p : Fin 512, p ≠ q → getQ p.val u = getQ p.val s) ∧ u = { s with queues := u.queues })

/-- Tier 2. REQUEST_ISSUE, WAIT_POLL and WAIT_TIMEOUT: a window's waiting request and a queue's next frame, in its turn of
its porter's round, go out with the stream's next sequence; a FILL's are stores of its bytes; a WAIT reads its word once
per interval; TIMEOUT µs after it began it is done with AGED. -/
def Obligations.RequestsIssued : Prop :=
  (∀ (w : Fin 4) (r : Request) (s : State), s.powered = true →
    s.req.reqs.find? (fun r => decide (r.who = .window w) && r.sentAt.isNone) = some r → ivHeld r s = false →
    r.copies = 0 → r.kind ≠ .atomic → maySend r s = true →
    ∃ u, Sys2Proof.Machine.exec (.requestIssue (.window w)) s = .next u ∧
      u.sw.coreIn = s.sw.coreIn ++ [⟨46, s.clock, now s, true, { r.frame with
        seq := BitVec.ofNat 24 (sentCount (0x200 + w.val) s), sealed := sealUnder r.keySlot 0 s }⟩] ∧
      sentCount (0x200 + w.val) u = sentCount (0x200 + w.val) s + 1 ∧
      u.req.reqs.length = s.req.reqs.length ∧ (∀ o, o ≠ rSecStatus → getReg o u = getReg o s) ∧
      u = { s with req := u.req, sw := u.sw, regs := u.regs }) ∧
  (∀ (q : Fin 512) (s : State), s.powered = true → wouldSend q s = true → turnOpen q s = true →
    ∃ u f, Sys2Proof.Machine.exec (.requestIssue (.queue q)) s = .next u ∧
      u.sw.coreIn = s.sw.coreIn ++ [⟨requesterInput (.queue q) s, s.clock, now s, true, f⟩] ∧
      f.stream = BitVec.ofNat 16 q.val ∧ f.seq = BitVec.ofNat 24 (sentCount q.val s) ∧
      sentCount q.val u = sentCount q.val s + 1 ∧
      (getQ q.val u).turns = (if (getQ q.val s).turns < qWeight q.val s then (getQ q.val s).turns + 1 else 1) ∧
      u.mem = s.mem) ∧
  (∀ (q : Fin 512) (s : State), s.powered = true → wouldSend q s = true → turnOpen q s = false →
    Sys2Proof.Machine.exec (.requestIssue (.queue q)) s = .next s) ∧
  (∀ (q : Fin 512) (d : DescEx) (s : State), s.powered = true → working q.val s = true → qPart q.val s = 0 →
    migrating q s = none → workDesc q.val s = some d → d.started = true → dOp d.raw = opFill → d.issued = 0 →
    dfield d.raw 8 8 % 32 = 0 → dfield d.raw 16 8 = 32 → s.req.reqs = [] → s.req.settling = [] → s.req.held = [] →
    porterStopped s = false → (getQ q.val s).turns < qWeight q.val s →
    ∃ u r, Sys2Proof.Machine.exec (.requestIssue (.queue q)) s = .next u ∧
      u.req.reqs = [r] ∧ r.kind = .store ∧ r.desc = some d.index ∧ r.bytes = 32 ∧ r.sentAt = some s.clock ∧
      r.copies = 1 ∧ r.frame.ty = tyStore ∧ r.frame.len = 1 ∧ r.frame.be = 0 ∧
      r.frame.off = BitVec.ofNat 48 (dfield d.raw 8 8) ∧
      r.frame.dst = BitVec.ofNat 16 (dfield d.raw 8 8 / 2 ^ 48) ∧
      r.frame.data.map slotBytes = [fillBytes (dfield d.raw 24 8) (dfield d.raw 8 8) 32] ∧
      r.frame.seq = BitVec.ofNat 24 (sentCount q.val s) ∧
      u.sw.coreIn.length = s.sw.coreIn.length + 1 ∧ sentCount q.val u = sentCount q.val s + 1 ∧
      (∀ p : Fin 512, p ≠ q → getQ p.val u = getQ p.val s) ∧
      u = { s with req := u.req, sw := u.sw, queues := u.queues, regs := u.regs }) ∧
  (∀ (q : Fin 512) (d : DescEx) (s : State), s.powered = true → waiting q.val s = some d →
    working q.val s = true → d.readWait = false → qPart q.val s = 0 →
    (∀ t ∈ d.lastPoll, t + 250 * 2 ^ dfield d.raw 25 1 ≤ s.clock) → s.req.reqs = [] →
    s.req.settling = [] → s.req.held = [] → porterStopped s = false →
    ∃ u r, Sys2Proof.Machine.exec (.waitPoll q) s = .next u ∧ u.req.reqs = [r] ∧ r.kind = .load ∧
      r.desc = some d.index ∧ r.frame.ty = tyLoad ∧ r.frame.off = BitVec.ofNat 48 (dfield d.raw 8 8 / 32 * 32) ∧
      r.sentAt = some s.clock ∧ u = { s with req := u.req, sw := u.sw, queues := u.queues, regs := u.regs }) ∧
  (∀ (q : Fin 512) (d : DescEx) (s : State), s.powered = true → waiting q.val s = some d →
    working q.val s = false ∨ d.readWait = true ∨
      (∃ t ∈ d.lastPoll, s.clock < t + 250 * 2 ^ dfield d.raw 25 1) →
    Sys2Proof.Machine.exec (.waitPoll q) s = .next s) ∧
  (∀ (q : Fin 512) (d : DescEx) (s : State), s.powered = true → waiting q.val s = some d →
    dfield d.raw 28 4 ≠ 0 → d.beganAt + 1000 * dfield d.raw 28 4 ≤ s.clock →
    ∃ u, Sys2Proof.Machine.exec (.waitTimeout q) s = .next u ∧
      (getQ q.val u).fetched = updFirst (fun e => decide (e.index = d.index))
        (fun e => { e with status := some stAged, readWait := false }) (getQ q.val s).fetched ∧
      (∀ p : Fin 512, p ≠ q → getQ p.val u = getQ p.val s) ∧ u = { s with queues := u.queues }) ∧
  (∀ (q : Fin 512) (d : DescEx) (s : State), s.powered = true → waiting q.val s = some d →
    dfield d.raw 28 4 = 0 ∨ s.clock < d.beganAt + 1000 * dfield d.raw 28 4 →
    Sys2Proof.Machine.exec (.waitTimeout q) s = .next s)

/-- Tier 2. UNMAP, MIGRATE and XLT_INVAL_DONE: a withdrawal takes its pages out of the cache, withdraws what was not sent,
and waits for every attached end-point; an overlapping earlier one holds it back; MIGRATE clears its leaf's VALID. -/
def Obligations.WithdrawalsBegin : Prop :=
  (∀ (q : Fin 512) (d : DescEx) (s : State), s.powered = true → nextToStart q.val s = some d →
    s.power.oos = false ∨ qPart q.val s = 0 → checkDesc (qEngine q.val s) (qPart q.val s) d.raw = stOk →
    dOp d.raw = opUnmap → s.xlt.withdraws = [] → ∃ u w, Sys2Proof.Machine.exec (.unmap q) s = .next u ∧
      u.xlt.withdraws = [w] ∧ w.queue = q ∧ w.index = d.index ∧ w.started = true ∧ w.startedAt = s.clock ∧
      w.part.toNat = dfield d.raw 21 1 ∧ w.first = dfield d.raw 8 8 / 2 ^ 30 ∧ w.count = dfield d.raw 16 4 ∧
      w.waiting = attached s ∧ u.sw.coreIn.length = s.sw.coreIn.length + (attached s).length ∧
      (∀ e ∈ u.xlt.cache, entryIn w.part w.first w.count e = false) ∧
      (∀ r ∈ u.req.reqs, r.sentAt = none → usesPages w.part w.first w.count r = false) ∧
      u = { s with xlt := u.xlt, req := u.req, queues := u.queues, sw := u.sw, array := u.array }) ∧
  (∀ (q : Fin 512) (d : DescEx) (s : State), s.powered = true → nextToStart q.val s = some d →
    s.power.oos = false ∨ qPart q.val s = 0 → checkDesc (qEngine q.val s) (qPart q.val s) d.raw = stOk →
    dOp d.raw = opUnmap → (∀ x ∈ s.xlt.withdraws, x.queue = q → x.index ≠ d.index) →
    (∃ x ∈ s.xlt.withdraws, x.part.toNat = dfield d.raw 21 1 ∧
      x.first < dfield d.raw 8 8 / 2 ^ 30 + dfield d.raw 16 4 ∧ dfield d.raw 8 8 / 2 ^ 30 < x.first + x.count) →
    ∃ u w, Sys2Proof.Machine.exec (.unmap q) s = .next u ∧ u.xlt.withdraws = s.xlt.withdraws ++ [w] ∧
      w.started = false ∧ u = { s with xlt.withdraws := u.xlt.withdraws, queues := u.queues }) ∧
  (∀ (q : Fin 512) (d : DescEx) (big : Bool) (leaf : Word) (a : Nat) (s : State), s.powered = true →
    nextToStart q.val s = some d → s.power.oos = false → qPart q.val s ≠ 0 →
    checkDesc (qEngine q.val s) (qPart q.val s) d.raw = stOk → dOp d.raw = opMigrate → s.xlt.withdraws = [] →
    walkTables (qPart q.val s) (dfield d.raw 8 8 / 2 ^ 30 * 2 ^ 30) s = .leaf big leaf a →
    leafBad (BitVec.ofNat 64 (dfield d.raw 16 8)) = false →
    leafBig (BitVec.ofNat 64 (dfield d.raw 16 8)) = big → findDesc q.val d.index s = some d → a % 8 = 0 →
    lineStatus (lineOf a) s = stOk → s.observe.cairns = [] →
    ∃ u w, Sys2Proof.Machine.exec (.migrate q) s = .next u ∧ u.xlt.withdraws = [w] ∧ w.migrate = true ∧
      w.started = true ∧ w.copying = false ∧ w.waiting = attached s ∧ w.leafAt = a ∧
      w.count = (if big then 32 else 1) ∧ tableEntry a u = leaf &&& ~~~1 ∧
      (∀ e ∈ u.xlt.cache, entryIn w.part w.first w.count e = false) ∧
      (∀ x, x < a ∨ a + 8 ≤ x → memByte u x = memByte s x)) ∧
  (∀ (f : Frame) (i : Nat) (p : Byte) (tag : BitVec 16) (st : Byte) (w : Withdraw) (s : State), s.powered = true →
    invalAnswer f s = some (i, p, tag, st) → s.xlt.withdraws = [w] → w.started = true → w.part = p → w.tag = tag → i ∈ w.waiting →
    ∃ u v, Sys2Proof.Machine.exec (.xltInvalDone f) s = .next u ∧ u.xlt.withdraws = [v] ∧ i ∉ v.waiting ∧
      (∀ j, j ≠ i → (j ∈ v.waiting ↔ j ∈ w.waiting)) ∧
      v.badStatus = (if st = stOk then w.badStatus else some (w.badStatus.getD st)) ∧
      u = { s with xlt.withdraws := u.xlt.withdraws, tgt.arrived := u.tgt.arrived })

/-- Tier 2. UNMAP_COMPLETE, UNMAP_TIMEOUT, MIGRATE_WITHDRAW_DONE and MIGRATE_COPY_DONE: a withdrawal that has every
answer and no request in flight completes with OK or the first bad status, after 3 ms with UNREACHABLE; a MIGRATE then
copies, and a copy that succeeded writes the new leaf. -/
def Obligations.WithdrawalsEnd : Prop :=
  (∀ (q : Fin 512) (w : Withdraw) (s : State), s.powered = true → s.xlt.withdraws = [w] → w.queue = q →
    w.migrate = false → w.started = true → w.copying = false → w.waiting = [] → w.inFlight = [] →
    w.quietUntil ≤ s.clock → (∀ x ∈ w.uses, x ∉ collUses w.part w.first w.count s) ∨ w.startedAt + 3000000 ≤ s.clock →
    ∃ u, Sys2Proof.Machine.exec (.unmapComplete q) s = .next u ∧ u.xlt.withdraws = [] ∧
      (getQ q.val u).fetched = updFirst (fun d => decide (d.index = w.index))
        (fun d => { d with status := some (w.badStatus.getD stOk) }) (getQ q.val s).fetched ∧
      (∀ p : Fin 512, p ≠ q → getQ p.val u = getQ p.val s) ∧
      u = { s with xlt.withdraws := [], queues := u.queues }) ∧
  (∀ (q : Fin 512) (w : Withdraw) (s : State), s.powered = true → s.xlt.withdraws = [w] → w.queue = q →
    w.migrate = false → w.started = true → w.copying = false → w.waiting ≠ [] → w.startedAt + 3000000 ≤ s.clock →
    ∃ u, Sys2Proof.Machine.exec (.unmapTimeout q) s = .next u ∧ u.xlt.withdraws = [] ∧
      (getQ q.val u).fetched = updFirst (fun d => decide (d.index = w.index))
        (fun d => { d with status := some stUnreachable }) (getQ q.val s).fetched ∧
      (∀ p : Fin 512, p ≠ q → getQ p.val u = getQ p.val s) ∧
      u = { s with xlt.withdraws := [], queues := u.queues }) ∧
  (∀ (q : Fin 512) (w : Withdraw) (s : State), s.powered = true → s.xlt.withdraws = [w] →
    (w.waiting ≠ [] ∧ s.clock < w.startedAt + 3000000) ∨ w.inFlight ≠ [] ∧ w.waiting = [] ∨
      w.waiting = [] ∧ s.clock < w.startedAt + 3000000 ∧ (∃ x ∈ w.uses, x ∈ collUses w.part w.first w.count s) →
    Sys2Proof.Machine.exec (.unmapComplete q) s = .next s ∧ Sys2Proof.Machine.exec (.unmapTimeout q) s = .next s) ∧
  (∀ (q : Fin 512) (w : Withdraw) (s : State), s.powered = true → s.xlt.withdraws = [w] → w.queue = q →
    w.migrate = true → w.started = true → w.copying = false → w.waiting = [] → w.inFlight = [] →
    w.quietUntil ≤ s.clock → (∀ x ∈ w.uses, x ∉ collUses w.part w.first w.count s) ∨ w.startedAt + 3000000 ≤ s.clock →
    w.badStatus = none →
    Sys2Proof.Machine.exec (.migrateWithdrawDone q) s =
      .next { s with xlt.withdraws := [{ w with copying := true }] }) ∧
  (∀ (q : Fin 512) (w : Withdraw) (d : DescEx) (s : State), s.powered = true → s.xlt.withdraws = [w] →
    w.queue = q → w.migrate = true → w.copying = true → findDesc q.val w.index s = some d →
    descReqs q.val w.index s = [] → d.failed = none → w.count * 2 ^ 30 ≤ d.landed → s.xlt.faults = [] → s.xlt.waitingFaults = [] →
    w.leafAt % 8 = 0 → lineStatus (lineOf w.leafAt) s = stOk → s.observe.cairns = [] →
    ∃ u, Sys2Proof.Machine.exec (.migrateCopyDone q) s = .next u ∧ u.xlt.withdraws = [] ∧
      tableEntry w.leafAt u = BitVec.ofNat 64 (dfield d.raw 16 8) ∧
      (∀ x, x < w.leafAt ∨ w.leafAt + 8 ≤ x → memByte u x = memByte s x) ∧
      (getQ q.val u).fetched = updFirst (fun d => decide (d.index = w.index))
        (fun d => { d with status := some stOk }) (getQ q.val s).fetched ∧
      (∀ p : Fin 512, p ≠ q → getQ p.val u = getQ p.val s) ∧ u.req = s.req ∧ u.sw = s.sw) ∧
  (∀ (q : Fin 512) (w : Withdraw) (d : DescEx) (st : Byte) (s : State), s.powered = true → s.xlt.withdraws = [w] →
    w.queue = q → w.migrate = true → w.copying = true → findDesc q.val w.index s = some d →
    descReqs q.val w.index s = [] → d.failed = some st → st ≠ stOk → s.xlt.faults = [] →
    s.xlt.waitingFaults = [] →
    ∃ u, Sys2Proof.Machine.exec (.migrateCopyDone q) s = .next u ∧ u.mem = s.mem ∧ u.xlt.withdraws = [] ∧
      (getQ q.val u).fetched = updFirst (fun d => decide (d.index = w.index))
        (fun d => { d with status := some st }) (getQ q.val s).fetched ∧
      (∀ p : Fin 512, p ≠ q → getQ p.val u = getQ p.val s) ∧
      u = { s with xlt.withdraws := [], queues := u.queues }) ∧
  (∀ (q p : Fin 512) (w : Withdraw) (d : DescEx) (f : XltFault) (s : State), s.powered = true →
    s.xlt.withdraws = [w] → w.queue = q → w.migrate = true → w.copying = true → findDesc q.val w.index s = some d →
    descReqs q.val w.index s = [] → d.failed = none → w.count * 2 ^ 30 ≤ d.landed → s.xlt.faults = [f] →
    s.xlt.waitingFaults = [] → f.silent = true → f.part = w.part → w.first ≤ f.page → f.page < w.first + w.count →
    f.waiters = [p] → p ≠ q → (getQ p.val s).st = .parked →
    ∃ u, Sys2Proof.Machine.exec (.migrateCopyDone q) s = .next u ∧ u.xlt.faults = [] ∧
      (getQ p.val u).st = .running ∧ (getQ p.val u).fetched = (getQ p.val s).fetched)

/-- Tier 2. LOAD_RSP, STORE_ACK, BULK_ACK and ATOMIC_RSP: a binding answer ends its request and its descriptor counts the
bytes; a window's read gives the host its data; RETRY_BUSY starts a back-off; a switch-made answer counts one copy as
lost; an answer under no slot of its partition is dropped as KEY_STALE. -/
def Obligations.ResponsesTaken : Prop :=
  (∀ (f : Frame) (r : Request) (q : Fin 512) (i : BitVec 32) (s : State), s.powered = true → f.part = 0 →
    f.swRsp = false → f.be = stOk → findRequest f s = some r → r.kind ≠ .load → r.who = .queue q →
    r.desc = some i → r.detached = false → (∀ x ∈ s.req.reqs, heldKind x = true → x.sentAt ≠ none) →
    ∀ c ty, (c, ty) ∈ [((.bulkAck f : Instr), tyBulkAck), (.atomicRsp f, tyAtomicRsp)] ∨
      (c = .storeAck f ∧ ty = tyStoreAck ∧ findSealed f s = none) → f.ty = ty →
    ∃ u, Sys2Proof.Machine.exec c s = .next u ∧
      u.req.reqs = s.req.reqs.filter (fun x => decide (x.order ≠ r.order)) ∧
      (getQ q.val u).fetched = updFirst (fun d => decide (d.index = i))
        (fun d => { d with landed := d.landed + r.bytes,
                           result := if r.kind = .atomic then BitVec.ofNat 64 (f.data.headD 0).toNat else d.result })
        (getQ q.val s).fetched ∧
      (∀ p : Fin 512, p ≠ q → getQ p.val u = getQ p.val s) ∧
      u = { s with req.reqs := u.req.reqs, queues := u.queues, xlt.withdraws := u.xlt.withdraws,
                   tgt.arrived := u.tgt.arrived }) ∧
  (∀ (f : Frame) (r : Request) (w : Fin 4) (hpa : Word) (s : State), s.powered = true → f.part = 0 →
    f.swRsp = false → f.be = stOk → f.ty = tyLoadRsp → findRequest f s = some r → r.kind = .load →
    r.who = .window w → r.hpa = some hpa → (∀ x ∈ s.req.reqs, heldKind x = true → x.sentAt ≠ none) →
    ∃ u, Sys2Proof.Machine.exec (.loadRsp f) s = .next u ∧
      u.req.hostAnswers = s.req.hostAnswers ++ [⟨hpa, false, f.data, false⟩] ∧
      u.req.reqs = s.req.reqs.filter (fun x => decide (x.order ≠ r.order)) ∧
      (∀ o, getReg o u = getReg o s) ∧
      u = { s with req := u.req, counters := u.counters, xlt.withdraws := u.xlt.withdraws,
                   tgt.arrived := u.tgt.arrived }) ∧
  (∀ (f : Frame) (r : Request) (s : State), s.powered = true → f.part = 0 → findRequest f s = some r →
    ∀ c ty, (c, ty) ∈ [((.loadRsp f : Instr), tyLoadRsp), (.bulkAck f, tyBulkAck), (.atomicRsp f, tyAtomicRsp)] ∨
      (c = .storeAck f ∧ ty = tyStoreAck ∧ findSealed f s = none) → f.ty = ty →
    ∃ u, Sys2Proof.Machine.exec c s = .next u ∧
      (f.swRsp = false → f.be = stRetryBusy → u.req.reqs = updFirst (fun x => decide (x.order = r.order))
        (fun _ => { r with busy := r.busy + 1, counted := r.counted - 1,
                           busyUntil := some (s.clock + 1000 * min 64 (2 ^ r.busy)) }) s.req.reqs) ∧
      (f.swRsp = true → f.be = stAged ∨ f.be = stUnreachable ∨ f.be = stMalformed →
        u.req.reqs = updFirst (fun x => decide (x.order = r.order))
          (fun _ => { r with lost := r.lost + 1, lastSwitch := f.be }) s.req.reqs) ∧
      (f.be = stRetryBusy ∧ f.swRsp = false ∨ f.swRsp = true ∧ f.be = stAged →
        u = { s with req.reqs := u.req.reqs, tgt.arrived := u.tgt.arrived })) ∧
  (∀ (f : Frame) (r : Request) (s : State), s.powered = true → f.part ≠ 0 → slotRec f.part s = none →
    findRequest f s = some r → f.ty = tyLoadRsp → ∃ u, Sys2Proof.Machine.exec (.loadRsp f) s = .next u ∧
      u.req = s.req ∧ getBit rSecStatus 2 u = true ∧ (∀ o, o ≠ rSecStatus → getReg o u = getReg o s) ∧
      u = { s with regs := u.regs, counters := u.counters, tgt.arrived := u.tgt.arrived })

/-- Tier 2. REQUEST_RETRY_TIMEOUT, RETRY_BUSY_BACKOFF, REQUEST_FINAL_TIMEOUT, FENCE_REQUEST_DEADLINE and
FLAGGED_STORE_RELEASE: the timeline of R133 and R134, the release of R105, and R106's end of a held flagged request. -/
def Obligations.RequestTimeline : Prop :=
  (∀ (who : Requester) (seq : BitVec 24) (r : Request) (s : State), s.powered = true →
    findSent who seq s = some r → r.keySlot = none ∨ r.copies ≤ 255 → r.busyUntil = none → r.counted < 4 →
    r.lastSent + 20000 ≤ s.clock → s.clock ≤ lastCopyAt r →
    ∃ u, Sys2Proof.Machine.exec (.requestRetryTimeout who seq) s = .next u ∧
      u.sw.coreIn = s.sw.coreIn ++ [⟨requesterInput who s, s.clock, now s, true, { r.frame with
        sealed := sealUnder r.keySlot r.copies s }⟩] ∧
      u.req.reqs = updFirst (fun x => decide (x.order = r.order)) (fun _ => { r with
        lastSent := s.clock, copies := r.copies + 1, counted := r.counted + 1 }) s.req.reqs ∧
      u = { s with req.reqs := u.req.reqs, sw.coreIn := u.sw.coreIn, regs := u.regs }) ∧
  (∀ (who : Requester) (seq : BitVec 24) (r : Request) (s : State), s.powered = true →
    findSent who seq s = some r → 4 ≤ r.counted ∨ lastCopyAt r < s.clock ∨ s.clock < r.lastSent + 20000 →
    Sys2Proof.Machine.exec (.requestRetryTimeout who seq) s = .next s) ∧
  (∀ (who : Requester) (seq : BitVec 24) (r : Request) (t : Nat) (s : State), s.powered = true →
    findSent who seq s = some r → r.keySlot = none ∨ r.copies ≤ 255 → r.busyUntil = some t → t ≤ s.clock → s.clock ≤ lastCopyAt r →
    ∃ u, Sys2Proof.Machine.exec (.retryBusyBackoff who seq) s = .next u ∧
      u.sw.coreIn = s.sw.coreIn ++ [⟨requesterInput who s, s.clock, now s, true, { r.frame with
        sealed := sealUnder r.keySlot r.copies s }⟩] ∧
      u.req.reqs = updFirst (fun x => decide (x.order = r.order)) (fun _ => { r with
        lastSent := s.clock, copies := r.copies + 1, counted := r.counted + 1, busyUntil := none }) s.req.reqs ∧
      u = { s with req.reqs := u.req.reqs, sw.coreIn := u.sw.coreIn, regs := u.regs }) ∧
  (∀ (w : Fin 4) (seq : BitVec 24) (r : Request) (hpa : Word) (s : State), s.powered = true →
    findSent (.window w) seq s = some r → noMoreCopies r s = true → r.lastSent + 40000 ≤ s.clock → r.kind = .load →
    r.hpa = some hpa → r.busy ≠ r.copies → r.lost ≠ r.copies → getBit rHstErrA 63 s = false →
    (∀ x ∈ s.req.reqs, heldKind x = true → x.sentAt ≠ none) →
    ∃ u, Sys2Proof.Machine.exec (.requestFinalTimeout (.window w) seq) s = .next u ∧
      u.req.hostAnswers = s.req.hostAnswers ++ [⟨hpa, false, [], true⟩] ∧ getBit rHstStatus 0 u = true ∧
      getBit rHstErrA 63 u = true ∧ getField rHstErrA 55 48 u = 3 ∧ getField rHstErrA 23 0 u = r.frame.seq.toNat ∧
      getField rHstErrA 57 56 u = w.val ∧
      (getReg rHstErrB u).toNat = r.frame.dst.toNat * 2 ^ 48 + r.frame.off.toNat ∧
      (∀ o, o ≠ rHstStatus → o ≠ rHstErrA → o ≠ rHstErrB → getReg o u = getReg o s) ∧
      u.req.reqs = s.req.reqs.filter (fun x => decide (x.order ≠ r.order))) ∧
  (∀ (q : Fin 512) (seq : BitVec 24) (r : Request) (t0 : Nat) (s : State), s.powered = true →
    findSent (.queue q) seq s = some r → noMoreCopies r s = true → r.lastSent + 40000 ≤ s.clock → r.kind = .store →
    r.sentAt = some t0 → r.busy ≠ r.copies → r.lost ≠ r.copies → s.req.records.length < 4096 →
    (∀ x ∈ s.req.reqs, heldKind x = true → x.sentAt ≠ none) →
    ∃ u x, Sys2Proof.Machine.exec (.requestFinalTimeout (.queue q) seq) s = .next u ∧
      u.req.settling = s.req.settling ++ [x] ∧ x.who = .queue q ∧ x.frame = r.frame ∧ x.t0 = t0 ∧
      u.sw.coreIn = s.sw.coreIn ++ [⟨requesterInput (.queue q) s, s.clock, now s, true, queryFrame r.frame⟩] ∧
      u.req.reqs = s.req.reqs.filter (fun x => decide (x.order ≠ r.order)) ∧
      (∀ p : Fin 512, p ≠ q → getQ p.val u = getQ p.val s) ∧
      u = { s with req := u.req, sw.coreIn := u.sw.coreIn, queues := u.queues, xlt.withdraws := u.xlt.withdraws }) ∧
  (∀ (q : Fin 512) (seq : BitVec 24) (r : Request) (i : BitVec 32) (t : Nat) (s : State), s.powered = true →
    findSent (.queue q) seq s = some r → r.fencedAt = some t → t + 100000 ≤ s.clock → r.kind = .load →
    r.desc = some i → r.detached = false → r.busy ≠ r.copies → r.lost ≠ r.copies →
    (∀ x ∈ s.req.reqs, heldKind x = true → x.sentAt ≠ none) →
    ∃ u, Sys2Proof.Machine.exec (.fenceRequestDeadline (.queue q) seq) s = .next u ∧
      u.req.reqs = s.req.reqs.filter (fun x => decide (x.order ≠ r.order)) ∧
      (getQ q.val u).fetched = updFirst (fun d => decide (d.index = i))
        (fun d => failDesc stUnreachable { d with readWait := false, readList := false }) (getQ q.val s).fetched ∧
      (∀ p : Fin 512, p ≠ q → getQ p.val u = getQ p.val s) ∧
      u = { s with req.reqs := u.req.reqs, queues := u.queues, xlt.withdraws := u.xlt.withdraws }) ∧
  (∀ (who : Requester) (r : Request) (s : State), s.powered = true →
    s.req.reqs.find? (fun x => decide (x.who = who) && x.sentAt.isNone && heldKind x) = some r → r.kind = .flagged →
    ivHeld r s = false → r.copies = 0 → maySend r s = true →
    (∀ x ∈ s.req.reqs, x ≠ r → x.sentAt = none → heldKind x = true → x.earlier = none) →
    ∃ u, Sys2Proof.Machine.exec (.flaggedStoreRelease who) s = .next u ∧
      u.sw.coreIn = s.sw.coreIn ++ [⟨requesterInput who s, s.clock, now s, true, { r.frame with
        seq := BitVec.ofNat 24 (sentCount (streamOf r.who) s), sealed := sealUnder r.keySlot 0 s }⟩] ∧
      sentCount (streamOf r.who) u = sentCount (streamOf r.who) s + 1 ∧
      u = { s with req := u.req, sw.coreIn := u.sw.coreIn, regs := u.regs }) ∧
  (∀ (who : Requester) (r : Request) (s : State), s.powered = true →
    s.req.reqs.find? (fun x => decide (x.who = who) && x.sentAt.isNone && heldKind x) = some r → r.keySlot = none →
    storeAhead r s = true → r.earlier = none →
    (∀ x ∈ s.req.reqs, x.sentAt = none → heldKind x = true → x.earlier = none) →
    Sys2Proof.Machine.exec (.flaggedStoreRelease who) s = .next s) ∧
  (∀ (q : Fin 512) (r : Request) (i : BitVec 32) (e : Nat × Byte) (s : State), s.powered = true →
    s.req.reqs.find? (fun x => decide (x.who = .queue q) && x.sentAt.isNone && heldKind x) = some r →
    r.keySlot = none → storeAhead r s = false → r.earlier = some e → r.desc = some i → r.detached = false →
    ∃ u, Sys2Proof.Machine.exec (.flaggedStoreRelease (.queue q)) s = .next u ∧
      (∀ x ∈ u.req.reqs, x.order ≠ r.order) ∧ u.sw = s.sw ∧
      (getQ q.val u).fetched = updFirst (fun d => decide (d.index = i)) (descOutcome r e.2 [])
        (getQ q.val s).fetched ∧ (∀ p : Fin 512, p ≠ q → getQ p.val u = getQ p.val s))

/-- Tier 2. STATUS_QUERY_RETRY, STATUS_RSP, SETTLEMENT_DEADLINE and SETTLEMENT_RECORD_POST: queries every 100 µs, the
outcomes of R139 in the records of R140, posted in order to the settlement ring. -/
def Obligations.SettlementOfRequests : Prop :=
  (∀ (who : Requester) (seq : BitVec 24) (x : Sys2Proof.Machine.Settlement) (s : State), s.powered = true →
    findSettling who seq s = some x → x.lastQuery + 100000 ≤ s.clock → s.clock ≤ x.t0 + 2400000 →
    ∃ u, Sys2Proof.Machine.exec (.statusQueryRetry who seq) s = .next u ∧
      u.sw.coreIn = s.sw.coreIn ++ [⟨requesterInput who s, s.clock, now s, true, queryFrame x.frame⟩] ∧
      u.req.settling.length = s.req.settling.length ∧
      u = { s with req.settling := u.req.settling, sw.coreIn := u.sw.coreIn }) ∧
  (∀ (who : Requester) (seq : BitVec 24) (x : Sys2Proof.Machine.Settlement) (s : State), s.powered = true →
    findSettling who seq s = some x → x.t0 + 2400000 < s.clock →
    Sys2Proof.Machine.exec (.statusQueryRetry who seq) s = .next s) ∧
  (∀ (f : Frame) (x : Sys2Proof.Machine.Settlement) (s : State), s.powered = true → f.ty = tyStatusRsp →
    s.req.settling = [x] → streamOf x.who = f.stream.toNat → x.frame.seq = f.seq → x.frame.dst = f.src →
    s.req.records.length < 4096 → ∃ u, Sys2Proof.Machine.exec (.statusRsp f) s = .next u ∧
      (∀ st out, st = (slotByte (f.data.headD 0) 0).toNat →
        (st = 1 ∧ f.be = stOk ∧ out = 1 ∨ st = 1 ∧ f.be = stReleased ∧ out = 2 ∨ st = 0 ∧ f.be = stOk ∧ out = 0 ∨
          st = 2 ∧ f.be = stOk ∧ s.clock ≤ x.t0 + 2500000 ∧ out = 0 ∨
          st = 2 ∧ f.be = stOk ∧ x.t0 + 2500000 < s.clock ∧ out = 3 ∨ st = 3 ∧ f.be = stOk ∧ out = 3) →
        ∃ rec_, u.req.records = s.req.records ++ [rec_] ∧ u.req.settling = [] ∧ field rec_.toNat 79 72 = out ∧
          field rec_.toNat 15 0 = streamOf x.who ∧ field rec_.toNat 47 32 = x.frame.dst.toNat ∧
          field rec_.toNat 71 48 = x.frame.seq.toNat) ∧
      (f.be ≠ stOk → f.be ≠ stReleased → u.req = s.req) ∧
      u = { s with req := u.req, tgt.arrived := u.tgt.arrived }) ∧
  (∀ (who : Requester) (seq : BitVec 24) (x : Sys2Proof.Machine.Settlement) (s : State), s.powered = true →
    s.req.settling = [x] → x.who = who → x.frame.seq = seq → x.t0 + 2500000 ≤ s.clock →
    s.req.records.length < 4096 → ∃ u rec_, Sys2Proof.Machine.exec (.settlementDeadline who seq) s = .next u ∧
      u.req.settling = [] ∧ u.req.records = s.req.records ++ [rec_] ∧ field rec_.toNat 79 72 = 3 ∧
      u = { s with req := u.req }) ∧
  (∀ (r : BitVec 256) (t : List (BitVec 256)) (s : State), s.powered = true → s.req.records = r :: t →
    evRingReady rSettleRing rSettlePtrs 32 s = true → getBit rSettleRing 63 s = false → s.req.held = [] →
    ∃ u, Sys2Proof.Machine.exec .settlementRecordPost s = .next u ∧ u.req.records = t ∧
      getBit rLedgerStatus 0 u = true ∧
      getField rSettlePtrs 11 0 u = (getField rSettlePtrs 11 0 s + 1) % evRingSize rSettleRing s ∧
      u.hostMem = writeCells (bytesOfNat 32 (r.toNat + bit1 (decide (s.req.settlePass % 2 = 0)) * 2 ^ 87))
        (getField rSettleRing 51 12 s * 4096 + 32 * getField rSettlePtrs 11 0 s) s.hostMem ∧
      (∀ o, o ≠ rLedgerStatus → o ≠ rSettlePtrs → getReg o u = getReg o s) ∧
      u = { s with req := u.req, hostMem := u.hostMem, regs := u.regs, counters := u.counters, host := u.host }) ∧
  (∀ (r : BitVec 256) (t : List (BitVec 256)) (s : State), s.powered = true → s.req.records = r :: t →
    evRingReady rSettleRing rSettlePtrs 32 s = true → getBit rSettleRing 63 s = true → s.req.held = [] →
    ∃ u, Sys2Proof.Machine.exec .settlementRecordPost s = .next u ∧ u.req.records = t ∧
      getBit rLedgerStatus 0 u = true ∧ u.hostMem = s.hostMem ∧
      getField rSettlePtrs 11 0 u = (getField rSettlePtrs 11 0 s + 1) % evRingSize rSettleRing s ∧
      u.mem = (storeBytes (getField rSettleRing 51 12 s * 4096 + 32 * getField rSettlePtrs 11 0 s)
        (bytesOfNat 32 (r.toNat + bit1 (decide (s.req.settlePass % 2 = 0)) * 2 ^ 87)) s).mem) ∧
  (∀ (r : BitVec 256) (t : List (BitVec 256)) (x : Sys2Proof.Machine.Settlement)
      (l : List Sys2Proof.Machine.Settlement) (s : State),
    s.powered = true → s.req.records = r :: t → t.length < 4096 → evRingReady rSettleRing rSettlePtrs 32 s = true →
    s.req.held = x :: l → ∃ u, Sys2Proof.Machine.exec .settlementRecordPost s = .next u ∧ u.req.records = t ∧
      u.req.held = l ∧ u.req.settling = s.req.settling ++ [{ x with lastQuery := s.clock }] ∧
      (s.clock ≤ x.t0 + 2400000 → ∃ e, u.sw.coreIn = s.sw.coreIn ++ [e] ∧ e.frame = queryFrame x.frame)) ∧
  (∀ s : State, s.powered = true → s.req.records = [] ∨ evRingReady rSettleRing rSettlePtrs 32 s = false →
    Sys2Proof.Machine.exec .settlementRecordPost s = .next s)

/-- Tier 2. CXL_MEM_READ and CXL_MEM_WRITE: an access in a committed, enabled window becomes a request to
FA = FA_BASE + (HPA - base), a part of a line as a masked store of its fabric line; one the window does not serve is
answered at once, a read poisoned, and logged; an address in no window is not this part's. -/
def Obligations.HostWindow : Prop :=
  (∀ (hpa : Word) (w : Fin 4) (d : Decoder) (s : State), s.powered = true → s.host.linkUp = true →
    windowOf (hpa.toNat / 64 * 64) s = some (w, d) → isReady s = true → getBit (rHstWin w.val) 63 s = true →
    getField (rHstWin w.val) 55 48 s = 0 → s.req.reqs = [] → s.req.settling = [] → s.req.held = [] →
    ∃ u r, Sys2Proof.Machine.exec (.cxlMemRead hpa) s = .next u ∧ u.req.reqs = [r] ∧ r.kind = .load ∧
      r.who = .window w ∧ r.hpa = some (BitVec.ofNat 64 (hpa.toNat / 64 * 64)) ∧ r.sentAt = some s.clock ∧
      r.frame.ty = tyLoad ∧ r.frame.len = 2 ∧
      (∀ fa, fa = getField (rHstWin w.val) 33 0 s * 2 ^ 30 + (hpa.toNat / 64 * 64 - d.base.toNat) →
        r.frame.dst = BitVec.ofNat 16 (fa / 2 ^ 48) ∧ r.frame.off = BitVec.ofNat 48 fa) ∧
      u.sw.coreIn.length = s.sw.coreIn.length + 1 ∧
      u = { s with req := u.req, sw.coreIn := u.sw.coreIn, counters := u.counters }) ∧
  (∀ (hpa : Word) (data : BitVec 512) (w : Fin 4) (d : Decoder) (s : State), s.powered = true →
    s.host.linkUp = true → windowOf (hpa.toNat / 64 * 64) s = some (w, d) → isReady s = true →
    getBit (rHstWin w.val) 63 s = true → getField (rHstWin w.val) 55 48 s = 0 → s.req.reqs = [] →
    s.req.settling = [] → s.req.held = [] →
    ∃ u r, Sys2Proof.Machine.exec (.cxlMemWrite hpa data (BitVec.allOnes 64)) s = .next u ∧ u.req.reqs = [r] ∧
      r.kind = .store ∧ r.who = .window w ∧ r.sentAt = some s.clock ∧ r.frame.ty = tyStore ∧ r.frame.be = 0 ∧
      r.frame.data = [BitVec.ofNat 256 data.toNat, BitVec.ofNat 256 (data.toNat / 2 ^ 256)] ∧
      (∀ fa, fa = getField (rHstWin w.val) 33 0 s * 2 ^ 30 + (hpa.toNat / 64 * 64 - d.base.toNat) →
        r.frame.dst = BitVec.ofNat 16 (fa / 2 ^ 48) ∧ r.frame.off = BitVec.ofNat 48 fa) ∧
      u = { s with req := u.req, sw.coreIn := u.sw.coreIn, counters := u.counters }) ∧
  (∀ (hpa : Word) (data : BitVec 512) (mask : BitVec 64) (w : Fin 4) (d : Decoder) (fa : Nat) (s : State),
    s.powered = true → s.host.linkUp = true → windowOf (hpa.toNat / 64 * 64) s = some (w, d) → isReady s = true →
    getBit (rHstWin w.val) 63 s = true → getField (rHstWin w.val) 55 48 s = 0 → s.req.reqs = [] →
    s.req.settling = [] → s.req.held = [] → mask ≠ BitVec.allOnes 64 →
    fa = getField (rHstWin w.val) 33 0 s * 2 ^ 30 + (hpa.toNat / 64 * 64 - d.base.toNat) → fa % 64 = 0 →
    ∃ u r, Sys2Proof.Machine.exec (.cxlMemWrite hpa data mask) s = .next u ∧ u.req.reqs = [r] ∧
      r.kind = .store ∧ r.sentAt = some s.clock ∧ r.frame.ty = tyStore ∧ r.frame.len = 3 ∧
      r.frame.dst = BitVec.ofNat 16 (fa / 2 ^ 48) ∧ r.frame.off = BitVec.ofNat 48 (fa / 256 * 256) ∧
      r.frame.be = BitVec.ofNat 8 (3 * 2 ^ (fa % 256 / 32)) ∧
      r.frame.data = [BitVec.ofNat 256 data.toNat, BitVec.ofNat 256 (data.toNat / 2 ^ 256),
        BitVec.ofNat 256 (mask.toNat * 2 ^ (fa % 256))] ∧
      u = { s with req := u.req, sw.coreIn := u.sw.coreIn, counters := u.counters }) ∧
  (∀ (hpa : Word) (w : Fin 4) (d : Decoder) (s : State), s.powered = true →
    s.host.linkUp = true → windowOf (hpa.toNat / 64 * 64) s = some (w, d) → isReady s = true →
    getBit (rHstWin w.val) 63 s = true → windowGranted (winPart w.val s) s = false → getBit rHstErrA 63 s = false →
    ∃ u, Sys2Proof.Machine.exec (.cxlMemRead hpa) s = .next u ∧
      u.req.hostAnswers = s.req.hostAnswers ++ [⟨BitVec.ofNat 64 (hpa.toNat / 64 * 64), false, [], true⟩] ∧
      getField rHstErrA 55 48 u = 4 ∧ u.sw = s.sw) ∧
  (∀ (hpa : Word) (data : BitVec 512) (mask : BitVec 64) (w : Fin 4) (d : Decoder) (s : State), s.powered = true →
    s.host.linkUp = true → windowOf (hpa.toNat / 64 * 64) s = some (w, d) →
    isReady s = false ∨ getBit (rHstWin w.val) 63 s = false → getBit rHstErrA 63 s = false →
    ∃ u v, Sys2Proof.Machine.exec (.cxlMemRead hpa) s = .next u ∧
      Sys2Proof.Machine.exec (.cxlMemWrite hpa data mask) s = .next v ∧
      u.req.hostAnswers = s.req.hostAnswers ++ [⟨BitVec.ofNat 64 (hpa.toNat / 64 * 64), false, [], true⟩] ∧
      v.req.hostAnswers = s.req.hostAnswers ++ [⟨BitVec.ofNat 64 (hpa.toNat / 64 * 64), true, [], false⟩] ∧
      (∀ x, x = u ∨ x = v → x.req.reqs = s.req.reqs ∧ getBit rHstStatus 0 x = true ∧ getBit rHstErrA 63 x = true ∧
        getField rHstErrA 55 48 x = 3 ∧ x.mem = s.mem ∧ x.sw = s.sw ∧
        (∀ o, o ≠ rHstStatus → o ≠ rHstErrA → o ≠ rHstErrB → getReg o x = getReg o s))) ∧
  (∀ (hpa : Word) (data : BitVec 512) (mask : BitVec 64) (s : State), s.powered = true →
    s.host.linkUp = false ∨ windowOf (hpa.toNat / 64 * 64) s = none →
    Sys2Proof.Machine.exec (.cxlMemRead hpa) s = .next s ∧
    Sys2Proof.Machine.exec (.cxlMemWrite hpa data mask) s = .next s)

/-- Tier 2. LOAD, STORE, STORE_FLAGGED, BULK_DATA and ATOMIC at the target: a load of a line nothing waits on is answered
with the bytes of memory; a write that passes its checks waits in the queues of its lines with its sequence PENDING; a
failed check is answered and bars the sequence; a copy of an applied write is answered and applied to nothing; a store to
the host aperture goes to host memory; a request waits at its port while its controllers' queues are full. -/
def Obligations.TargetRequests : Prop :=
  (∀ (port : Fin 8) (f : Frame) (l : Nat) (s : State), s.powered = true → f.ty = tyLoad → f.part = 0 →
    commonStatus f (malformedRequest f) s = stOk → f.off.toNat < apertureBase → requestLines f = [l] →
    s.tgt.comb = [] → s.tgt.reqs = [] → lineWaits l s = false → lineStatus l s = stOk →
    ∃ u g, Sys2Proof.Machine.exec (.load port f) s = .next u ∧
      u.sw.coreIn = s.sw.coreIn ++ [⟨36 + port.val, s.clock, now s, true, g⟩] ∧ g.ty = tyLoadRsp ∧ g.be = stOk ∧ g.dst = f.src ∧
      g.seq = f.seq ∧ g.stream = f.stream ∧
      g.data = (List.range f.len.toNat).map (fun i => slotOf (readMem s (f.off.toNat + 32 * i) 32)) ∧
      u.mem = s.mem ∧ u.tgt.streams = s.tgt.streams ∧ u.tgt.results = s.tgt.results ∧ u.queues = s.queues ∧
      u.req = s.req) ∧
  (∀ (port : Fin 8) (f : Frame) (s : State), s.powered = true → f.ty = tyLoad → f.part = 0 →
    queueRoom f s = true → commonStatus f (malformedRequest f) s ≠ stOk → ∃ u g, Sys2Proof.Machine.exec (.load port f) s = .next u ∧
      u.sw.coreIn = s.sw.coreIn ++ [⟨36 + port.val, s.clock, now s, true, g⟩] ∧ g.ty = tyLoadRsp ∧
      g.be = commonStatus f (malformedRequest f) s ∧ g.data = [] ∧
      u = { s with sw.coreIn := u.sw.coreIn, tgt.arrived := u.tgt.arrived, counters := u.counters }) ∧
  (∀ (port : Fin 8) (f : Frame) (s : State), s.powered = true → f.part = 0 → s.tgt.quarantineEnd = none →
    findStream f.src f.stream s = none → s.tgt.streams.length < 16384 → f.off.toNat < apertureBase →
    queueRoom f s = true → ∀ c ty, (c, ty) ∈ [((.store port f : Instr), tyStore), (.storeFlagged port f, tyFlagged),
        (.bulkData port f, tyBulk), (.atomic port f, tyAtomic)] → f.ty = ty →
      (ty ≠ tyAtomic → storeStatus f s = stOk) →
      (ty = tyAtomic → atomicStatus f s = stOk ∧ resultsHeld s < 65536) →
    ∃ u r x, Sys2Proof.Machine.exec c s = .next u ∧ u.tgt.reqs = s.tgt.reqs ++ [r] ∧ r.frame = f ∧
      r.id = s.tgt.nextId ∧ r.port = port.val ∧
      (∀ e, e ∈ u.tgt.comb ↔ e ∈ s.tgt.comb ∨
        ∃ l ∈ (if ty = tyAtomic then [f.off.toNat / 256] else requestLines f), e = ⟨s.tgt.nextId, port.val, l,
          if ty = tyAtomic then .atomic else if ty = tyFlagged then .flagged else .store, s.clock⟩) ∧
      ((∀ e ∈ s.tgt.comb, e.arrived ≠ s.clock) → u.tgt.comb.map (fun e => (e.id, e.line)) =
        s.tgt.comb.map (fun e => (e.id, e.line)) ++
          (if ty = tyAtomic then [f.off.toNat / 256] else requestLines f).map (fun l => (s.tgt.nextId, l))) ∧
      findStream f.src f.stream u = some x ∧ x.top = f.seq + 1 ∧ seqState x f.seq = .pending ∧
      u.sw = s.sw ∧ u = { s with tgt := u.tgt, counters := u.counters }) ∧
  (∀ (port : Fin 8) (f : Frame) (st : Byte) (s : State), s.powered = true → f.part = 0 →
    s.tgt.quarantineEnd = none → findStream f.src f.stream s = none → s.tgt.streams.length < 16384 → st ≠ stOk →
    st ≠ stUncorrectable → st ≠ stIntegrity → queueRoom f s = true →
    ∀ c ty, (c, ty) ∈ [((.store port f : Instr), tyStore), (.storeFlagged port f, tyFlagged),
        (.bulkData port f, tyBulk), (.atomic port f, tyAtomic)] → f.ty = ty →
      (ty ≠ tyAtomic → storeStatus f s = st) → (ty = tyAtomic → atomicStatus f s = st) →
    ∃ u g x, Sys2Proof.Machine.exec c s = .next u ∧ u.sw.coreIn = s.sw.coreIn ++ [⟨36 + port.val, s.clock, now s, true, g⟩] ∧
      g.be = st ∧ g.swRsp = false ∧ findStream f.src f.stream u = some x ∧ seqState x f.seq = .barred ∧
      u.tgt.reqs = s.tgt.reqs ∧ u.tgt.comb = s.tgt.comb ∧
      u = { s with tgt := u.tgt, counters := u.counters, sw.coreIn := u.sw.coreIn }) ∧
  (∀ (port : Fin 8) (f : Frame) (x : StreamRec) (s : State), s.powered = true → f.part = 0 →
    s.tgt.quarantineEnd = none → findStream f.src f.stream s = some x → placeOf x.top f.seq = .window →
    seqState x f.seq = .appliedStore → queueRoom f s = true →
    ∀ c ty, (c, ty) ∈ [((.store port f : Instr), tyStore), (.storeFlagged port f, tyFlagged),
        (.bulkData port f, tyBulk)] → f.ty = ty →
    ∃ u g, Sys2Proof.Machine.exec c s = .next u ∧ u.sw.coreIn = s.sw.coreIn ++ [⟨36 + port.val, s.clock, now s, true, g⟩] ∧
      g.be = stOk ∧ u.tgt.reqs = s.tgt.reqs ∧ u.tgt.comb = s.tgt.comb ∧
      u = { s with tgt := u.tgt, counters := u.counters, sw.coreIn := u.sw.coreIn }) ∧
  (∀ (port : Fin 8) (f : Frame) (t : Nat) (s : State), s.powered = true → f.part = 0 →
    s.tgt.quarantineEnd = some t → queueRoom f s = true →
    ∀ c ty, (c, ty) ∈ [((.store port f : Instr), tyStore), (.storeFlagged port f, tyFlagged),
        (.bulkData port f, tyBulk), (.atomic port f, tyAtomic)] → f.ty = ty →
    ∃ u g, Sys2Proof.Machine.exec c s = .next u ∧ u.sw.coreIn = s.sw.coreIn ++ [⟨36 + port.val, s.clock, now s, true, g⟩] ∧
      g.be = stRetryBusy ∧
      u = { s with tgt.arrived := u.tgt.arrived, counters := u.counters, sw.coreIn := u.sw.coreIn }) ∧
  (∀ (port : Fin 8) (f : Frame) (x : StreamRec) (v : Nat) (s : State), s.powered = true → f.part = 0 →
    f.ty = tyAtomic → s.tgt.quarantineEnd = none → findStream f.src f.stream s = some x →
    placeOf x.top f.seq = .window → seqState x f.seq = .appliedAtomic → queueRoom f s = true →
    resultOf f.src f.stream f.seq (releaseResults f s) = some v →
    ∃ u g, Sys2Proof.Machine.exec (.atomic port f) s = .next u ∧
      u.sw.coreIn = s.sw.coreIn ++ [⟨36 + port.val, s.clock, now s, true, g⟩] ∧ g.be = stOk ∧
      g.data = [BitVec.ofNat 256 (v % 2 ^ 128)] ∧ u.tgt.reqs = s.tgt.reqs ∧ u.tgt.comb = s.tgt.comb ∧ u.mem = s.mem) ∧
  (∀ (port : Fin 8) (f : Frame) (s : State), s.powered = true → f.part = 0 → s.tgt.quarantineEnd = none →
    findStream f.src f.stream s = none → s.tgt.streams.length < 16384 → apertureBase ≤ f.off.toNat →
    storeStatus f s = stOk →
    ∀ c ty, (c, ty) ∈ [((.store port f : Instr), tyStore), (.storeFlagged port f, tyFlagged),
        (.bulkData port f, tyBulk)] → f.ty = ty →
    ∃ u g, Sys2Proof.Machine.exec c s = .next u ∧
      u.sw.coreIn = s.sw.coreIn ++ [⟨36 + port.val, s.clock, now s, true, g⟩] ∧ g.be = stOk ∧
      u.hostMem = (storeHost f s).hostMem ∧ u.mem = s.mem ∧ u.tgt.reqs = s.tgt.reqs) ∧
  (∀ (port : Fin 8) (f : Frame) (s : State), s.powered = true → queueRoom f s = false →
    ∀ c ∈ [(.load port f : Instr), .store port f, .storeFlagged port f, .bulkData port f, .atomic port f],
      Sys2Proof.Machine.exec c s = .next s)

/-- Tier 2. COMBINE_APPLY and ATOMIC_APPLY: the store at the head of a line's queue writes exactly the bytes it carries
there and is answered with OK; an atomic writes its new value at its offset, answers and records the old one, and one
that R126 refuses writes nothing; both record the sequence. -/
def Obligations.LinesApplied : Prop :=
  (∀ (l : BitVec 40) (r : TargetReq) (k : ReqKind) (pt t : Nat) (s : State), s.powered = true →
    s.tgt.comb = [⟨r.id, pt, l.toNat, k, t⟩] → k = .store ∨ k = .flagged → s.tgt.reqs = [r] → r.left = 1 →
    r.status = stOk → r.frame.ty = tyStore ∨ r.frame.ty = tyFlagged ∨ r.frame.ty = tyBulk → s.tgt.waiting = [] →
    ((requestLines r.frame).length = 1 → requestLines r.frame = [l.toNat]) →
    lineWaits l.toNat s = false → max t (tblGet 0 s.tgt.lastApply l.toNat) + 2 ≤ s.clock →
    replacesWhole r.frame l.toNat = true ∨ lineStatus l.toNat s = stOk → s.observe.cairns = [] →
    ∃ u g, Sys2Proof.Machine.exec (.combineApply l) s = .next u ∧
      (∀ e ∈ storeBytesIn r.frame l.toNat, memByte u (256 * l.toNat + e.1) = e.2) ∧
      (∀ a, (∀ e ∈ storeBytesIn r.frame l.toNat, a ≠ 256 * l.toNat + e.1) → memByte u a = memByte s a) ∧
      (r.frame.be = 0 → ∀ a, a / 256 = l.toNat → r.frame.off.toNat ≤ a →
        a < r.frame.off.toNat + 32 * r.frame.len.toNat →
        memByte u a = slotByte (r.frame.data.getD ((a - r.frame.off.toNat) / 32) 0) ((a - r.frame.off.toNat) % 32)) ∧
      u.sw.coreIn = s.sw.coreIn ++ [⟨36 + r.port, s.clock, now s, true, g⟩] ∧ g.be = stOk ∧
      g.ty = rspType r.frame.ty ∧ g.seq = r.frame.seq ∧ g.dst = r.frame.src ∧ u.tgt.comb = [] ∧ u.tgt.reqs = [] ∧
      (∀ y, findStream r.frame.src r.frame.stream s = some y → placeOf y.top r.frame.seq = .window →
        seqState y r.frame.seq = .pending →
        ∃ x, findStream r.frame.src r.frame.stream u = some x ∧ seqState x r.frame.seq = .appliedStore) ∧
      u.queues = s.queues ∧ u.req = s.req) ∧
  (∀ (l : BitVec 40) (r : TargetReq) (pt t v : Nat) (s : State), s.powered = true →
    s.tgt.comb = [⟨r.id, pt, l.toNat, .atomic, t⟩] → s.tgt.reqs = [r] → r.left = 1 → r.status = stOk →
    r.frame.ty = tyAtomic → r.frame.off.toNat / 256 = l.toNat → s.tgt.waiting = [] → lineWaits l.toNat s = false →
    max t (tblGet 0 s.tgt.lastApply l.toNat) + 4 ≤ s.clock → lineStatus l.toNat s = stOk → s.observe.cairns = [] →
    atomicNew r.frame (readNat s r.frame.off.toNat (atBytes r.frame)) = some v →
    ∃ u g, Sys2Proof.Machine.exec (.atomicApply l) s = .next u ∧
      readNat u r.frame.off.toNat (atBytes r.frame) = v % 2 ^ (8 * atBytes r.frame) ∧
      (∀ a, a < r.frame.off.toNat ∨ r.frame.off.toNat + atBytes r.frame ≤ a → memByte u a = memByte s a) ∧
      u.sw.coreIn = s.sw.coreIn ++ [⟨36 + r.port, s.clock, now s, true, g⟩] ∧ g.be = stOk ∧ g.ty = tyAtomicRsp ∧
      g.data = [BitVec.ofNat 256 (readNat s r.frame.off.toNat (atBytes r.frame) % 2 ^ 128)] ∧
      u.tgt.comb = [] ∧ u.tgt.reqs = [] ∧
      (∀ y, findStream r.frame.src r.frame.stream s = some y → placeOf y.top r.frame.seq = .window →
        seqState y r.frame.seq = .pending →
        (∃ x, findStream r.frame.src r.frame.stream u = some x ∧ seqState x r.frame.seq = .appliedAtomic) ∧
        u.tgt.results = s.tgt.results ++ [⟨r.frame.src, r.frame.stream, r.frame.seq,
          readNat s r.frame.off.toNat (atBytes r.frame)⟩]) ∧
      u.queues = s.queues ∧ u.req = s.req) ∧
  (∀ (l : BitVec 40) (r : TargetReq) (pt t : Nat) (s : State), s.powered = true →
    s.tgt.comb = [⟨r.id, pt, l.toNat, .atomic, t⟩] → s.tgt.reqs = [r] → r.left = 1 → r.status = stOk →
    r.frame.ty = tyAtomic → s.tgt.waiting = [] → lineWaits l.toNat s = false →
    max t (tblGet 0 s.tgt.lastApply l.toNat) + 4 ≤ s.clock → lineStatus l.toNat s = stOk →
    atomicNew r.frame (readNat s r.frame.off.toNat (atBytes r.frame)) = none →
    ∃ u g, Sys2Proof.Machine.exec (.atomicApply l) s = .next u ∧ u.mem = s.mem ∧
      u.sw.coreIn = s.sw.coreIn ++ [⟨36 + r.port, s.clock, now s, true, g⟩] ∧ g.be = stMalformed ∧
      (∀ y, findStream r.frame.src r.frame.stream s = some y → placeOf y.top r.frame.seq = .window →
        seqState y r.frame.seq = .pending →
        ∃ x, findStream r.frame.src r.frame.stream u = some x ∧ seqState x r.frame.seq = .barred)) ∧
  (∀ (f : Frame) (old : Nat),
    (atOp f = 1 → atomicNew f old = some ((old + atOperand f) % 2 ^ (8 * atBytes f))) ∧
    (atOp f = 9 → atomicNew f old = some (atOperand f)) ∧
    (atOp f = 10 → atomicNew f old = some (if old = atCompare f then atOperand f else old)))

/-- Tier 2. STATUS_QUERY, LEDGER_RETENTION_EXPIRY and QUARANTINE_END: a query of a sequence the ledger does not hold bars
it and answers NO_RECORD or NOT_APPLIED, APPLIED for an applied one, LEDGER_RESET in quarantine; a copy delivered in the same
cycle reaches the ledger first (R132); a stream's record goes
2.5 ms after its last arrival; the quarantine ends at its time. -/
def Obligations.LedgerQueries : Prop :=
  (∀ (f : Frame) (s : State), s.powered = true → f.ty = tyQuery → s.tgt.quarantineEnd = none →
    findStream f.src f.stream s = none → s.tgt.streams.length < 16384 →
    (∀ e ∈ s.tgt.arrived, e.2.src = f.src → e.2.stream = f.stream → e.2.seq = f.seq → e.2.ty = tyQuery) →
    ∃ u g x, Sys2Proof.Machine.exec (.statusQuery f) s = .next u ∧
      u.sw.coreIn = s.sw.coreIn ++ [⟨36, s.clock, now s, true, g⟩] ∧ g.ty = tyStatusRsp ∧ g.be = stOk ∧
      (slotByte (g.data.headD 0) 0).toNat = 2 ∧ findStream f.src f.stream u = some x ∧
      seqState x f.seq = .barred ∧ u = { s with sw.coreIn := u.sw.coreIn, tgt := u.tgt }) ∧
  (∀ (f : Frame) (x : StreamRec) (s : State), s.powered = true → f.ty = tyQuery → s.tgt.quarantineEnd = none →
    findStream f.src f.stream s = some x →
    (∀ e ∈ s.tgt.arrived, e.2.src = f.src → e.2.stream = f.stream → e.2.seq = f.seq → e.2.ty = tyQuery) →
    ∃ u, Sys2Proof.Machine.exec (.statusQuery f) s = .next u ∧
      (placeOf x.top f.seq = .window → seqState x f.seq = .appliedStore →
        resultOf f.src f.stream f.seq s = none → ∃ g, u.sw.coreIn = s.sw.coreIn ++ [⟨36, s.clock, now s, true, g⟩] ∧
          g.be = stOk ∧ (slotByte (g.data.headD 0) 0).toNat = 1) ∧
      (placeOf x.top f.seq = .ahead → ∃ g y, u.sw.coreIn = s.sw.coreIn ++ [⟨36, s.clock, now s, true, g⟩] ∧
        (slotByte (g.data.headD 0) 0).toNat = 0 ∧ findStream f.src f.stream u = some y ∧
        seqState y f.seq = .barred) ∧
      (placeOf x.top f.seq = .behind → ∃ g, u.sw.coreIn = s.sw.coreIn ++ [⟨36, s.clock, now s, true, g⟩] ∧
        (slotByte (g.data.headD 0) 0).toNat = 2) ∧
      (placeOf x.top f.seq = .window → seqState x f.seq = .none ∨ seqState x f.seq = .barred →
        ∃ g y, u.sw.coreIn = s.sw.coreIn ++ [⟨36, s.clock, now s, true, g⟩] ∧
          (slotByte (g.data.headD 0) 0).toNat = 0 ∧ findStream f.src f.stream u = some y ∧
          seqState y f.seq = .barred) ∧
      (placeOf x.top f.seq = .window → seqState x f.seq = .appliedAtomic →
        ∃ g, u.sw.coreIn = s.sw.coreIn ++ [⟨36, s.clock, now s, true, g⟩] ∧
          (slotByte (g.data.headD 0) 0).toNat = 1 ∧
          (∀ v, resultOf f.src f.stream f.seq s = some v → g.be = stOk ∧
            (g.data.headD 0).toNat / 2 ^ 128 = v % 2 ^ 128) ∧
          (resultOf f.src f.stream f.seq s = none → g.be = stReleased)) ∧
      (placeOf x.top f.seq = .window → seqState x f.seq = .pending → u.sw = s.sw ∧
        u.tgt.waiting = s.tgt.waiting ++ [f]) ∧
      u = { s with sw.coreIn := u.sw.coreIn, tgt := u.tgt }) ∧
  (∀ (f : Frame) (t : Nat) (s : State), s.powered = true → f.ty = tyQuery → s.tgt.quarantineEnd = some t →
    (∀ e ∈ s.tgt.arrived, e.2.src = f.src → e.2.stream = f.stream → e.2.seq = f.seq → e.2.ty = tyQuery) →
    ∃ u g, Sys2Proof.Machine.exec (.statusQuery f) s = .next u ∧ u.sw.coreIn = s.sw.coreIn ++ [⟨36, s.clock, now s, true, g⟩] ∧
      (slotByte (g.data.headD 0) 0).toNat = 3 ∧
      u = { s with sw.coreIn := u.sw.coreIn, tgt.arrived := u.tgt.arrived }) ∧
  (∀ (src sid : BitVec 16) (x : StreamRec) (s : State), s.powered = true → findStream src sid s = some x →
    x.lastArrival + 2500000 ≤ s.clock →
    ∃ u, Sys2Proof.Machine.exec (.ledgerRetentionExpiry src sid) s = .next u ∧ findStream src sid u = none ∧
      (∀ y ∈ u.tgt.results, y.src = src → y.sid ≠ sid) ∧
      (∀ a b, a ≠ src ∨ b ≠ sid → findStream a b u = findStream a b s) ∧
      u = { s with tgt.streams := u.tgt.streams, tgt.results := u.tgt.results }) ∧
  (∀ (src sid : BitVec 16) (x : StreamRec) (s : State), s.powered = true → findStream src sid s = some x →
    s.clock < x.lastArrival + 2500000 →
    Sys2Proof.Machine.exec (.ledgerRetentionExpiry src sid) s = .next s) ∧
  (∀ (t : Nat) (s : State), s.powered = true → s.tgt.quarantineEnd = some t → t ≤ s.clock →
    Sys2Proof.Machine.exec .quarantineEnd s = .next { s with tgt.quarantineEnd := none }) ∧
  (∀ (t : Nat) (s : State), s.powered = true → s.tgt.quarantineEnd = some t → s.clock < t →
    Sys2Proof.Machine.exec .quarantineEnd s = .next s) ∧
  (∀ (port : Nat) (f g : Frame) (s : State), s.powered = true → f.ty = tyQuery → s.tgt.quarantineEnd = none →
    s.tgt.arrived = [(port, g)] → g.ty = tyStore → g.part = 0 → g.src = f.src → g.stream = f.stream → g.seq = f.seq →
    findStream f.src f.stream s = none → s.tgt.streams.length < 16384 → storeStatus g s = stOk →
    g.off.toNat < apertureBase → queueRoom g s = true →
    ∃ u r, Sys2Proof.Machine.exec (.statusQuery f) s = .next u ∧ u.tgt.reqs = s.tgt.reqs ++ [r] ∧ r.frame = g ∧
      u.tgt.waiting = s.tgt.waiting ++ [f] ∧ u.sw = s.sw)

/-- Tier 2. GROUP_WRITE and QUOTA_WRITE: the fields written, each word of a descriptor with its own (EPOCH is read only),
but for a group in use (GRP_BAD, R152) and for quotas whose FLOORs exceed 5,120 rooms or whose FLOOR exceeds MAX
(QUOTA_BAD, R162). -/
def Obligations.GroupsAndQuotas : Prop :=
  (∀ (side : Side) (g : Fin 256) (w : Fin 3) (v : Word) (s : State), s.powered = true →
    gate side bCVN false .ary s = .go → (∀ c ∈ s.caravan.colls, c.group ≠ g.val) →
    ∃ u, Sys2Proof.Machine.exec (.groupWrite side g w v) s = .next u ∧
      (w = 0 → getBit (rGroup g.val) 63 u = wbit v 63 ∧ grpStrict g.val u = wbit v 62 ∧
        grpPart g.val u = BitVec.ofNat 8 (wfield v 55 48) ∧ grpTag g.val u = BitVec.ofNat 16 (wfield v 47 32) ∧
        grpOrder g.val u = wfield v 26 24 ∧ grpMask g.val u = wfield v 14 0) ∧
      (w = 1 → ∀ axis, axis < 3 → boxLo g.val axis u = wfield v (59 - 4 * axis) (56 - 4 * axis) ∧
        boxLen g.val axis u = wfield v (47 - 4 * axis) (44 - 4 * axis)) ∧
      (w = 2 → ∀ o, getReg o u = getReg o s) ∧
      (∀ o, o ≠ rGroup g.val + 8 * w.val → getReg o u = getReg o s) ∧ u = { s with regs := u.regs }) ∧
  (∀ (side : Side) (g : Fin 256) (w : Fin 3) (v : Word) (c : Coll) (s : State), s.powered = true →
    gate side bCVN false .ary s = .go → c ∈ s.caravan.colls → c.group = g.val →
    ∃ u, Sys2Proof.Machine.exec (.groupWrite side g w v) s = .next u ∧ getBit rCvnStatus 5 u = true ∧
      (∀ o, o ≠ rCvnStatus → getReg o u = getReg o s) ∧ u = { s with regs := u.regs, counters := u.counters }) ∧
  (∀ (side : Side) (n : Fin 64) (v : Word) (s : State), s.powered = true → gate side bCVN false .ary s = .go →
    wfield v 12 0 ≤ wfield v 28 16 →
    (List.range 64).foldl (fun t k => if k = n.val then t else t + quotaFloor k s) 0 + wfield v 12 0 ≤ 5120 →
    ∃ u, Sys2Proof.Machine.exec (.quotaWrite side n v) s = .next u ∧
      quotaFloor n.val u = wfield v 12 0 ∧ quotaMax n.val u = wfield v 28 16 ∧
      (∀ o, o ≠ rRoomQuota n.val → getReg o u = getReg o s) ∧ u = { s with regs := u.regs }) ∧
  (∀ (side : Side) (n : Fin 64) (v : Word) (s : State), s.powered = true → gate side bCVN false .ary s = .go →
    wfield v 28 16 < wfield v 12 0 ∨
      5120 < (List.range 64).foldl (fun t k => if k = n.val then t else t + quotaFloor k s) 0 + wfield v 12 0 →
    ∃ u, Sys2Proof.Machine.exec (.quotaWrite side n v) s = .next u ∧
      getBit rCvnStatus 6 u = true ∧ (∀ o, o ≠ rCvnStatus → getReg o u = getReg o s) ∧
      u = { s with regs := u.regs, counters := u.counters })

/-- Tier 2. COLL_START, COLLECTIVE_START, COLLECTIVE_ADMIT and ADMIT_TIMEOUT: a call that passes its checks waits for the
group's other local members, one that fails has its status at once (the order of the checks is the model's choice, log
entry 69); when all members of a turn are there, each first of its queue, the collective takes the group's EPOCH (before
its increment: the model's choice, log entry 68); the oldest is admitted with the first choice of R163 that fits, or ends
with ROOMS_EXHAUSTED after its time. -/
def Obligations.CollectivesStart : Prop :=
  (∀ (q : Fin 512) (d : DescEx) (c : CollCall) (g e : Nat) (s : State), s.powered = true →
    nextToStart q.val s = some d → s.power.oos = false ∨ qPart q.val s = 0 →
    checkDesc (qEngine q.val s) (qPart q.val s) d.raw = stOk → dOp d.raw = opColl → g = dfield d.raw 8 1 →
    collsInFlight q s < 8 → ropeShadow s = false → grpValid g s = true → qPart q.val s = grpPart g s →
    c = { op := dfield d.raw 9 1, operator := dfield d.raw 10 1, format := dfield d.raw 11 1,
          root := dfield d.raw 12 2, count := dfield d.raw 40 8,
          rooms := if dfield d.raw 48 4 = 0 then 8 else dfield d.raw 48 4 } →
    callStatus g c s = stOk →
    (∀ a ∈ dfield d.raw 32 8 :: (if c.op = 6 then [] else [dfield d.raw 16 8, dfield d.raw 24 8]),
      bufferEid (qPart q.val s) a s = some (some e)) →
    e / 16 = (partId s).toNat → e % 16 ∈ localList g s →
    buffersFit g (qPart q.val s) c (e % 16) (dfield d.raw 16 8) (dfield d.raw 24 8) (dfield d.raw 32 8) s = true →
    (∀ w ∈ turnEntries g (turnOf g (e % 16) s.caravan.waiting) s, w.call = c) →
    ∃ u w, Sys2Proof.Machine.exec (.collStart q) s = .next u ∧ u.caravan.waiting = s.caravan.waiting ++ [w] ∧
      w.group = g ∧ w.call = c ∧ w.member.li = e % 16 ∧ w.member.queue = q ∧ w.member.index = d.index ∧
      w.member.send = dfield d.raw 16 8 ∧ w.member.recv = dfield d.raw 24 8 ∧ w.member.signal = dfield d.raw 32 8 ∧
      w.member.signalled = 0 ∧ w.member.status = none ∧
      w.member.timeout = (if dfield d.raw 52 4 = 0 then 10000000 else 1000 * dfield d.raw 52 4) ∧
      (getQ q.val u).fetched = updFirst (fun e => decide (e.index = d.index))
        (fun e => { e with started := true, beganAt := s.clock }) (getQ q.val s).fetched ∧
      (∀ p : Fin 512, p ≠ q → getQ p.val u = getQ p.val s) ∧
      u = { s with queues := u.queues, caravan.waiting := u.caravan.waiting }) ∧
  (∀ (q : Fin 512) (d : DescEx) (c : CollCall) (g : Nat) (st : Byte) (s : State), s.powered = true →
    nextToStart q.val s = some d → s.power.oos = false ∨ qPart q.val s = 0 →
    checkDesc (qEngine q.val s) (qPart q.val s) d.raw = stOk → dOp d.raw = opColl → g = dfield d.raw 8 1 →
    c = { op := dfield d.raw 9 1, operator := dfield d.raw 10 1, format := dfield d.raw 11 1,
          root := dfield d.raw 12 2, count := dfield d.raw 40 8,
          rooms := if dfield d.raw 48 4 = 0 then 8 else dfield d.raw 48 4 } →
    collsInFlight q s < 8 →
    (ropeShadow s = true ∧ st = stDenied) ∨
      (ropeShadow s = false ∧ grpValid g s = false ∧ st = stMalformed) ∨
      (ropeShadow s = false ∧ grpValid g s = true ∧ qPart q.val s ≠ grpPart g s ∧ st = stDenied) ∨
      (ropeShadow s = false ∧ grpValid g s = true ∧ qPart q.val s = grpPart g s ∧ callStatus g c s ≠ stOk ∧
        st = callStatus g c s) ∨
      (ropeShadow s = false ∧ grpValid g s = true ∧ qPart q.val s = grpPart g s ∧ callStatus g c s = stOk ∧ c.op = 6 ∧
        (∃ e ∈ (bufferEid (qPart q.val s) (dfield d.raw 32 8) s).join,
          (e / 16 ≠ (partId s).toNat ∨ e % 16 ∉ localList g s)) ∧ st = stDenied) →
    ∃ u, Sys2Proof.Machine.exec (.collStart q) s = .next u ∧
      (getQ q.val u).fetched = updFirst (fun e => decide (e.index = d.index))
        (fun e => { e with started := true, beganAt := s.clock, status := some st, result := 0 })
        (getQ q.val s).fetched ∧
      (∀ p : Fin 512, p ≠ q → getQ p.val u = getQ p.val s) ∧ u = { s with queues := u.queues }) ∧
  (∀ (g : Fin 256) (w : CollWaiting) (t : List CollWaiting) (s : State), s.powered = true →
    turnEntries g.val 0 s = w :: t → (w :: t).length = localCount g.val s → inReset .ary s = false →
    (∀ x ∈ w :: t, firstOfQueue x s = true) → s.caravan.early = [] →
    ∃ u c, Sys2Proof.Machine.exec (.collectiveStart g) s = .next u ∧
      u.caravan.colls = s.caravan.colls ++ [c] ∧ c.group = g.val ∧ c.epoch = grpEpoch g.val s ∧
      c.startedAt = s.clock ∧ c.call = w.call ∧ c.members = (w :: t).map (fun x => x.member) ∧ c.admitted = none ∧
      c.chunks = [] ∧ grpEpoch g.val u = (grpEpoch g.val s + 1) % 256 ∧
      (∀ x, x ∈ u.caravan.waiting ↔ x ∈ s.caravan.waiting ∧ x ∉ w :: t) ∧
      (∀ l, l ∈ u.caravan.landed ↔
        l ∈ s.caravan.landed ∧ ¬(l.tag = grpTag g.val s ∧ l.epoch = grpEpoch g.val s)) ∧
      (∀ o, o ≠ rGroup g.val + 0x10 → getReg o u = getReg o s) ∧
      u = { s with caravan.waiting := u.caravan.waiting, caravan.colls := u.caravan.colls,
                   caravan.landed := u.caravan.landed, regs := u.regs, tenant.collsUsed := u.tenant.collsUsed }) ∧
  (∀ (g : Fin 256) (s : State), s.powered = true →
    (turnEntries g.val 0 s).length ≠ localCount g.val s ∨ inReset .ary s = true ∨
      (∃ x ∈ turnEntries g.val 0 s, firstOfQueue x s = false) →
    (∀ f ∈ s.caravan.early, ripe f s = false) → Sys2Proof.Machine.exec (.collectiveStart g) s = .next s) ∧
  (∀ (c : Coll) (dep n : Nat) (places : List Nat) (s : State), s.powered = true → firstUnadmitted s = some c →
    admittedCount s < 32 → inReset .ary s = false → compStopped 3 s = false →
    admitChoice c s = some (dep, n, places) → s.caravan.early = [] →
    ∃ u v, Sys2Proof.Machine.exec .collectiveAdmit s = .next u ∧ v.admitted = some s.clock ∧ v.depth = dep ∧
      v.grant = n ∧ v.staging = places ∧ v.group = c.group ∧ v.epoch = c.epoch ∧ v.call = c.call ∧
      v.members = c.members ∧ v.startedAt = c.startedAt ∧
      v.chunks = (fillWindow (chunkTotal c.group c.call s)
        { c with admitted := some s.clock, depth := dep, grant := n, staging := places } s).chunks ∧
      u.caravan.colls = updFirst (fun x => decide (x.group = c.group ∧ x.epoch = c.epoch)) (fun _ => v)
        s.caravan.colls ∧ u = { s with caravan.colls := u.caravan.colls }) ∧
  (∀ (c : Coll) (s : State), s.powered = true → firstUnadmitted s = some c →
    admitChoice c s = none ∨ 32 ≤ admittedCount s → (∀ f ∈ s.caravan.early, ripe f s = false) →
    Sys2Proof.Machine.exec .collectiveAdmit s = .next s) ∧
  (∀ (g : Fin 256) (epoch : BitVec 8) (c : Coll) (s : State), s.powered = true →
    findColl g.val epoch.toNat s = some c → c.admitted = none → c.startedAt + admitTimeout c ≤ s.clock →
    ∃ u, Sys2Proof.Machine.exec (.admitTimeout g epoch) s = .next u ∧
      findColl g.val epoch.toNat u = none ∧ getBit rCvnStatus 0 u = true ∧ getBit rCvnStatus 2 u = true ∧
      (∀ m, c.members = [m] → m.status = none →
        (getQ m.queue.val u).fetched = updFirst (fun d => decide (d.index = m.index))
          (fun d => { d with status := some stExhausted, result := BitVec.ofNat 64 m.signalled })
          (getQ m.queue.val s).fetched ∧
        ∀ p : Fin 512, p ≠ m.queue → getQ p.val u = getQ p.val s) ∧
      u.mem = s.mem ∧ u.req = s.req) ∧
  (∀ (g : Fin 256) (epoch : BitVec 8) (c : Coll) (s : State), s.powered = true →
    findColl g.val epoch.toNat s = some c → c.admitted.isSome = true ∨ s.clock < c.startedAt + admitTimeout c →
    Sys2Proof.Machine.exec (.admitTimeout g epoch) s = .next s)

/-- Tier 2. SEND_OFFER, OFFER, SEND_INVITE, INVITE and INVITE_REPEAT_TIMEOUT: a staged partial is offered to every part it
goes to; an OFFER that agrees marks its input, one that does not ends the collective, one for a chunk not yet in the window
waits (the model's choice, log entry 40); a step with its rooms invites every input; an INVITE is answered with the bytes
at SOURCE_FA, or from staging, and their check; missing bytes repeat it up to three times, then the collective ends with
MEMBER_LOST. A frame that fails the checks of R355 does none of it. -/
def Obligations.OffersAndInvites : Prop :=
  (∀ (g : Fin 256) (epoch : BitVec 8) (st : CollStep) (c : Coll) (k : CollChunk) (x : CollStepSt)
      (outs : List (Eid × Nat × Nat)) (s : State), s.powered = true →
    rowStep g.val epoch.toNat st s = some (c, k, x) → outs = stepOutputs c.group c.call k.number x s →
    ∃ u, Sys2Proof.Machine.exec (.sendOffer g epoch st) s = .next u ∧
      (x.done = true → x.offered = false → outs ≠ [] → ∃ sent held c' k', gaveOut (grpPart c.group s) sent held s u ∧
        (sent ++ held).length = outs.length ∧
        (∀ f ∈ sent ++ held, f.ty = tyRoomCall ∧ f.stream = grpTag c.group s ∧ f.be = BitVec.ofNat 8 c.epoch ∧
          f.src = selfEid 0 s ∧ slotNat f 0 1 = 1 ∧ slotNat f 1 1 = offerStage c.call x % 256 ∧
          (c.call.op < 256 → c.call.operator < 256 → c.call.format < 256 → c.call.count < 2 ^ 64 → offerAgrees c f = true) ∧
          ∃ o ∈ outs, f.dst = o.1 ∧ slotNat f 4 4 = o.2.1 % 2 ^ 32 ∧ slotNat f 8 4 = o.2.2 % 2 ^ 32) ∧
        rowStep g.val epoch.toNat st u = some (c', k', { x with offered := true }) ∧
        (∀ o, o ≠ rSecStatus → getReg o u = getReg o s) ∧
        u = { s with sw.coreIn := u.sw.coreIn, caravan.colls := u.caravan.colls, regs := u.regs,
                     tenant.sentIv := u.tenant.sentIv, tenant.ivHeld := u.tenant.ivHeld }) ∧
      (x.done = false ∨ x.offered = true ∨ outs = [] → u = s)) ∧
  (∀ (f : Frame) (c : Coll) (k : CollChunk) (x : CollStepSt) (s : State), s.powered = true → f.ty = tyRoomCall →
    slotNat f 0 1 = 1 → collAuth f s = .pass → collByTag f.stream f.be.toNat s = some c → offerAgrees c f = true →
    chunkAt c f s = .here k → s.caravan.early = [] →
    rowStep c.group c.epoch ⟨k.number, slotNat f 1 1, decide (slotNat f 2 1 % 2 = 1)⟩ s = some (c, k, x) →
    ∃ u c' k' y, Sys2Proof.Machine.exec (.offer f) s = .next u ∧
      rowStep c.group c.epoch ⟨k.number, slotNat f 1 1, decide (slotNat f 2 1 % 2 = 1)⟩ u = some (c', k', y) ∧
      y = { x with inputs := x.inputs.map (fun i =>
        if i.src = f.src ∧ i.lo = slotNat f 4 4 then { i with offered := true } else i) } ∧
      u = { s with caravan.colls := u.caravan.colls, tgt.arrived := u.tgt.arrived }) ∧
  (∀ (f : Frame) (c : Coll) (s : State), s.powered = true → f.ty = tyRoomCall → slotNat f 0 1 = 1 →
    collAuth f s = .pass → collByTag f.stream f.be.toNat s = some c → findColl c.group c.epoch s = some c →
    ∃ u, Sys2Proof.Machine.exec (.offer f) s = .next u ∧
      (offerAgrees c f = false → s.caravan.early = [] → findColl c.group c.epoch u = none ∧
        getBit rCvnStatus 0 u = true ∧ u.mem = s.mem ∧ u.req = s.req ∧
        ∀ m, c.members = [m] → m.status = none →
          (getQ m.queue.val u).fetched = updFirst (fun d => decide (d.index = m.index))
            (fun d => { d with status := some stMalformed, result := BitVec.ofNat 64 m.signalled })
            (getQ m.queue.val s).fetched) ∧
      (offerAgrees c f = true → chunkAt c f s = .past → (∀ h ∈ s.caravan.early, ripe h s = false) →
        u = { s with tgt.arrived := u.tgt.arrived }) ∧
      (offerAgrees c f = true → chunkAt c f s = .ahead → (∀ h ∈ s.caravan.early, ripe h s = false) →
        u = { s with tgt.arrived := u.tgt.arrived, caravan.early := s.caravan.early ++ [f] })) ∧
  (∀ (f : Frame) (s : State), s.powered = true → collAuth f s ≠ .pass →
    ∀ i ty, (i, ty) ∈ [((.offer f : Instr), tyRoomCall), (.invite f, tyRoomCall), (.collData f, tyCollData),
        (.collResult f, tyCollResult), (.seal f, tySeal)] → f.ty = ty →
      (ty = tyRoomCall → slotNat f 0 1 = if i = .offer f then 1 else 2) →
    ∃ u, Sys2Proof.Machine.exec i s = .next u ∧
      getBit rSecStatus (if collAuth f s = .stale then 2 else 3) u = true ∧
      (∀ o, o ≠ rSecStatus → getReg o u = getReg o s) ∧
      u = { s with tgt.arrived := u.tgt.arrived, regs := u.regs, counters := u.counters }) ∧
  (∀ (g : Fin 256) (epoch : BitVec 8) (st : CollStep) (c : Coll) (k : CollChunk) (x : CollStepSt) (total : Nat)
      (asked : List (List (Nat × Nat × Nat))) (s s₁ : State), s.powered = true →
    rowStep g.val epoch.toNat st s = some (c, k, x) → inReset .ary s = false →
    wantsRooms c k x s = true → roomTurn c k s = true →
    total = (x.inputs.map (fun i => ceilDiv (roundRange c x i).2 32768)).foldl (· + ·) 0 →
    total ≤ roomsUnderMax (holderOf (grpPart c.group s) s) s → total ≤ roomsFreeTo (holderOf (grpPart c.group s) s) s →
    askInputs c k x x.inputs s = (some asked, s₁) →
    (grantRows (holderOf (grpPart c.group s) s) x.inputs.length
      ((x.inputs.map (fun i => ceilDiv (roundRange c x i).2 32768)).foldl max 0) s₁ []).isSome = true →
    ∃ u sent held c' k' y, Sys2Proof.Machine.exec (.sendInvite g epoch st) s = .next u ∧
      gaveOut (grpPart c.group s) sent held s u ∧ (sent ++ held).length = (asked.map List.length).sum ∧
      (∀ f ∈ sent ++ held, f.ty = tyRoomCall ∧ slotNat f 0 1 = 2 ∧ slotNat f 1 1 = x.stage % 256 ∧
        ∃ i ∈ x.inputs, f.dst = i.src) ∧
      rowStep g.val epoch.toNat st u = some (c', k', y) ∧ y.inputs.map (fun i => i.asked) = asked ∧
      (∀ i ∈ y.inputs, i.invitedAt = some s.clock) ∧
      u = { s₁ with sw.coreIn := u.sw.coreIn, caravan.colls := u.caravan.colls, array.rooms := u.array.rooms,
                    array.lastRow := u.array.lastRow, counters := u.counters, regs := u.regs,
                    tenant.sentIv := u.tenant.sentIv, tenant.ivHeld := u.tenant.ivHeld }) ∧
  (∀ (g : Fin 256) (epoch : BitVec 8) (st : CollStep) (c : Coll) (k : CollChunk) (x : CollStepSt) (s : State),
    s.powered = true → rowStep g.val epoch.toNat st s = some (c, k, x) →
    inReset .ary s = true ∨ wantsRooms c k x s = false ∨ roomTurn c k s = false →
    Sys2Proof.Machine.exec (.sendInvite g epoch st) s = .next s) ∧
  (∀ (f : Frame) (c : Coll) (bs : List Byte) (s : State), s.powered = true → f.ty = tyRoomCall → slotNat f 0 1 = 2 →
    collAuth f s = .pass → collByTag f.stream f.be.toNat s = some c → s.caravan.early = [] →
    (slotNat f 16 8 ≠ 0 ∧ bs = memberBytes c f s ∨
      slotNat f 16 8 = 0 ∧ ∃ k ∈ chunkOf c f,
        ∃ st ∈ k.steps.find? (fun st => decide (offerStage c.call st = slotNat f 1 1) &&
          (st.anchor == decide (slotNat f 2 1 % 2 = 1)) && st.done),
        bs = staged c k (bit1 st.anchor) (slotNat f 4 4) (min (slotNat f 8 4) (st.staged - slotNat f 4 4)) s) →
    ∃ u sent held, Sys2Proof.Machine.exec (.invite f) s = .next u ∧ gaveOut (grpPart c.group s) sent held s u ∧
      (sent ++ held).length = ceilDiv bs.length 2048 + 1 ∧
      (∀ h ∈ sent ++ held, h.ty = tyCollData ∧ h.dst = f.src ∧ h.seq = f.seq ∧ h.stream = grpTag c.group s) ∧
      (held = [] → ∃ ds b, sent = ds ++ [b] ∧ ((ds.map frameBytes).flatten).take bs.length = bs ∧
        offCheck b = true ∧ slotNat b 0 8 = crcChunk bs % 2 ^ 64 ∧ slotNat b 8 4 = slotNat f 4 4 ∧
        slotNat b 12 4 = bs.length % 2 ^ 32) ∧
      (slotNat f 2 1 / 2 % 2 = 1 → getBit rCvnStatus 4 u = true) ∧ u.mem = s.mem ∧
      (slotNat f 16 8 ≠ 0 → (∀ o, o ≠ rSecStatus → (slotNat f 2 1 / 2 % 2 = 1 → o ≠ rCvnStatus) → getReg o u = getReg o s) ∧
        u = { s with sw.coreIn := u.sw.coreIn, tgt.arrived := u.tgt.arrived, regs := u.regs,
                     tenant.sentIv := u.tenant.sentIv, tenant.ivHeld := u.tenant.ivHeld })) ∧
  (∀ (g : Fin 256) (epoch : BitVec 8) (st : CollStep) (n : BitVec 16) (c : Coll) (k : CollChunk) (x : CollStepSt)
      (i : CollIn) (t : Nat) (s : State), s.powered = true → rowStep g.val epoch.toNat st s = some (c, k, x) →
    x.inputs[n.toNat]? = some i → i.invitedAt = some t →
    ∃ u, Sys2Proof.Machine.exec (.inviteRepeatTimeout g epoch st n) s = .next u ∧
      (i.arrived = none → t + 5000000 ≤ s.clock → i.repeats < 3 → ∃ sent held, gaveOut (grpPart c.group s) sent held s u ∧
        (sent ++ held).length = i.asked.length ∧
        (∀ f ∈ sent ++ held, f.ty = tyRoomCall ∧ f.dst = i.src ∧ slotNat f 0 1 = 2 ∧
          (x.stage < 256 → slotNat f 2 1 / 2 % 2 = 1)) ∧ getBit rCvnStatus 4 u = true ∧
        (∀ o, o ≠ rCvnStatus → o ≠ rSecStatus → getReg o u = getReg o s) ∧
        u = { s with sw.coreIn := u.sw.coreIn, caravan.colls := u.caravan.colls, regs := u.regs,
                     tenant.sentIv := u.tenant.sentIv, tenant.ivHeld := u.tenant.ivHeld }) ∧
      (i.arrived = none → t + 5000000 ≤ s.clock → 3 ≤ i.repeats →
        findColl g.val epoch.toNat u = none ∧ getBit rCvnStatus 1 u = true ∧ getBit rCvnStatus 0 u = true) ∧
      (i.arrived.isSome = true ∨ s.clock < t + 5000000 → u = s) ∧ u.mem = s.mem)

/-- Tier 2. COLL_DATA, STEP_RESULT_STAGED, COLL_RESULT and CHUNK_READBACK_DONE: contributions fill their input's rooms and
are verified by their checks, one that differs being asked for again, or ending the collective after three repeats; a
round's result is staged, at the owner's last step it is the chunk's result; result bytes land in a member's buffer, or in
staging; a clean read-back sends the SEAL, another one voids the attempt. -/
def Obligations.ChunksCombined : Prop :=
  (∀ (f : Frame) (c : Coll) (k : CollChunk) (x : CollStepSt) (i : CollIn) (b p n : Nat) (bs : List Byte) (s : State),
    s.powered = true → f.ty = tyCollData → collAuth f s = .pass → collByTag f.stream f.be.toNat s = some c →
    chunkOf c f = some k → k.voided ≤ frameAttempt f →
    rowStep c.group c.epoch ⟨k.number, offStage f, offAnchor f⟩ s = some (c, k, x) → x.done = false →
    b = (if offCheck f then slotNat f 8 4 else offByte f) →
    x.inputs.find? (fun i => decide (i.src = f.src ∧ i.lo ≤ b ∧ b < i.lo + i.len) && i.invitedAt.isSome &&
      i.arrived.isNone) = some i →
    n = (roundRange c x i).2 → p = b - i.lo - (roundRange c x i).1 →
    bs = (frameBytes f).take ((((i.asked.map (fun a => a.1 - (roundRange c x i).1 + a.2.1)).find? (fun e =>
      decide (p < e))).getD n) - p) →
    ∃ u c' k' y, Sys2Proof.Machine.exec (.collData f) s = .next u ∧
      (offCheck f = false → i.checks = [] → 0 < n →
        rowStep c.group c.epoch ⟨k.number, offStage f, offAnchor f⟩ u = some (c', k', y) ∧
        y = { x with inputs := (updFirst (fun j => decide (j.src = i.src ∧ j.lo = i.lo))
          (fun _ => { i with got := addRange (p, bs.length) i.got }) x.inputs) } ∧
        u.array = (roomsWrite i.rooms p bs s).array ∧ u.regs = s.regs ∧ u.sw = s.sw) ∧
      (offCheck f = true → n ≤ rangeTotal i.got → p = 0 → i.checks = [] → n = slotNat f 12 4 →
        (crcChunk (roomsRead i.rooms 0 n s) = slotNat f 0 8 →
          rowStep c.group c.epoch ⟨k.number, offStage f, offAnchor f⟩ u = some (c', k', y) ∧
          (∃ j, y = { x with inputs := (updFirst (fun j => decide (j.src = i.src ∧ j.lo = i.lo)) (fun _ => j) x.inputs) } ∧
            j.arrived = some s.caravan.arrivals ∧ j.rooms = i.rooms ∧ j.src = i.src ∧ j.lo = i.lo) ∧
          u.caravan.arrivals = s.caravan.arrivals + 1 ∧ u.sw = s.sw ∧ u.array = s.array ∧ u.regs = s.regs) ∧
        (crcChunk (roomsRead i.rooms 0 n s) ≠ slotNat f 0 8 →
          (i.repeats < 3 → ∃ sent held, gaveOut (grpPart c.group s) sent held s u ∧
            (sent ++ held).length = i.asked.length ∧ (∀ h ∈ sent ++ held, h.ty = tyRoomCall ∧ h.dst = i.src) ∧
            getBit rCvnStatus 4 u = true) ∧
          (3 ≤ i.repeats → findColl c.group c.epoch u = none ∧ getBit rCvnStatus 0 u = true))) ∧
      u.mem = s.mem) ∧
  (∀ (g : Fin 256) (epoch : BitVec 8) (st : CollStep) (c : Coll) (k : CollChunk) (x : CollStepSt) (out : List Byte)
      (s : State), s.powered = true → rowStep g.val epoch.toNat st s = some (c, k, x) → currentStep k = some x →
    x.bad = false → x.ran = some out → s.caravan.early = [] →
    ∃ u c' k', Sys2Proof.Machine.exec (.stepResultStaged g epoch st) s = .next u ∧
      (moreRounds c x = true →
        rowStep g.val epoch.toNat st u = some (c', k', { x with
          inputs := x.inputs.map againIn, round := x.round + 1, ran := none, staged := out.length }) ∧
        (∀ n ∈ stepRooms x, roomHolder n u = 0) ∧ u.sw = s.sw ∧ u.queues = s.queues) ∧
      (moreRounds c x = false → endsRound c k x s = false → ∃ y,
        rowStep g.val epoch.toNat st u = some (c', k', y) ∧ y.done = true ∧ y.ran = none ∧ y.staged = out.length ∧
        u.sw = s.sw ∧ u.queues = s.queues) ∧
      (moreRounds c x = true ∨ endsRound c k x s = false →
        linesStatus (linesOf (stageBase c k (stepPlace c k x s)) out.length) s = stOk →
        wroteBytes (stageBase c k (stepPlace c k x s)) out s u) ∧
      (moreRounds c x = false → endsRound c k x s = true → x.anchor = false → c.call.operator ≠ 2 →
        findColl g.val epoch.toNat u = some c' ∧ findChunk c' k.number = some k' ∧ k'.result = true ∧
        k'.crc = BitVec.ofNat 64 (crcChunk out))) ∧
  (∀ (f : Frame) (l : Landed) (bs : List Byte) (s : State), s.powered = true → f.ty = tyCollResult →
    collAuth f s = .pass → f.src = selfEid 0 s → landedOf f s = some l → s.caravan.early = [] →
    bs = (frameBytes f).take (landsLeft f s) → s.observe.cairns = [] →
    linesStatus (linesOf f.off.toNat bs.length) s = stOk →
    ∃ u, Sys2Proof.Machine.exec (.collResult f) s = .next u ∧
      (l.voided ≤ frameAttempt f → wroteBytes f.off.toNat bs s u ∧
        landedOf f u = some { l with
          attempt := max l.attempt (frameAttempt f),
          ranges := addRange (f.off.toNat, bs.length) (if l.attempt < frameAttempt f then [] else l.ranges) } ∧
        u.queues = s.queues ∧ u.req = s.req ∧ u.sw = s.sw ∧ u.caravan.colls = s.caravan.colls) ∧
      (frameAttempt f < l.voided → u = { s with tgt.arrived := u.tgt.arrived })) ∧
  (∀ (f : Frame) (c : Coll) (k : CollChunk) (bs : List Byte) (s : State), s.powered = true → f.ty = tyCollResult →
    collAuth f s = .pass → f.src ≠ selfEid 0 s → collByTag f.stream f.be.toNat s = some c → chunkAt c f s = .here k →
    findColl c.group c.epoch s = some c → findChunk c k.number = some k → s.caravan.early = [] →
    k.voided ≤ frameAttempt f → frameAttempt f ≤ k.attempt → offAnchor f = false →
    offByte f < spreadBytes c.call false (chunkSize c.group c.call k.number s) →
    bs = (frameBytes f).take (spreadEnd c.group c.call k.number (offStage f) false (offByte f) s - offByte f) →
    ∃ u c' k', Sys2Proof.Machine.exec (.collResult f) s = .next u ∧ findColl c.group c.epoch u = some c' ∧
      findChunk c' k.number = some k' ∧ k'.got = addRange (offByte f, bs.length) k.got ∧
      (k'.result = true ↔
        k.result = true ∨ memBytes c.call (chunkSize c.group c.call k.number s) ≤ rangeTotal k'.got) ∧
      (linesStatus (linesOf (stageBase c k 2 + offByte f) bs.length) s = stOk →
        wroteBytes (stageBase c k 2 + offByte f) bs s u)) ∧
  (∀ (g : Fin 256) (epoch : BitVec 8) (n : Nat) (c : Coll) (k : CollChunk) (clean : Bool) (s : State),
    s.powered = true → findColl g.val epoch.toNat s = some c → findChunk c n = some k → k.sealHeld = false →
    k.readback = false → k.result = true → chunkOwner c.group c.call n s = myIndex c.group s → s.caravan.early = [] →
    ∃ u c' k', Sys2Proof.Machine.exec (.chunkReadbackDone g epoch n clean) s = .next u ∧
      ((clean = false ∨ linesStatus (linesOf (stageBase c k 2) (resultLen c k s)) s ≠ stOk ∨
          crcChunk (resultBytes c k s) ≠ k.crc.toNat) →
        getBit rCvnStatus 3 u = true ∧
        (k.attempt < 2 → findColl g.val epoch.toNat u = some c' ∧ findChunk c' n = some k' ∧
          k'.attempt = k.attempt + 1 ∧ k'.voided = k.attempt + 1 ∧ k'.result = false ∧ k'.seals = []) ∧
        (2 ≤ k.attempt → findColl g.val epoch.toNat u = none ∧ getBit rCvnStatus 0 u = true) ∧ u.mem = s.mem) ∧
      (clean = true → linesStatus (linesOf (stageBase c k 2) (resultLen c k s)) s = stOk →
        crcChunk (resultBytes c k s) = k.crc.toNat → (∀ m ∈ c.members, m.status.isSome = true) →
        (receivingParts c s).any (fun e => decide (eidPart e ≠ (partId s).toNat)) = true →
        (receivingParts c s).any (fun e => sealBusy c k e s) = false →
        findColl g.val epoch.toNat u = some c' ∧ findChunk c' n = some k' ∧ k'.readback = true ∧
        k'.seals = (receivingParts c s).map (fun e => ⟨e, s.clock, 0, false⟩) ∧
        (∃ sent held, gaveOut (grpPart c.group s) sent held s u ∧
          ∀ f ∈ sent ++ held, f.ty = tySeal ∧ f.mcast = true ∧ slotNat f 0 8 = k.crc.toNat) ∧
        u.mem = s.mem ∧ u.queues = s.queues)) ∧
  (∀ (g : Fin 256) (epoch : BitVec 8) (n fa : Nat) (c : Coll) (k : CollChunk) (m : CollMember) (s : State),
    s.powered = true → findColl g.val epoch.toNat s = some c → s.caravan.colls = [c] →
    c.chunks = [k] → k.number = n → k.sealHeld = false → k.readback = false → k.result = true → k.owed = [] →
    k.sealFrom = none → chunkOwner c.group c.call n s = myIndex c.group s → receivingParts c s = [] →
    c.members = [m] → m.status = none → receives c.group c.call n (rankOf c.group m.li s) s = true →
    memberChunk c.group c.call n s = m.signalled → s.caravan.early = [] →
    linesStatus (linesOf (stageBase c k 2) (resultLen c k s)) s = stOk →
    crcChunk (resultBytes c k s) = k.crc.toNat → (memberFa c m m.signal s).1 = some fa →
    ∃ u sent held f c' k', Sys2Proof.Machine.exec (.chunkReadbackDone g epoch n true) s = .next u ∧
      gaveOut (grpPart c.group s) sent held s u ∧ sent ++ held = [f] ∧ f.ty = tySeal ∧ f.dst = selfEid m.li s ∧
      slotNat f 8 8 = fa % 2 ^ 64 ∧ (c.call.op ≠ 6 → slotNat f 0 8 = k.crc.toNat) ∧
      findColl g.val epoch.toNat u = some c' ∧ findChunk c' n = some k' ∧ k'.readback = true ∧ k'.result = true ∧
      k'.seals = [⟨selfEid m.li s, s.clock, 0, false⟩] ∧ (∀ x ∈ (k.steps.map stepRooms).flatten, roomHolder x u = 0) ∧
      u.mem = s.mem)

/-- Tier 2. SEAL, SEAL_SIGNAL, SEAL_WAIT_TIMEOUT, SEAL_REPEAT_TIMEOUT and VOID: a SEAL waits at a member for its bytes; a
matching CRC adds 1 to the word at SIGNAL_FA once and answers OK, another answers INTEGRITY, signals nothing and waits for
the bytes anew; at a part a disagreeing copy is refused, an agreeing one is accepted; a silent receiver is sent the SEAL
again, three times, then it is lost; a VOID drops what landed, group-wide it ends the collective. -/
def Obligations.SealsAndVoids : Prop :=
  (∀ (f : Frame) (s : State), s.powered = true → f.ty = tySeal → collAuth f s = .pass → slotNat f 8 8 ≠ 0 →
    s.caravan.early = [] → ∃ u, Sys2Proof.Machine.exec (.seal f) s = .next u ∧
      (∀ l, landedOf f s = some l → landedOf f u = some { l with seals := l.seals ++ [(f, s.clock)] } ∧
        u = { s with caravan.landed := u.caravan.landed, tgt.arrived := u.tgt.arrived }) ∧
      (landedOf f s = none → s.caravan.landed.length < 64 →
        u.caravan.landed = s.caravan.landed ++
          [⟨f.stream, f.be.toNat, frameChunk f, 0, [], 0, [(f, s.clock)], false⟩] ∧
        u = { s with caravan.landed := u.caravan.landed, tgt.arrived := u.tgt.arrived }) ∧
      (landedOf f s = none → 64 ≤ s.caravan.landed.length → (∀ l ∈ s.caravan.landed, landedSpent l s = false) →
        ∃ g, u.sw.coreIn = s.sw.coreIn ++ [⟨36, s.clock, now s, true, g⟩] ∧ g.be = stRetryBusy ∧ g.dst = f.src ∧
        u = { s with sw.coreIn := u.sw.coreIn, tgt.arrived := u.tgt.arrived })) ∧
  (∀ (f : Frame) (c : Coll) (k : CollChunk) (s : State), s.powered = true → f.ty = tySeal → collAuth f s = .pass →
    f.mcast = false → slotNat f 8 8 = 0 → collByTag f.stream f.be.toNat s = some c → chunkAt c f s = .here k →
    findColl c.group c.epoch s = some c → findChunk c k.number = some k → k.sealFrom = none → c.call.op ≠ 6 →
    k.number < c.next → s.caravan.early = [] → ∃ u g c' k', Sys2Proof.Machine.exec (.seal f) s = .next u ∧
      (k.result = false ∨ crcChunk (resultBytes c k s) ≠ slotNat f 0 8 → k.refused < 3 →
        u.sw.coreIn = s.sw.coreIn ++ [⟨36, s.clock, now s, true, g⟩] ∧
        g.ty = tyStoreAck ∧ g.be = stIntegrity ∧ g.dst = f.src ∧ g.seq = f.seq ∧
        findColl c.group c.epoch u = some c' ∧ findChunk c' k.number = some k' ∧
        k' = { k with refused := k.refused + 1 } ∧
        u = { s with sw.coreIn := u.sw.coreIn, caravan.colls := u.caravan.colls, tgt.arrived := u.tgt.arrived }) ∧
      (k.result = true → crcChunk (resultBytes c k s) = slotNat f 0 8 → (∀ m ∈ c.members, m.status.isSome = true) →
        u.sw.coreIn = s.sw.coreIn ++ [⟨36, s.clock, now s, true, g⟩] ∧
        g.ty = tyStoreAck ∧ g.be = stOk ∧ g.dst = f.src ∧ g.seq = f.seq ∧
        (∀ c', findColl c.group c.epoch u = some c' → findChunk c' k.number = none) ∧ u.mem = s.mem ∧
        u.queues = s.queues)) ∧
  (∀ (f : Frame) (c : Coll) (s : State), s.powered = true → f.ty = tySeal → collAuth f s = .pass → f.mcast = false →
    slotNat f 8 8 = 0 → collByTag f.stream f.be.toNat s = some c → (∀ h ∈ s.caravan.early, ripe h s = false) →
    ∃ u g, Sys2Proof.Machine.exec (.seal f) s = .next u ∧
      (chunkAt c f s = .past → g.be = stOk ∧ g.dst = f.src ∧
        u = { s with sw.coreIn := s.sw.coreIn ++ [⟨36, s.clock, now s, true, g⟩], tgt.arrived := u.tgt.arrived }) ∧
      (chunkAt c f s = .ahead →
        u = { s with caravan.early := s.caravan.early ++ [f], tgt.arrived := u.tgt.arrived })) ∧
  (∀ (g : Fin 256) (epoch : BitVec 8) (n : Nat) (l : Landed) (f : Frame) (t : Nat) (s : State), s.powered = true →
    sealWaiting g.val epoch.toNat n s = some (l, f, t) → landedOf f s = some l →
    ∀ i due, (i, due) ∈ [((.sealSignal g epoch n : Instr),
          l.signalled || decide (slotNat f 16 4 ≤ rangeTotal l.ranges)),
        (.sealWaitTimeout g epoch n, decide (t + 2000000 ≤ s.clock))] →
    ∃ u h, Sys2Proof.Machine.exec i s = .next u ∧
      (due = true → u.sw.coreIn = s.sw.coreIn ++ [⟨36, s.clock, now s, true, h⟩] ∧ h.ty = tyStoreAck ∧ h.dst = f.src ∧
        h.seq = f.seq ∧ u.queues = s.queues ∧ u.req = s.req ∧ u.caravan.colls = s.caravan.colls ∧
        (l.signalled = true → h.be = stOk ∧ landedOf f u = some { l with seals := l.seals.tail } ∧ u.mem = s.mem) ∧
        (l.signalled = false →
          (crcChunk (landedBytes l s) = slotNat f 0 8 → rangeTotal l.ranges = slotNat f 16 4 → h.be = stOk ∧
            landedOf f u = some { l with seals := l.seals.tail, signalled := true } ∧
            (linesStatus (linesOf (slotNat f 8 8 % 2 ^ 48) 8) s = stOk → s.observe.cairns = [] →
              wroteBytes (slotNat f 8 8 % 2 ^ 48)
                (bytesOfNat 8 ((readNat s (slotNat f 8 8 % 2 ^ 48) 8 + 1) % 2 ^ 64)) s u)) ∧
          (crcChunk (landedBytes l s) ≠ slotNat f 0 8 ∨ rangeTotal l.ranges ≠ slotNat f 16 4 → h.be = stIntegrity ∧
            landedOf f u = some { l with seals := l.seals.tail, ranges := [] } ∧ u.mem = s.mem))) ∧
      (due = false → u = s)) ∧
  (∀ (g : Fin 256) (epoch : BitVec 8) (n : Nat) (eid : BitVec 16) (c : Coll) (k : CollChunk) (w : SealWait)
      (s : State), s.powered = true → findColl g.val epoch.toNat s = some c → findChunk c n = some k →
    k.seals.find? (fun w => decide (w.eid = eid) && !w.ok) = some w →
    ∃ u, Sys2Proof.Machine.exec (.sealRepeatTimeout g epoch n eid) s = .next u ∧
      (s.clock < w.sentAt + 5000000 → u = s) ∧
      (w.sentAt + 5000000 ≤ s.clock → s.caravan.early = [] → s.caravan.colls = [c] → c.chunks = [k] →
        k.sealHeld = false →
        (∀ m fa, c.members = [m] → k.seals = [w] → selfEid m.li s = eid → eidPart eid = (partId s).toNat →
          k.owed = [] → (memberFa c m m.signal s).1 = some fa → w.repeats < 3 → ∃ sent held f c' k',
          gaveOut (grpPart c.group s) sent held s u ∧ sent ++ held = [f] ∧ f.ty = tySeal ∧ f.dst = eid ∧
          slotNat f 8 8 = fa % 2 ^ 64 ∧ findColl g.val epoch.toNat u = some c' ∧ findChunk c' n = some k' ∧
          k' = { k with seals := [{ w with sentAt := s.clock, repeats := w.repeats + 1 }] } ∧
          getBit rCvnStatus 4 u = getBit rCvnStatus 4 s) ∧
        ((∀ m ∈ c.members, m.status.isSome = true) → eidPart eid ≠ (partId s).toNat →
          (w.repeats < 3 → ∃ sent held f, gaveOut (grpPart c.group s) sent held s u ∧ sent ++ held = [f] ∧
            f.ty = tySeal ∧ f.dst = eid ∧ slotNat f 0 8 = k.crc.toNat ∧ u.queues = s.queues) ∧
          (3 ≤ w.repeats → findColl g.val epoch.toNat u = none ∧ getBit rCvnStatus 1 u = true)) ∧ u.mem = s.mem)) ∧
  (∀ (f : Frame) (l : Landed) (s : State), s.powered = true → f.ty = tyVoid → collAuth f s = .pass →
    isGroupVoid f = false → f.src = selfEid 0 s → landedOf f s = some l → s.caravan.early = [] →
    ∃ u, Sys2Proof.Machine.exec (.void f) s = .next u ∧
      landedOf f u = some (if l.voided < slotNat f 20 1 + 1 then
        { l with voided := slotNat f 20 1 + 1, ranges := [], seals := [] } else l) ∧
      u = { s with caravan.landed := u.caravan.landed, tgt.arrived := u.tgt.arrived }) ∧
  (∀ (f : Frame) (c : Coll) (k : CollChunk) (s : State), s.powered = true → f.ty = tyVoid → collAuth f s = .pass →
    isGroupVoid f = false → f.src ≠ selfEid 0 s → f.mcast = false → collByTag f.stream f.be.toNat s = some c →
    chunkAt c f s = .here k → findColl c.group c.epoch s = some c → findChunk c k.number = some k →
    s.caravan.early = [] → k.voided < slotNat f 20 1 + 1 →
    ∃ u sent held c' k', Sys2Proof.Machine.exec (.void f) s = .next u ∧ findColl c.group c.epoch u = some c' ∧
      findChunk c' k.number = some k' ∧ k'.voided = slotNat f 20 1 + 1 ∧ k'.result = false ∧ k'.got = [] ∧
      k'.seals = [] ∧ k'.sealFrom = none ∧ k'.refused = 0 ∧
      u.sw.coreIn = s.sw.coreIn ++ sent.map (fun h => ⟨36, s.clock, now s, true, h⟩) ∧
      u.tenant.ivHeld = s.tenant.ivHeld ++ held ∧
      (sent ++ held).length = (openReceivers c k.number s).length ∧
      (∀ h ∈ sent ++ held, h.ty = tyVoid ∧ h.src = selfEid 0 s ∧ h.mcast = false ∧ h.data = f.data) ∧
      u.mem = s.mem ∧ u.queues = s.queues) ∧
  (∀ (f : Frame) (c : Coll) (s : State), s.powered = true → f.ty = tyVoid → collAuth f s = .pass →
    isGroupVoid f = true → f.src ≠ selfEid 0 s → (∀ e ∈ s.tgt.arrived, e.2.ty ≠ tySeal) →
    collByTag f.stream f.be.toNat s = some c → s.caravan.early = [] →
    ∃ u, Sys2Proof.Machine.exec (.void f) s = .next u ∧ findColl c.group c.epoch u = none ∧
      (∀ m, c.members = [m] → m.status = none →
        (getQ m.queue.val u).fetched = updFirst (fun d => decide (d.index = m.index))
          (fun d => { d with status := some (BitVec.ofNat 8 (slotNat f 21 1)),
                             result := BitVec.ofNat 64 m.signalled }) (getQ m.queue.val s).fetched ∧
        ∀ p : Fin 512, p ≠ m.queue → getQ p.val u = getQ p.val s) ∧
      getBit rCvnStatus 0 u = true ∧ u.mem = s.mem)

/-- Tier 2. ROUTE_RUN, ROUTE_PRELOAD, ROOM_GRANT, ROOM_LOAD_DONE and ROOM_SAVE_DONE: a descriptor whose operands are placed
and whose checks pass becomes a waiting run, a refused one is done with its status, one whose operands are not translated
yet waits; a preload is done at once and sets the preload target where its image lies as it must; the rooms are granted,
filled, saved and freed. -/
def Obligations.RouteRuns : Prop :=
  (∀ (q : Fin 512) (d : DescEx) (s : State), s.powered = true →
    nextToStart q.val s = some d → s.power.oos = false ∨ qPart q.val s = 0 →
    checkDesc (qEngine q.val s) (qPart q.val s) d.raw = stOk → dOp d.raw = opRoute →
    (∀ r ∈ s.array.runs, r.queue ≠ q) → ropeShadow s = false →
    (∀ io f1 ao f2 no f3 oo f4 so f5 dd f6 st,
      routeAt q.val (dfield d.raw 8 8) .r s = .at_ io f1 → routeAt q.val (dfield d.raw 16 8) .r s = .at_ ao f2 →
      routeAt q.val (dfield d.raw 24 8) .r s = .at_ no f3 → routeAt q.val (dfield d.raw 32 8) .w s = .at_ oo f4 →
      (readNat s (ao + 1) 1 % 2 = 1 → routeAt q.val (readNat s (ao + 16) 8) .c s = .at_ so f5) →
      (readNat s (ao + 1) 1 / 2 % 2 = 1 → routeAt q.val (readNat s (ao + 24) 8) .w s = .at_ dd f6) →
      st = runChecks q.val d.raw io (runRecord q d io ao s) s →
      (st = stOk → ∃ u x, Sys2Proof.Machine.exec (.routeRun q) s = .next u ∧ u.array.runs = s.array.runs ++ [x] ∧
        x.queue = q ∧ x.index = d.index ∧ x.part = qPart q.val s ∧ x.passes = hdPassBase io s + readNat s (ao + 4) 4 +
          (if hdElems io s = 0 then 0 else ceilDiv (dfield d.raw 40 8) (hdElems io s)) ∧
        x.stripes = readNat s ao 1 ∧ x.inAt = dfield d.raw 24 8 ∧ x.outAt = dfield d.raw 32 8 ∧
        x.image = dfield d.raw 8 8 ∧ x.crc = hdCrc io s ∧ x.rooms = [] ∧ x.status = stOk ∧
        x.args = (List.range 64).map (fun i => BitVec.ofNat 128 (readNat s (ao + 16 * i) 16)) ∧
        x.phase = (if readNat s ao 1 = 0 then .ready else .rooms) ∧
        (getQ q.val u).fetched = updFirst (fun e => decide (e.index = d.index))
          (fun e => { e with started := true, beganAt := s.clock }) (getQ q.val s).fetched ∧
        (∀ p : Fin 512, p ≠ q → getQ p.val u = getQ p.val s) ∧
        u = { s with queues := u.queues, array.runs := u.array.runs }) ∧
      (st ≠ stOk → ∃ u, Sys2Proof.Machine.exec (.routeRun q) s = .next u ∧
        (getQ q.val u).fetched = updFirst (fun e => decide (e.index = d.index))
          (fun e => { e with started := true, beganAt := s.clock, status := some st, result := 0 })
          (getQ q.val s).fetched ∧
        (∀ p : Fin 512, p ≠ q → getQ p.val u = getQ p.val s) ∧ u = { s with queues := u.queues })) ∧
    (∀ st, routeRefusal [routeAt q.val (dfield d.raw 8 8) .r s, routeAt q.val (dfield d.raw 16 8) .r s,
        routeAt q.val (dfield d.raw 24 8) .r s, routeAt q.val (dfield d.raw 32 8) .w s] = some st →
      ∃ u, Sys2Proof.Machine.exec (.routeRun q) s = .next u ∧
        (getQ q.val u).fetched = updFirst (fun e => decide (e.index = d.index))
          (fun e => { e with started := true, beganAt := s.clock, status := some st, result := 0 })
          (getQ q.val s).fetched ∧
        (∀ p : Fin 512, p ≠ q → getQ p.val u = getQ p.val s) ∧ u = { s with queues := u.queues })) ∧
  (∀ (q : Fin 512) (d : DescEx) (s : State), s.powered = true → nextToStart q.val s = some d →
    s.power.oos = false ∨ qPart q.val s = 0 → checkDesc (qEngine q.val s) (qPart q.val s) d.raw = stOk →
    dOp d.raw = opPreload → ∃ u, Sys2Proof.Machine.exec (.routePreload q) s = .next u ∧
      (getQ q.val u).fetched = updFirst (fun e => decide (e.index = d.index))
        (fun e => { e with started := true, beganAt := s.clock, status := some stOk, result := 0 })
        (getQ q.val s).fetched ∧
      (∀ off fa, routeAt q.val (dfield d.raw 8 8) .r s = .at_ off fa → u.array.preload =
        if imagePlaced (qPart q.val s) (dfield d.raw 8 8) s then
          some ⟨qPart q.val s, dfield d.raw 8 8, fa, hdCrc off s⟩ else s.array.preload) ∧
      (∀ st, routeAt q.val (dfield d.raw 8 8) .r s = .bad st → u.array.preload = s.array.preload) ∧
      (∀ p : Fin 512, p ≠ q → getQ p.val u = getQ p.val s) ∧
      u = { s with queues := u.queues, xlt := u.xlt, array.preload := u.array.preload }) ∧
  (∀ (r : RunRec) (s : State), s.powered = true → firstWaiting s = some r → inReset .ary s = false →
    64 * r.stripes ≤ roomsUnderMax (holderOf r.part s) s → 64 * r.stripes ≤ roomsFreeTo (holderOf r.part s) s →
    (∀ c ∈ s.caravan.colls, collWantsRooms c s = true → r.admitted < c.admitted.getD 0) →
    (∀ k ∈ List.range 64, r.stripes ≤ (freeStripes k s).length) → ∃ u l, Sys2Proof.Machine.exec .roomGrant s = .next u ∧
      l.length = 64 * r.stripes ∧ (∀ n ∈ l, roomHolder n s = 0 ∧ roomHolder n u = holderOf r.part s) ∧
      (∀ n, n ∉ l → roomHolder n u = roomHolder n s) ∧
      u.array.runs = updFirst (fun x => decide (x.queue = r.queue ∧ x.index = r.index))
        (fun _ => { r with rooms := l, phase := .filling }) s.array.runs ∧
      u = { s with array.rooms := u.array.rooms, array.lastRow := 63, array.runs := u.array.runs }) ∧
  (∀ (r : RunRec) (s : State), s.powered = true → firstWaiting s = some r →
    roomsFreeTo (holderOf r.part s) s < 64 * r.stripes ∨ roomsUnderMax (holderOf r.part s) s < 64 * r.stripes ∨
      inReset .ary s = true ∨ (∃ c ∈ s.caravan.colls, collWantsRooms c s = true ∧ c.admitted.getD 0 ≤ r.admitted) →
    Sys2Proof.Machine.exec .roomGrant s = .next s) ∧
  (∀ (q : Fin 512) (r : RunRec) (s : State), s.powered = true → runIn q .filling s = some r →
    ∃ u, Sys2Proof.Machine.exec (.roomLoadDone q) s = .next u ∧
      (r.loadIn = false →
        u.array.slices = (roomsWrite r.rooms 0 (List.replicate (r.rooms.length * 32768) 0) s).array.slices ∧
        u.array.runs = updFirst (fun x => decide (x.queue = r.queue ∧ x.index = r.index))
          (fun _ => { r with phase := .ready, crc := hdCrc (r.fa % 2 ^ 48) s }) s.array.runs ∧
        u = { s with array.slices := u.array.slices, array.badSlices := u.array.badSlices,
                     array.runs := u.array.runs }) ∧
      (r.loadIn = true → ∀ off fa s₁, runPlace r r.roomSrc .c s = (.at_ off fa, s₁) →
        (∀ l ∈ linesOf off (r.rooms.length * 32768), lineStatus l s₁ = stOk ∧ softWords l s₁ = [] ∧ tagErrs l s₁ = 0) →
        u.array.slices = (roomsWrite r.rooms 0 (readMem s₁ off (r.rooms.length * 32768)) s₁).array.slices ∧
        u.array.runs = updFirst (fun x => decide (x.queue = r.queue ∧ x.index = r.index))
          (fun _ => { r with phase := .ready, crc := hdCrc (r.fa % 2 ^ 48) s }) s.array.runs ∧
        u = { s₁ with array.slices := u.array.slices, array.badSlices := u.array.badSlices,
                      array.runs := u.array.runs }) ∧
      (r.loadIn = true → ∀ s₁, runPlace r r.roomSrc .c s = (.miss, s₁) → u = s₁)) ∧
  (∀ (q : Fin 512) (r : RunRec) (s : State), s.powered = true → runIn q .saving s = some r →
    ∃ u, Sys2Proof.Machine.exec (.roomSaveDone q) s = .next u ∧
      (∀ off fa s₁, roomsBad r.rooms s = false → runPlace r r.roomDst .w s = (.at_ off fa, s₁) →
        (linesStatus (linesOf off (r.rooms.length * 32768)) s₁ = stOk → s.observe.cairns = [] →
          wroteBytes off (roomsRead r.rooms 0 (r.rooms.length * 32768) s) s₁ u) ∧
        (getQ r.queue.val u).fetched = updFirst (fun e => decide (e.index = r.index))
          (fun e => { e with status := some stOk, result := BitVec.ofNat 64 r.result })
          (getQ r.queue.val s₁).fetched ∧
        u.array.runs = s.array.runs.filter (fun x => !(decide (x.queue = r.queue ∧ x.index = r.index))) ∧
        (∀ n ∈ r.rooms, roomHolder n u = 0) ∧ (∀ n, n ∉ r.rooms → roomHolder n u = roomHolder n s) ∧
        (∀ p : Fin 512, p ≠ r.queue → getQ p.val u = getQ p.val s₁) ∧ u.array.slices = s.array.slices) ∧
      (roomsBad r.rooms s = true →
        (getQ r.queue.val u).fetched = updFirst (fun e => decide (e.index = r.index))
          (fun e => { e with status := some stUncorrectable, result := 0 }) (getQ r.queue.val s).fetched ∧
        u.array.runs = s.array.runs.filter (fun x => !(decide (x.queue = r.queue ∧ x.index = r.index))) ∧
        (∀ n ∈ r.rooms, roomHolder n u = 0) ∧ u.mem = s.mem))

/-- Tier 2. RUN_START, RUN_END, RUN_LIMIT_EXPIRY, SHADOW_LOAD_START and SHADOW_LOAD_DONE: the earliest ready run starts on a
cleared array, on the plane that serves it, after a swap where that is the shadow, and one whose image failed is done with
its status; its end gives the status and the cycles; a run past its limit ends AGED; the shadow loads what is wanted next,
and an image that fails a check leaves it empty. -/
def Obligations.RunsAndPlanes : Prop :=
  (∀ (x : Ready) (s : State), s.powered = true → s.array.current = none → arrayHeld s = false →
    inReset .ary s = false → compStopped 5 s = false → ropeShadow s = false → firstReady (readyRuns s) = some x →
    (refusedRun x s = none →
      serves (activePlane s) x.fa x.crc = true ∨ (s.array.shadow = 2 ∧ serves (shadowPlane s) x.fa x.crc = true) →
      ∃ u, Sys2Proof.Machine.exec .runStart s = .next u ∧ u.array.current = some x.id ∧ u.array.runAt = s.clock ∧
        u.array.limitMs = runLimit s ∧ serves (activePlane u) x.fa x.crc = true ∧ u.array.pass = 0 ∧ u.array.slot = 0 ∧
        u.array.cycle = 0 ∧ u.array.regs = [] ∧ u.array.latches = [] ∧ u.array.bus = [] ∧ u.array.idx = [] ∧
        u.array.sigs = [] ∧ u.array.scratch = [] ∧ u.array.inFifo = [] ∧ u.array.outQ = [] ∧ u.array.pipe = [] ∧
        u.array.rooms = s.array.rooms ∧ u.array.slices = s.array.slices ∧
        (∀ r, runOfId x.id s = some r → runOfId x.id u = some (seedRun { r with phase := .running } s)) ∧
        (serves (activePlane s) x.fa x.crc = true → u.array.activeB = s.array.activeB) ∧
        (serves (activePlane s) x.fa x.crc = false → u.array.activeB = !s.array.activeB ∧
          u.array.shadow = if (activePlane s).loaded && !(activePlane s).retired then 2 else 0) ∧
        u = { s with array := u.array, rope := u.rope, counters := u.counters }) ∧
    (∀ r, refusedRun x s = some r → ∃ u, Sys2Proof.Machine.exec .runStart s = .next u ∧
      (getQ r.queue.val u).fetched = updFirst (fun e => decide (e.index = r.index))
        (fun e => { e with status := some r.status, result := 0 }) (getQ r.queue.val s).fetched ∧
      u.array.runs = s.array.runs.filter (fun y => !(decide (y.queue = r.queue ∧ y.index = r.index))) ∧
      (∀ n ∈ r.rooms, roomHolder n u = 0) ∧ u.array.current = none)) ∧
  (∀ s : State, s.powered = true → s.array.current ≠ none ∨ arrayHeld s = true ∨ inReset .ary s = true ∨
    compStopped 5 s = true ∨ (ropeShadow s = false ∧ readyRuns s = []) →
    Sys2Proof.Machine.exec .runStart s = .next s) ∧
  (∀ (q : Fin 512) (i : BitVec 32) (r : RunRec) (s : State), s.powered = true →
    s.array.current = some (.route q i) → currentRun s = some r → s.rope.capture = none →
    (loopPasses r s ≤ s.array.pass → s.array.pipe = [] → s.array.outQ = [] →
      ∃ u, Sys2Proof.Machine.exec .runEnd s = .next u ∧
      u.array.current = none ∧ getBit rAryStatus 0 u = true ∧ (∀ o, o ≠ rAryStatus → getReg o u = getReg o s) ∧
      (r.saveOut = false ∨ r.status ≠ stOk →
        (getQ q.val u).fetched = updFirst (fun e => decide (e.index = i))
          (fun e => { e with status := some r.status,
                             result := if r.status = stOk then
                               BitVec.ofNat 64 (loopPasses r s * (activePlane s).loop) else 0 })
          (getQ q.val s).fetched ∧ u.array.runs = s.array.runs.filter (fun x => !(decide (x.queue = q ∧ x.index = i))) ∧
        (∀ n ∈ r.rooms, roomHolder n u = 0) ∧ (∀ n, n ∉ r.rooms → roomHolder n u = roomHolder n s)) ∧
      (r.saveOut = true → r.status = stOk → u.queues = s.queues ∧ u.array.rooms = s.array.rooms ∧
        u.array.runs = updFirst (fun x => decide (x.queue = q ∧ x.index = i))
          (fun _ => { r with phase := .saving, result := loopPasses r s * (activePlane s).loop }) s.array.runs) ∧
      (∀ p : Fin 512, p ≠ q → getQ p.val u = getQ p.val s) ∧
      u = { s with array := u.array, queues := u.queues, rope := u.rope, counters := u.counters, regs := u.regs,
                   host := u.host, side := u.side }) ∧
    (r.status ≠ stOk → r.early = true → s.array.slot = 0 → s.array.cycle ≠ 0 → s.array.issued = [] →
      ∃ u, Sys2Proof.Machine.exec .runEnd s = .next u ∧
      u.array.current = none ∧ (getQ q.val u).fetched = updFirst (fun e => decide (e.index = i))
        (fun e => { e with status := some r.status, result := 0 }) (getQ q.val s).fetched ∧
      (∀ n ∈ r.rooms, roomHolder n u = 0) ∧ (∀ p : Fin 512, p ≠ q → getQ p.val u = getQ p.val s)) ∧
    (r.early = false → s.array.pass < loopPasses r s ∨ s.array.pipe ≠ [] ∨ s.array.outQ ≠ [] →
      Sys2Proof.Machine.exec .runEnd s = .next s) ∧
    (s.array.runAt + 1000000 * s.array.limitMs ≤ s.clock →
      ∃ u, Sys2Proof.Machine.exec .runLimitExpiry s = .next u ∧ u.array.current = none ∧ u.array.pipe = [] ∧
      getBit rAryStatus 0 u = true ∧ getBit rAryStatus 3 u = true ∧
      (getQ q.val u).fetched = updFirst (fun e => decide (e.index = i))
        (fun e => { e with status := some stAged, result := 0 }) (getQ q.val s).fetched ∧
      (∀ n ∈ r.rooms, roomHolder n u = 0) ∧ (∀ p : Fin 512, p ≠ q → getQ p.val u = getQ p.val s) ∧
      u = { s with array := u.array, queues := u.queues, counters := u.counters, regs := u.regs, host := u.host,
                   side := u.side })) ∧
  (∀ s : State, s.powered = true → s.array.current = none ∨ s.clock < s.array.runAt + 1000000 * s.array.limitMs →
    Sys2Proof.Machine.exec .runLimitExpiry s = .next s) ∧
  (∀ (t : LoadTarget) (s : State), s.powered = true → shadowTarget s = some t →
    inReset .ary s = false → shadowHolds t.fa t.crc s = false → serves (activePlane s) t.fa t.crc = false →
    t.who.isSome = true ∨ s.array.shadow ≠ 1 →
    ∃ u, Sys2Proof.Machine.exec .shadowLoadStart s = .next u ∧
      (∀ s₁, loadPlace t s = (none, s₁) → u = s₁) ∧
      (∀ fa crc s₁ p, loadPlace t s = (some fa, s₁) → crc = hdCrc (fa % 2 ^ 48) s₁ →
        p = { plane0 with fa := fa, crc := crc, part := t.part, pages := t.image.bind (fun a => namedPages t.part a s₁) } →
        shadowHolds fa crc s₁ = false → serves (activePlane s₁) fa crc = false →
        (stepImage fa s₁ = true ∨ headerGood (fa % 2 ^ 48) (libraryPlace p s₁) s₁ = true →
          u.array.shadow = 1 ∧ shadowPlane u = p ∧ activePlane u = activePlane s₁ ∧ u = { s₁ with array := u.array }) ∧
        (stepImage fa s₁ = false → headerGood (fa % 2 ^ 48) (libraryPlace p s₁) s₁ = false →
          u.array.shadow = 0 ∧ shadowPlane u = plane0 ∧ getBit rAryStatus 1 u = true ∧
          activePlane u = activePlane s₁ ∧ (∀ r ∈ u.array.runs, r.fa = fa → r.crc = crc → r.phase ≠ .running →
            r.phase ≠ .saving → r.status ≠ stOk) ∧
          (∀ o, o ≠ rAryStatus → getReg o u = getReg o s₁) ∧ u = { s₁ with array := u.array, regs := u.regs }))) ∧
  (∀ s : State, s.powered = true → shadowTarget s = none ∨ inReset .ary s = true →
    Sys2Proof.Machine.exec .shadowLoadStart s = .next s) ∧
  (∀ (p : Plane) (s : State), s.powered = true → s.array.shadow = 1 → p = shadowPlane s →
    ∃ u, Sys2Proof.Machine.exec .shadowLoadDone s = .next u ∧ activePlane u = activePlane s ∧
      (stepImage p.fa s = false → headerGood (p.fa % 2 ^ 48) (libraryPlace p s) s = true →
        recordsGood (p.fa % 2 ^ 48) p.crc s = true →
        u.array.shadow = 2 ∧ shadowPlane u = planeOf p (p.fa % 2 ^ 48) s ∧ u = { s with array := u.array }) ∧
      (stepImage p.fa s = false → headerGood (p.fa % 2 ^ 48) (libraryPlace p s) s = false ∨
          recordsGood (p.fa % 2 ^ 48) p.crc s = false →
        u.array.shadow = 0 ∧ (shadowPlane u).loaded = false ∧ getBit rAryStatus 1 u = true ∧
        (∀ o, o ≠ rAryStatus → getReg o u = getReg o s) ∧ u = { s with array := u.array, regs := u.regs }) ∧
      (stepImage p.fa s = true → u.array.shadow = 2 ∧ (shadowPlane u).loaded = true ∧ (shadowPlane u).fa = p.fa ∧
        u = { s with array := u.array })) ∧
  (∀ s : State, s.powered = true → s.array.shadow ≠ 1 → Sys2Proof.Machine.exec .shadowLoadDone s = .next s)

/-- Tier 2. The cell instructions CELL_NOP, MOV, OPLUS, OTIMES, MAC, DOT, SUB, CMPSEL, LOGIC, SHIFT, CMP, SEL, PERM, CVT,
ANCHOR, TOFIX, FROMFIX, SCALE, RAND, SETIDX, LDI and HRED: a live slot of the row's opcode issues with the operands of
R210 as they stand, the column-bus ones in the order A, B, C, and its result is due after the opcode's latency; a slot
outside its passes is a NOP; one cell's read of an empty input FIFO stalls every cell. -/
def Obligations.CellsIssue : Prop :=
  (∀ (cell : Fin 4096) (r : RunRec) (i : Word) (s : State), s.powered = true → currentRun s = some r →
    inRope s = false → issueStopped s = false → inReset .ary s = false →
    swActive (cellSwitch (activePlane s) cell.val) = true → cell.val ∉ s.array.issued →
    s.array.pass < loopPasses r s → arrayStalls r s = false →
    cellSlot (activePlane s) cell.val s.array.slot = i → slotLive i s.array.pass r.passes = true →
    ∀ c op f, (c, op, f) ∈ [((.mov cell : Instr), oMov, fun (x : CellIn) => x.a), (.oplus cell, oOplus, cellOplus),
      (.otimes cell, oOtimes, cellOtimes), (.mac cell, oMac, cellMac), (.dot cell, oDot, cellDot),
      (.sub cell, oSub, cellSub), (.cmpsel cell, oCmpsel, cellCmpsel), (.logic cell, oLogic, cellLogic),
      (.shift cell, oShift, cellShift), (.cmp cell, oCmp, cellCmp), (.sel cell, oSel, cellSel),
      (.perm cell, oPerm, cellPerm), (.cvt cell, oCvt, cellCvt), (.anchor cell, oAnchor, cellAnchor),
      (.tofix cell, oTofix, cellTofix), (.fromfix cell, oFromfix, cellFromfix), (.scale cell, oScale, cellScale),
      (.rand cell, oRand, cellRand), (.setidx cell, oSetidx, fun x => BitVec.ofNat 128 (wordIndex x.a)),
      (.ldi cell, oLdi, cellLdi), (.hred cell, oHred, cellHred)] → slOp i = op →
    ∃ u n x, Sys2Proof.Machine.exec c s = .next u ∧ u.array.pipe = s.array.pipe ++ [n] ∧ n.cell = cell.val ∧
      n.slot = s.array.slot ∧ n.value = f x ∧ n.dst = (if op = oSetidx then dstIdx else slDst i) ∧
      n.issued = s.array.cycle ∧ n.due = s.array.cycle + latency op (slotFmt i).isFloat ∧
      (n.dst = opScr → n.addr = scratchAddr (cellSwitch (activePlane s) cell.val) i s.array.pass) ∧
      (n.dst = opRoom → n.addr = roomAddr (cellSwitch (activePlane s) cell.val) i s.array.pass) ∧
      x.i = i ∧ x.f = slotFmt i ∧ x.w = slotWidth i ∧
      x.r = slotRing i ∧ x.seed = r.seed ∧ x.stream = r.stream ∧ x.idx = tblGet 0 s.array.idx cell.val ∧
      (∀ code v reads before, (code, v, reads, before) ∈ [(slSrcA i, x.a, readsA op, ([] : List Nat)),
          (slSrcB i, x.b, readsB i, if readsA op then [slSrcA i] else []),
          (slSrcC i, x.c, readsC i, (if readsA op then [slSrcA i] else []) ++ if readsB i then [slSrcB i] else [])] →
        (reads = false → v = 0) ∧ (reads = true →
        (code < 0x40 → v = tblGet 0 s.array.regs (64 * cell.val + code)) ∧
        (0x40 ≤ code → code < 0x44 → v = tblGet 0 s.array.latches (4 * cell.val + (code - 0x40))) ∧
        (code = opRowBus → v = tblGet 0 s.array.bus (cell.val / 64)) ∧
        (code = opColBus → v = (tblGet [] s.array.inFifo cell.val).getD
          (before.filter (fun c => decide (c = opColBus))).length 0) ∧
        (code = opScr → v = tblGet 0 s.array.scratch
          (256 * cell.val + scratchAddr (cellSwitch (activePlane s) cell.val) i s.array.pass)) ∧
        (∀ a, code = opRoom → mapStripe r cell.val (roomAddr (cellSwitch (activePlane s) cell.val) i s.array.pass) =
          some a → v = sliceWord cell.val a s) ∧
        (code = opRoom → mapStripe r cell.val (roomAddr (cellSwitch (activePlane s) cell.val) i s.array.pass) = none →
          v = 0 ∧ getBit rAryStatus 4 u = true) ∧
        (code = opPident → v = identVec (plusIdent x.r x.f x.w) x.w
          (slotCtr cell.val s.array.slot s.array.pass i 0 0 0)) ∧
        (code = opTident → v = identVec (timesIdent x.r x.f x.w) x.w
          (slotCtr cell.val s.array.slot s.array.pass i 0 0 0)) ∧
        (code = opZero → v = 0) ∧ (code = opConst → v = swConst (cellSwitch (activePlane s) cell.val)) ∧
        (code = opPass → v = splat32 (s.array.pass - slStage i)) ∧
        (code = opCell → v = ofLanes 32 [cell.val / 64, cell.val % 64, 0, 0]) ∧
        (code = opArg → v = r.args.getD (slImm i % 64) 0))) ∧
      tblGet [] u.array.inFifo cell.val = (tblGet [] s.array.inFifo cell.val).drop
        ((sources i).filter (fun c => decide (c = opColBus))).length ∧
      (∀ j, j ≠ cell.val → tblGet [] u.array.inFifo j = tblGet [] s.array.inFifo j) ∧
      (∀ o, o ≠ rAryStatus → getReg o u = getReg o s) ∧
      u = { s with array := { s.array with issued := cell.val :: s.array.issued, pipe := u.array.pipe,
                                           inFifo := u.array.inFifo, runs := u.array.runs },
                   rope := u.rope, regs := u.regs }) ∧
  (∀ (cell : Fin 4096) (r : RunRec) (i : Word) (s : State), s.powered = true → currentRun s = some r →
    issueStopped s = false → inReset .ary s = false → swActive (cellSwitch (activePlane s) cell.val) = true →
    cell.val ∉ s.array.issued → s.array.pass < loopPasses r s → arrayStalls r s = false →
    cellSlot (activePlane s) cell.val s.array.slot = i → slotLive i s.array.pass r.passes = false ∨ slOp i = oNop →
    Sys2Proof.Machine.exec (.cellNop cell) s =
      .next { s with array.issued := cell.val :: s.array.issued }) ∧
  (∀ (cell : Fin 4096) (s : State), s.powered = true → ∀ c op,
    (c, op) ∈ [((.cellNop cell : Instr), oNop), (.mov cell, oMov), (.oplus cell, oOplus),
      (.otimes cell, oOtimes), (.mac cell, oMac), (.dot cell, oDot), (.sub cell, oSub), (.cmpsel cell, oCmpsel),
      (.logic cell, oLogic), (.shift cell, oShift), (.cmp cell, oCmp), (.sel cell, oSel), (.perm cell, oPerm),
      (.cvt cell, oCvt), (.anchor cell, oAnchor), (.tofix cell, oTofix), (.fromfix cell, oFromfix),
      (.scale cell, oScale), (.rand cell, oRand), (.setidx cell, oSetidx), (.ldi cell, oLdi), (.hred cell, oHred)] →
    (currentRun s = none ∨ issueStopped s = true ∨ swActive (cellSwitch (activePlane s) cell.val) = false ∨
      cell.val ∈ s.array.issued ∨
      ∃ r i, currentRun s = some r ∧ i = cellSlot (activePlane s) cell.val s.array.slot ∧
        (loopPasses r s ≤ s.array.pass ∨
          (if slotLive i s.array.pass r.passes then slOp i else oNop) ≠ op ∨
          outputFull s = true ∨
          ∃ j x, inRope s = false ∧ x = cellSlot (activePlane s) j s.array.slot ∧
            swActive (cellSwitch (activePlane s) j) = true ∧ s.array.pass < loopPasses r s ∧
            slotLive x s.array.pass r.passes = true ∧ j ∉ s.array.issued ∧ opColBus ∈ sources x ∧
            tblGet [] s.array.inFifo j = [])) →
    Sys2Proof.Machine.exec c s = .next s)

/-- Tier 2. What the cell instructions compute on the four lanes of INT32 in (+,×), of SEL, LOGIC, SHIFT and PERM, and the
sign-extended LDI and the pair order of CMPSEL. -/
def Obligations.CellArithmetic : Prop :=
  (∀ (x : CellIn) (j : Nat), x.f = .int32 → x.w = 32 → x.r = .plusTimes → j < 4 →
    lane (cellOplus x) 32 j = (lane x.a 32 j + lane x.b 32 j) % 2 ^ 32 ∧
    lane (cellOtimes x) 32 j = lane x.a 32 j * lane x.b 32 j % 2 ^ 32 ∧
    lane (cellMac x) 32 j = (lane x.a 32 j * lane x.b 32 j + lane x.c 32 j) % 2 ^ 32 ∧
    lane (cellSub x) 32 j = (lane x.a 32 j + (2 ^ 32 - lane x.b 32 j)) % 2 ^ 32 ∧
    lane (cellDot x) 32 j = (lane x.a 32 j * lane x.b 32 j + lane x.c 32 j) % 2 ^ 32 ∧
    (slAux x.i = 0 → lane (cellCmp x) 32 j = if lane x.a 32 j = lane x.b 32 j then 2 ^ 32 - 1 else 0) ∧
    (slAux x.i = 2 → lane (cellCmp x) 32 j =
      if decodeInt true 32 (lane x.a 32 j) < decodeInt true 32 (lane x.b 32 j) then 2 ^ 32 - 1 else 0) ∧
    lane (cellLdi x) 32 j = (if slImm x.i < 2 ^ 13 then slImm x.i else 2 ^ 32 - 2 ^ 14 + slImm x.i) ∧
    lane (cellHred x) 32 j = (if j = 0 then
      (lane x.a 32 0 + lane x.a 32 1 + lane x.a 32 2 + lane x.a 32 3) % 2 ^ 32 else 0)) ∧
  (∀ (x : CellIn) (j : Nat), x.w = 4 ∨ x.w = 8 ∨ x.w = 16 ∨ x.w = 32 ∨ x.w = 64 → j < laneCount x.w →
    lane (cellSel x) x.w j = (if lane x.c x.w j = 0 then lane x.b x.w j else lane x.a x.w j) ∧
    (slAux x.i = 0 → lane (cellShift x) x.w j = lane x.a x.w j * 2 ^ (slImm x.i % 64 % x.w) % 2 ^ x.w) ∧
    (slAux x.i = 1 → lane (cellShift x) x.w j = lane x.a x.w j / 2 ^ (slImm x.i % 64 % x.w)) ∧
    (slAux x.i = 0 → lane (cellPerm x) x.w j = lane x.a x.w (laneCount x.w - 1 - j)) ∧
    (slAux x.i = 2 → lane (cellPerm x) x.w j = lane x.a x.w ((j + laneCount x.w / 2) % laneCount x.w))) ∧
  (∀ (x : CellIn) (k : Nat), x.f = .int32 → k < 2 → slAux x.i < 2 →
    (lane (cellCmpsel x) 32 (2 * k), lane (cellCmpsel x) 32 (2 * k + 1)) =
      (if decodeInt true 32 (lane x.a 32 (2 * k)) = decodeInt true 32 (lane x.b 32 (2 * k)) then
        (lane x.a 32 (2 * k), min (lane x.a 32 (2 * k + 1)) (lane x.b 32 (2 * k + 1)))
      else if (slAux x.i = 1 ↔ decodeInt true 32 (lane x.b 32 (2 * k)) < decodeInt true 32 (lane x.a 32 (2 * k))) then
        (lane x.a 32 (2 * k), lane x.a 32 (2 * k + 1))
      else (lane x.b 32 (2 * k), lane x.b 32 (2 * k + 1)))) ∧
  (∀ x : CellIn, (slAux x.i = 0 → cellLogic x = x.a &&& x.b) ∧ (slAux x.i = 3 → cellLogic x = x.a &&& ~~~x.b) ∧
    (slAux x.i = 4 → cellLogic x = ~~~x.a))

/-- Tier 2. INSTRUCTION_RESULT_WRITE and COLUMN_BUS_TRANSFER: at the end of a cycle the due results land, of two for one
destination the later-issued, and the loop moves on; a stall cycle only counts; the words of IN enter the cells' FIFOs in
ascending order over the cells and the heads of their output queues go to OUT in the same order; past the end of its page a
stream ends the run with MALFORMED. -/
def Obligations.ResultsAndColumnBuses : Prop :=
  (∀ (r : RunRec) (s : State), s.powered = true → currentRun s = some r → inReset .ary s = false →
    (stallCycle r s = true → ∃ u, Sys2Proof.Machine.exec .instructionResultWrite s = .next u ∧
      u = { s with counters := u.counters }) ∧
    (stallCycle r s = false → s.array.pass < loopPasses r s → s.array.issued.length < (activePlane s).active →
      Sys2Proof.Machine.exec .instructionResultWrite s = .next s) ∧
    (stallCycle r s = false → (s.array.pass < loopPasses r s → (activePlane s).active ≤ s.array.issued.length) →
      ∃ u, Sys2Proof.Machine.exec .instructionResultWrite s = .next u ∧ u.array.cycle = s.array.cycle + 1 ∧
      u.array.issued = [] ∧ u.array.pipe = s.array.pipe.filter (fun n => decide (s.array.cycle < n.due)) ∧
      (s.array.pass < loopPasses r s → s.array.slot + 1 < (activePlane s).loop →
        u.array.slot = s.array.slot + 1 ∧ u.array.pass = s.array.pass) ∧
      (s.array.pass < loopPasses r s → (activePlane s).loop ≤ s.array.slot + 1 →
        u.array.slot = 0 ∧ u.array.pass = s.array.pass + 1) ∧
      (∀ l n t, s.array.pipe = l ++ n :: t → n.due ≤ s.array.cycle →
        (∀ m ∈ t, m.due ≤ s.array.cycle → ¬(m.cell = n.cell ∧ m.dst = n.dst)) →
        (n.dst < 0x40 → tblGet 0 u.array.regs (64 * n.cell + n.dst) = n.value) ∧
        (∀ k c, k < 4 → n.dst = 0x40 + k → neighbour n.cell k = some c →
          tblGet 0 u.array.latches (4 * c + (k + 2) % 4) =
            if swActive (cellSwitch (activePlane s) c) then n.value
            else tblGet 0 s.array.latches (4 * c + (k + 2) % 4)) ∧
        (n.dst = opColBus → swColDrive (cellSwitch (activePlane s) n.cell) n.slot = true →
          tblGet [] u.array.outQ n.cell = tblGet [] s.array.outQ n.cell ++ [n.value]) ∧
        (∀ a, n.dst = opRoom → inRope s = false → mapStripe r n.cell n.addr = some a →
          sliceWord n.cell a u = n.value) ∧
        (n.dst = opRoom → inRope s = false → mapStripe r n.cell n.addr = none → getBit rAryStatus 4 u = true) ∧
        (n.dst = dstIdx → tblGet 0 u.array.idx n.cell = n.value.toNat)) ∧
      (∀ cell k, k < 0x40 → (∀ m ∈ s.array.pipe, m.due ≤ s.array.cycle → ¬(m.cell = cell ∧ m.dst = k)) →
        tblGet 0 u.array.regs (64 * cell + k) = tblGet 0 s.array.regs (64 * cell + k)) ∧
      (∀ n ∈ s.array.pipe, n.due ≤ s.array.cycle →
        n.dst = opRowBus ∧ swRowDrive (cellSwitch (activePlane s) n.cell) n.slot = false ∨
          n.dst = opColBus ∧ swColDrive (cellSwitch (activePlane s) n.cell) n.slot = false →
        getBit rAryStatus 2 u = true) ∧
      (∀ n ∈ dueResults s, n.dst = opRowBus → swRowDrive (cellSwitch (activePlane s) n.cell) n.slot = true →
        (n.cell / 64, s.array.cycle, n.value) ∈ u.array.busNext) ∧
      (∀ row t v, s.array.busNext = [(row, t, v)] → t < s.array.cycle → tblGet 0 u.array.bus row = v) ∧
      (∀ o, o ≠ rAryStatus → getReg o u = getReg o s) ∧ u.array.rooms = s.array.rooms ∧
      u.array.inFifo = s.array.inFifo ∧ u.array.current = s.array.current ∧
      u = { s with array := u.array, rope := u.rope, counters := u.counters, regs := u.regs })) ∧
  (∀ s : State, s.powered = true → currentRun s = none ∨ inReset .ary s = true →
    Sys2Proof.Machine.exec .instructionResultWrite s = .next s) ∧
  (∀ (cell : Fin 4096) (r : RunRec) (a : Nat) (s : State), s.powered = true → currentRun s = some r →
    inReset .ary s = false → inRope s = false → r.status ≠ stFault → a = r.inAt + 16 * s.array.inNext →
    ∃ u, Sys2Proof.Machine.exec (.columnBusTransfer cell true) s = .next u ∧
      (a + 16 ≤ pageEnd r.part r.inAt s → cell.val = s.array.inNext % 4096 →
        (tblGet [] s.array.inFifo cell.val).length < 8 → ∀ off fa s₁, runPlace r a .r s = (.at_ off fa, s₁) →
        lineStatus (lineOf off) s₁ = stOk → softWords (lineOf off) s₁ = [] → tagErrs (lineOf off) s₁ = 0 →
        tblGet [] u.array.inFifo cell.val = tblGet [] s.array.inFifo cell.val ++ [BitVec.ofNat 128 (readNat s off 16)] ∧
        (∀ j, j ≠ cell.val → tblGet [] u.array.inFifo j = tblGet [] s.array.inFifo j) ∧
        u.array.inNext = s.array.inNext + 1 ∧
        u = { s₁ with array.inFifo := u.array.inFifo, array.inNext := u.array.inNext, counters := u.counters }) ∧
      (a + 16 ≤ pageEnd r.part r.inAt s →
        cell.val ≠ s.array.inNext % 4096 ∨ 8 ≤ (tblGet [] s.array.inFifo cell.val).length → u = s) ∧
      (pageEnd r.part r.inAt s < a + 16 → stallsOnInput r cell.val s = true → r.status = stOk →
        (∃ x ∈ u.array.runs, x.queue = r.queue ∧ x.index = r.index ∧ x.status = stMalformed ∧ x.early = true) ∧
        (tblGet [] u.array.inFifo cell.val).length = (tblGet [] s.array.inFifo cell.val).length + 1 ∧
        u = { s with array := u.array, freeCtr := u.freeCtr })) ∧
  (∀ (cell : Fin 4096) (r : RunRec) (v : Vec) (t : List Vec) (a : Nat) (s : State), s.powered = true →
    currentRun s = some r → inReset .ary s = false → inRope s = false → tblGet [] s.array.outQ cell.val = v :: t →
    a = r.outAt + 16 * s.array.outNext →
    ∃ u, Sys2Proof.Machine.exec (.columnBusTransfer cell false) s = .next u ∧
      (cell.val = s.array.outNext % 4096 → r.status ≠ stFault → a + 16 ≤ pageEnd r.part r.outAt s →
        ∀ off fa s₁, runPlace r a .w s = (.at_ off fa, s₁) →
        tblGet [] u.array.outQ cell.val = t ∧ (∀ j, j ≠ cell.val → tblGet [] u.array.outQ j = tblGet [] s.array.outQ j) ∧
        u.array.outNext = s.array.outNext + 1 ∧ u.array.inFifo = s.array.inFifo ∧ u.array.runs = s.array.runs ∧
        (linesStatus (linesOf off 16) s₁ = stOk → s.observe.cairns = [] →
          wroteBytes off (bytesOfNat 16 v.toNat) s₁ u)) ∧
      (cell.val = s.array.outNext % 4096 → r.status = stOk → pageEnd r.part r.outAt s < a + 16 → u.mem = s.mem ∧
        tblGet [] u.array.outQ cell.val = t ∧ u.array.outNext = s.array.outNext + 1 ∧
        ∃ x ∈ u.array.runs, x.queue = r.queue ∧ x.index = r.index ∧ x.status = stMalformed ∧ x.early = true) ∧
      (cell.val ≠ s.array.outNext % 4096 → u = s)) ∧
  (∀ (cell : Fin 4096) (inward : Bool) (s : State), s.powered = true →
    currentRun s = none ∨ inReset .ary s = true ∨ (inward = false ∧ tblGet [] s.array.outQ cell.val = []) →
    Sys2Proof.Machine.exec (.columnBusTransfer cell inward) s = .next s)

/-- Tier 2. MODE_WRITE, ROPE_CFG_WRITE, ROPE_PAIR_FORM, RELEASE, REARM and ROPE_INPUT_RECEIVE: DET_STRICT changes only with
no tenant partition active; a rope pair forms when the two configurations match, and while it stands its register
takes only a write that clears ENABLE; RELEASE and REARM act as R203 says, and otherwise are counted. -/
def Obligations.RopePairs : Prop :=
  (∀ (side : Side) (v : Word) (s : State), s.powered = true → gate side bKPR false .kpr s = .go →
    (anyActive s = false ∨ wbit v 0 = getBit rKprMode 0 s → ∃ u, Sys2Proof.Machine.exec (.modeWrite side v) s = .next u ∧
      getBit rKprMode 0 u = wbit v 0 ∧ (∀ o, o ≠ rKprMode → getReg o u = getReg o s) ∧ u = { s with regs := u.regs }) ∧
    (anyActive s = true → wbit v 0 ≠ getBit rKprMode 0 s →
      Sys2Proof.Machine.exec (.modeWrite side v) s = .next (bump (rBlockEvents bKPR) 1 s))) ∧
  (∀ (side : Side) (v : Word) (s : State), s.powered = true → gate side bDBG false .ary s = .go →
    (s.rope.paired = false → ∃ u, Sys2Proof.Machine.exec (.ropeCfgWrite side v) s = .next u ∧
      (∀ i ∈ [61, 62, 63], getBit rRopeCfg i u = wbit v i) ∧ getField rRopeCfg 53 48 u = wfield v 53 48 ∧
      getField rRopeCfg 43 32 u = wfield v 43 32 ∧ (∀ o, o ≠ rRopeCfg → getReg o u = getReg o s) ∧
      u = { s with regs := u.regs }) ∧
    (s.rope.paired = true → wbit v 63 = true →
      Sys2Proof.Machine.exec (.ropeCfgWrite side v) s = .next (bump (rBlockEvents bDBG) 1 s)) ∧
    (s.rope.paired = true → wbit v 63 = false → ∃ u, Sys2Proof.Machine.exec (.ropeCfgWrite side v) s = .next u ∧
      u.rope.paired = false ∧ u.rope.crcs = [] ∧ u.rope.shadowBytes = [] ∧ getBit rRopeCfg 63 u = false ∧
      u.rope.sent = s.rope.sent ∧
      u.array.current = (if s.array.current = some .rope then none else s.array.current) ∧
      (s.rope.capture = none → u.rope.capture = none ∧ (∀ o, o ≠ rRopeCfg → getReg o u = getReg o s)) ∧
      (∀ c, s.rope.capture = some c → s.array.current = none ∨ s.array.current = some .rope →
        u.rope.capture = none ∧ u.rope.recordValid = true ∧ getBit rRopeStatus 0 u = true ∧
        u.rope.held = getBit rRopeCfg 61 u ∧ u.rope.record.getD 14 0 = 1 ∧
        (u.rope.record.drop 36).take 4 = bytesOfNat 4 0) ∧
      (∀ c i, s.rope.capture = some c → s.array.current = some i → i ≠ .rope →
        u.rope.capture = some { c with lost := true }) ∧
      u = { s with regs := u.regs, rope := u.rope, array.current := u.array.current, array.pipe := u.array.pipe })) ∧
  (∀ (peer : Word) (s : State), s.powered = true → s.rope.paired = false → inReset .ary s = false →
    ropeMatches peer s = true → ropeConsent s = true → ∃ u, Sys2Proof.Machine.exec (.ropePairForm peer true) s = .next u ∧
      u.rope.paired = true ∧ u.rope.compared = 0 ∧ u.rope.runNo = 0 ∧ u.rope.crcs = [] ∧ u.rope.held = s.rope.held ∧
      u.rope.record = s.rope.record ∧ u.rope.armed = s.rope.armed ∧ u = { s with rope := u.rope }) ∧
  (∀ (peer : Word) (b : Bool) (s : State), s.powered = true →
    b = false ∨ ropeMatches peer s = false ∨ ropeConsent s = false ∨ s.rope.paired = true →
    Sys2Proof.Machine.exec (.ropePairForm peer b) s = .next s) ∧
  (∀ (side : Side) (s : State), s.powered = true → gate side bDBG false .ary s = .go →
    (s.rope.held = true → Sys2Proof.Machine.exec (.release side) s = .next { s with rope.held := false } ∧
      Sys2Proof.Machine.exec (.rearm side) s = .next (bump (rBlockEvents bDBG) 1 s)) ∧
    (s.rope.held = false → Sys2Proof.Machine.exec (.release side) s = .next (bump (rBlockEvents bDBG) 1 s) ∧
      Sys2Proof.Machine.exec (.rearm side) s = .next { s with rope.recordValid := false, rope.armed := true })) ∧
  (∀ (k : RopeInput) (bs : List Byte) (s : State), s.powered = true → ropeShadow s = true →
    Sys2Proof.Machine.exec (.ropeInputReceive k bs) s =
      .next { s with rope.shadowBytes := s.rope.shadowBytes ++ [(k, bs)] }) ∧
  (∀ (k : RopeInput) (bs : List Byte) (s : State), s.powered = true → ropeShadow s = false →
    Sys2Proof.Machine.exec (.ropeInputReceive k bs) s = .next s)

/-- Tier 2. ROPE_CRC_COMPARE and ROPE_CAPTURE_DONE: each comparison counts, the first difference begins a capture, for which
the part sends its 4,096 signatures once no run is under way, and the capture ends with the 1,088 bytes of R203 for the first cell whose signature differs. -/
def Obligations.RopeMismatch : Prop :=
  (∀ (crc : Word) (c : RopeChunk) (t : List RopeChunk) (s : State), s.powered = true → s.rope.crcs = c :: t →
    s.rope.paired = true → ∃ u, Sys2Proof.Machine.exec (.ropeCrcCompare crc) s = .next u ∧ u.rope.crcs = t ∧
      u.rope.compared = (s.rope.compared + 1) % 2 ^ 32 ∧
      (c.crc = crc ∨ s.rope.armed = false ∨ s.rope.capture ≠ none → u.rope.capture = s.rope.capture) ∧
      (c.crc ≠ crc → s.rope.armed = true → s.rope.capture = none → ∃ x, u.rope.capture = some x ∧ x.run = c.run ∧
        x.chunk = c.chunk ∧ x.localCrc = c.crc ∧ x.partnerCrc = crc ∧ x.beganAt = s.clock) ∧
      (c.crc ≠ crc → s.rope.armed = true → s.rope.capture = none → s.array.current = none →
        u.rope.sent = s.rope.sent ++
          [(.signatures, ((List.range 4096).map (fun i => bytesOfNat 4 (cellSig i s))).flatten)]) ∧
      (s.array.current ≠ none ∨ c.crc = crc → u.rope.sent = s.rope.sent) ∧
      u.rope = { s.rope with crcs := t, compared := u.rope.compared, capture := u.rope.capture, sent := u.rope.sent } ∧
      u = { s with rope := u.rope }) ∧
  (∀ (crc : Word) (s : State), s.powered = true → s.rope.crcs = [] →
    Sys2Proof.Machine.exec (.ropeCrcCompare crc) s = .next s) ∧
  (∀ (sigs : List (BitVec 32)) (c : RopeCapture) (s : State), s.powered = true → s.rope.capture = some c →
    s.array.current = none → ∃ u, Sys2Proof.Machine.exec (.ropeCaptureDone sigs) s = .next u ∧
      u.rope.recordValid = true ∧ u.rope.capture = none ∧ u.rope.armed = false ∧
      u.rope.held = getBit rRopeCfg 61 s ∧ getBit rRopeStatus 0 u = true ∧ u.rope.record.length = 1088 ∧
      u.rope.record.take 4 = bytesOfNat 4 c.run ∧
      (∀ i, i < 4096 → (∀ j, j < i → cellSig j s = (sigs.getD j 0).toNat) → cellSig i s ≠ (sigs.getD i 0).toNat →
        u.rope.record.getD 12 0 = BitVec.ofNat 8 (i / 64) ∧ u.rope.record.getD 13 0 = BitVec.ofNat 8 (i % 64) ∧
        u.rope.record.getD 14 0 = 3 ∧ (u.rope.record.drop 32).take 4 = bytesOfNat 4 (cellSig i s) ∧
        (u.rope.record.drop 36).take 4 = bytesOfNat 4 (sigs.getD i 0).toNat ∧
        ∀ k, k < 64 → (u.rope.record.drop (64 + 16 * k)).take 16 =
          bytesOfNat 16 (tblGet 0 s.array.regs (64 * i + k)).toNat) ∧
      ((∀ j, j < 4096 → cellSig j s = (sigs.getD j 0).toNat) → u.rope.record.getD 14 0 = 1) ∧
      (∀ o, o ≠ rRopeStatus → getReg o u = getReg o s) ∧ u.rope.paired = s.rope.paired ∧
      u.rope.crcs = s.rope.crcs ∧ u = { s with rope := u.rope, regs := u.regs }) ∧
  (∀ (sigs : List (BitVec 32)) (s : State), s.powered = true → s.rope.capture = none ∨ s.array.current ≠ none →
    Sys2Proof.Machine.exec (.ropeCaptureDone sigs) s = .next s)

/-- Tier 2. FRAME_INGRESS, FRAME_DEPART and FRAME_AGE_EXPIRY: a frame is taken up in the order of its class at its input; a
bad one is discarded with its flag and its credits go back; one with a route is metered and stored in the lowest free cells
(the model's choice, log entry 22) for its output or its copies' outputs, unless random early drop takes it; one without a
route is answered; one held at entry keeps no output; one without cells waits (log entry 25). A leaving frame is delivered,
or sent as flits against its credits; an outlived head of a queue is dropped and a request answered AGED. -/
def Obligations.FramesThroughCore : Prop :=
  (∀ (input : Fin 48) (f : Frame) (x : CoreFrame) (l : List CoreFrame) (s : State), s.powered = true →
    badFrame f = true → comesUp input.val f s x l →
    ∃ u, Sys2Proof.Machine.exec (.frameIngress input f) s = .next u ∧ getBit rSwcStatus 1 u = true ∧
      (input.val < 36 → x.paid = true → tblGet 0 s.owed (vcKey input.val f.cls f.vc) + frameCells f ≤
        tblGet 0 u.owed (vcKey input.val f.cls f.vc)) ∧
      u.sw = { s.sw with coreIn := l, lent := u.sw.lent } ∧ (∀ o, o ≠ rSwcStatus → getReg o u = getReg o s) ∧
      u = { s with sw := u.sw, owed := u.owed, counters := u.counters, regs := u.regs }) ∧
  (∀ (input : Fin 48) (f m g : Frame) (x : CoreFrame) (l : List CoreFrame) (p grp : Nat) (d : Bool) (s : State),
    s.powered = true → badFrame f = false → isReplicated f = false → comesUp input.val f s x l →
    hasCells input.val f s → m = (meterFrame input.val f s).1 → heldAtEntry input.val m s = false →
    routeTo input.val (eidPart m.dst) m s = .out p grp g d →
    ((redDrops g p s).1 = false →
      ∃ u e, Sys2Proof.Machine.exec (.frameIngress input f) s = .next u ∧ u.sw.buf = s.sw.buf ++ [e] ∧
        e.input = input.val ∧ e.output = some p ∧ e.group = grp ∧ e.frame = g ∧ e.at_ = x.at_ ∧
        e.cells = freeCells (frameCells f) s ∧ e.copy = false ∧
        (∀ i ∈ e.cells, (getCell i s).free = true ∧ getCell i u = ⟨false, 1, false⟩) ∧
        (∀ i, i ∉ e.cells → getCell i u = getCell i s) ∧
        (d = true → grp ≠ 0 → eidPart m.dst ∉ s.sw.detoured → getBit rRteStatus 1 u = true) ∧
        (d = false ∨ grp = 0 ∨ eidPart m.dst ∈ s.sw.detoured → u.regs = s.regs) ∧
        (∀ o, o ≠ rRteStatus → getReg o u = getReg o s) ∧
        u.sw = { s.sw with coreIn := l, buf := u.sw.buf, cells := u.sw.cells, nextUid := s.sw.nextUid + 1,
                           buckets := u.sw.buckets, prbs := u.sw.prbs, detoured := u.sw.detoured,
                           draining := u.sw.draining } ∧
        u = { s with sw := u.sw, counters := u.counters, regs := u.regs }) ∧
    ((redDrops g p s).1 = true →
      ∃ u, Sys2Proof.Machine.exec (.frameIngress input f) s = .next u ∧
        u.sw = { s.sw with coreIn := l, buckets := u.sw.buckets, prbs := u.sw.prbs, detoured := u.sw.detoured,
                           lent := u.sw.lent } ∧
        (∀ o, o ≠ rRteStatus → getReg o u = getReg o s) ∧
        u = { s with sw := u.sw, owed := u.owed, counters := u.counters, regs := u.regs })) ∧
  (∀ (input : Fin 48) (f : Frame) (x : CoreFrame) (l : List CoreFrame) (r : Replicas) (s : State), s.powered = true →
    badFrame f = false → isReplicated f = true → comesUp input.val f s x l → hasCells input.val f s →
    heldAtEntry input.val f s = false → replicate input.val f s = r →
    ∃ u, Sys2Proof.Machine.exec (.frameIngress input f) s = .next u ∧ u.sw.coreIn = l ∧
      (r.lost ≠ 0 → getBit rSwcStatus 0 u = true) ∧ (r.hops = true → getBit rSwcStatus 2 u = true) ∧
      (r.copies = [] → u.sw.buf = s.sw.buf ∧ u.sw.cells = s.sw.cells) ∧
      (r.copies ≠ [] → ∃ es, u.sw.buf = s.sw.buf ++ es ∧
        es.map (fun e => (e.output, e.group, e.frame)) = r.copies.map (fun c => (some c.port, c.group, c.frame)) ∧
        (∀ e ∈ es, e.input = input.val ∧ e.cells = freeCells (frameCells f) s ∧ e.copy = true ∧ e.at_ = x.at_) ∧
        (∀ i ∈ freeCells (frameCells f) s, getCell i u = ⟨false, r.copies.length, false⟩) ∧
        (∀ i, i ∉ freeCells (frameCells f) s → getCell i u = getCell i s) ∧ u.owed = s.owed) ∧
      (∀ o, o ≠ rSwcStatus → o ≠ rRteStatus → getReg o u = getReg o s) ∧
      u = { s with sw := u.sw, owed := u.owed, counters := u.counters, regs := u.regs }) ∧
  (∀ (input : Fin 48) (f m : Frame) (x : CoreFrame) (l : List CoreFrame) (st : Byte) (ur h : Bool) (s : State),
    s.powered = true → badFrame f = false → isReplicated f = false → comesUp input.val f s x l →
    hasCells input.val f s → m = (meterFrame input.val f s).1 → heldAtEntry input.val m s = false →
    f.ty ≠ tyCollData → f.ty ≠ tyCollResult → f.ty ≠ tyRoomCall → f.ty ≠ tySeal → f.ty ≠ tyVoid →
    routeTo input.val (eidPart m.dst) m s = .answered st ur h →
    ∃ u, Sys2Proof.Machine.exec (.frameIngress input f) s = .next u ∧ (ur = true → getBit rSwcStatus 0 u = true) ∧
      (h = true → getBit rSwcStatus 2 u = true) ∧ (∀ o, o ≠ rSwcStatus → getReg o u = getReg o s) ∧
      u.sw.coreIn = (if isRequestType f.ty then l ++ [⟨47, s.clock, now s, true, switchAnswer m st⟩] else l) ∧
      u.sw = { s.sw with coreIn := u.sw.coreIn, buckets := u.sw.buckets, lent := u.sw.lent } ∧
      u = { s with sw := u.sw, owed := u.owed, counters := u.counters, regs := u.regs }) ∧
  (∀ (input : Fin 48) (f m : Frame) (x : CoreFrame) (l : List CoreFrame) (s : State), s.powered = true →
    badFrame f = false → comesUp input.val f s x l → hasCells input.val f s → m = (meterFrame input.val f s).1 →
    heldAtEntry input.val m s = true →
    ∃ u e, Sys2Proof.Machine.exec (.frameIngress input f) s = .next u ∧ u.sw.buf = s.sw.buf ++ [e] ∧ e.output = none ∧
      e.input = input.val ∧ e.frame = m ∧ e.cells = freeCells (frameCells f) s ∧ u.sw.coreIn = l ∧
      (∀ i ∈ e.cells, getCell i u = ⟨false, 1, false⟩) ∧ (∀ i, i ∉ e.cells → getCell i u = getCell i s) ∧
      u = { s with sw := u.sw, counters := u.counters }) ∧
  (∀ (input : Fin 48) (f : Frame) (y : CoreFrame) (s : State), s.powered = true →
    firstWaiting? input.val f.cls s = some y → y.frame ≠ f →
    Sys2Proof.Machine.exec (.frameIngress input f) s =
      .next (if s.sw.coreIn.any (fun c => decide (c.input = input.val ∧ c.frame = f)) then s
        else { s with sw.coreIn := s.sw.coreIn ++ [⟨input.val, s.clock, now s, true, f⟩] })) ∧
  (∀ (input : Fin 48) (f : Frame) (s : State), s.powered = true → badFrame f = false → ¬ hasCells input.val f s →
    (∀ y, firstWaiting? input.val f.cls s = some y → y.frame = f →
      Sys2Proof.Machine.exec (.frameIngress input f) s = .next s) ∧
    (firstWaiting? input.val f.cls s = none → Sys2Proof.Machine.exec (.frameIngress input f) s =
      .next { s with sw.coreIn := s.sw.coreIn ++ [⟨input.val, s.clock, now s, true, f⟩] })) ∧
  (∀ (o : Fin 48) (c : BitVec 3) (i : Nat) (e : Buffered) (s : State), s.powered = true →
    (∀ x ∈ s.sw.buf, x.output = some o.val → queueHead x.input x.output x.frame.cls s = some x → outlived x s = false) →
    nextClass o.val s = some c →
    nextRound (tblGet 0 s.sw.lastInput (8 * o.val + c.toNat)) (readyInputs o.val c s) = some i →
    queueHead i (some o.val) c s = some e → ∃ u, Sys2Proof.Machine.exec (.frameDepart o) s = .next u ∧
      u.sw.buf = eraseFirst (fun x => decide (x = e)) s.sw.buf ∧
      (∀ k ∈ e.cells, (getCell k s).refs ≤ 1 → getCell k u = bufCell0) ∧
      (∀ k, k ∉ e.cells → getCell k u = getCell k s) ∧
      (36 ≤ o.val → u.tgt.arrived = s.tgt.arrived ++ [(o.val - 36, leavingFrame e o.val s)] ∧ u.links = s.links ∧
        u.credit = s.credit ∧ u.tgt = { s.tgt with arrived := u.tgt.arrived, queries := u.tgt.queries }) ∧
      (o.val < 36 → u.tgt = s.tgt ∧ (∀ k, tblGet 0 u.credit k = if k = vcKey o.val e.frame.cls e.frame.vc
          then tblGet 0 s.credit k - frameCells e.frame else tblGet 0 s.credit k) ∧
        (linkOf o.val u).replay.length =
          (linkOf o.val s).replay.length + (cutFlits 8 (frameSlots (leavingFrame e o.val s))).length) ∧
      u = { s with sw := u.sw, tgt := u.tgt, links := u.links, credit := u.credit, owed := u.owed,
                   counters := u.counters }) ∧
  (∀ (o : Fin 48) (s : State), s.powered = true →
    (∀ x ∈ s.sw.buf, x.output = some o.val → queueHead x.input x.output x.frame.cls s = some x → outlived x s = false) →
    (∀ c, readyInputs o.val c s = []) →
    (36 ≤ o.val ∨ linkTalks o.val s = false ∨ flitRoom o.val 1 s = false ∨
        creditField o.val s = 0 ∧ (linkOf o.val s).ackDue = 0 ∧ (linkOf o.val s).nak = false →
      Sys2Proof.Machine.exec (.frameDepart o) s = .next s) ∧
    (o.val < 36 → linkTalks o.val s = true → flitRoom o.val 1 s = true → creditField o.val s ≠ 0 →
      ∃ u, Sys2Proof.Machine.exec (.frameDepart o) s = .next u ∧
        (linkOf o.val u).replay.length = (linkOf o.val s).replay.length + 1 ∧ (linkOf o.val u).ackDue = 0 ∧
        (∀ k, tblGet 0 u.owed k = if 16 * o.val ≤ k ∧ k < 16 * o.val + 16 then tblGet 0 s.owed k - 63
          else tblGet 0 s.owed k) ∧ u = { s with links := u.links, owed := u.owed })) ∧
  (∀ (e : Buffered) (o : Nat) (s : State), (leavingFrame e o s).age =
      BitVec.ofNat 14 (min 16383 (e.frame.age.toNat + max 1 (ceilDiv (s.clock - e.at_) 1000))) ∧
    (leavingFrame e o s).hop = (if o < 36 ∧ portGroup o s ≠ 0 then e.frame.hop + 1 else e.frame.hop) ∧
    (leavingFrame e o s).data = e.frame.data) ∧
  (∀ (pos : Nat) (e : Buffered) (s : State), s.powered = true → s.sw.buf[pos]? = some e →
    (queueHead e.input e.output e.frame.cls s = some e → outlived e s = true →
      ∃ u, Sys2Proof.Machine.exec (.frameAgeExpiry pos) s = .next u ∧
        u.sw.buf = eraseFirst (fun x => decide (x = e)) s.sw.buf ∧ getBit rSwcStatus 3 u = true ∧
        (e.copy = true → getBit rSwcStatus 4 u = true ∧ u.sw.coreIn = s.sw.coreIn) ∧
        (e.copy = false → u.sw.coreIn = (if isRequestType e.frame.ty
          then s.sw.coreIn ++ [⟨47, s.clock, now s, true, switchAnswer e.frame stAged⟩] else s.sw.coreIn)) ∧
        (∀ r, r ≠ rSwcStatus → getReg r u = getReg r s) ∧
        u.sw = { s.sw with buf := u.sw.buf, cells := u.sw.cells, coreIn := u.sw.coreIn, lent := u.sw.lent } ∧
        u = { s with sw := u.sw, owed := u.owed, counters := u.counters, regs := u.regs }) ∧
    (queueHead e.input e.output e.frame.cls s ≠ some e ∨ outlived e s = false →
      Sys2Proof.Machine.exec (.frameAgeExpiry pos) s = .next s))

/-- Tier 2. BUFFER_AUDIT, CMAP_SAMPLE, SNAP, SNAP_CLEAR and CMAP_SNAPSHOT_TAKE: one sweep of the audit over every cell, one
sample of every live map at a 10 µs boundary, and the snapshot that waits for one. -/
def Obligations.AuditAndMaps : Prop :=
  (∀ s : State, s.powered = true → tblWf bufCell0 s.sw.cells = true → ∃ u, Sys2Proof.Machine.exec .bufferAudit s = .next u ∧
    getField rSwcLeakAudit 31 0 u = (getField rSwcLeakAudit 31 0 s + 1) % 2 ^ 32 ∧
    (∀ i x, getCell i s = x →
      (x.free = true → x.refs = 0 → getCell i u = x) ∧
      (x.free = true → x.refs ≠ 0 → getCell i u = { x with free := false } ∧ getBit rSwcStatus 6 u = true) ∧
      (x.free = false → x.refs ≠ 0 → getCell i u = { x with orphan := false }) ∧
      (x.free = false → x.refs = 0 → x.orphan = false → getCell i u = { x with orphan := true }) ∧
      (x.free = false → x.refs = 0 → x.orphan = true → getCell i u = bufCell0 ∧ getBit rSwcStatus 5 u = true)) ∧
    (∀ o, o ≠ rSwcLeakAudit → o ≠ rSwcStatus → getReg o u = getReg o s) ∧
    u.sw = { s.sw with cells := u.sw.cells } ∧
    u = { s with sw := u.sw, regs := u.regs, host := u.host, side := u.side, service := u.service }) ∧
  (∀ s : State, s.powered = true → (now s).toNat % 10000 = 0 → ∃ u, Sys2Proof.Machine.exec .cmapSample s = .next u ∧
    (∀ k, k < 384 → ∀ m n, tblGet cmap0 s.sw.cmaps k = m → occupancy (k / 8) (BitVec.ofNat 3 (k % 8)) s = n →
      (tblGet cmap0 u.sw.cmaps k).samples = (m.samples + 1) % 2 ^ 64 ∧
      (tblGet cmap0 u.sw.cmaps k).peak = max m.peak n ∧ (tblGet cmap0 u.sw.cmaps k).marks = m.marks ∧
      (∀ b, b < m.bins.length → (tblGet cmap0 u.sw.cmaps k).bins[b]? = (m.bins[b]?).map (fun x =>
        if b = cmapBin n then satAdd (2 ^ 32 - 1) x 1 else x))) ∧ u = { s with sw.cmaps := u.sw.cmaps }) ∧
  (∀ s : State, s.powered = true → (now s).toNat % 10000 ≠ 0 → Sys2Proof.Machine.exec .cmapSample s = .next s ∧
    Sys2Proof.Machine.exec .cmapSnapshotTake s = .next s) ∧
  (∀ (side : Side) (s : State), s.powered = true → gate side bSWC false .pwr s = .go →
    (s.sw.snap = .no → Sys2Proof.Machine.exec (.snap side) s = .next { s with sw.snap := .snap } ∧
      Sys2Proof.Machine.exec (.snapClear side) s = .next { s with sw.snap := .snapClear }) ∧
    (s.sw.snap ≠ .no → Sys2Proof.Machine.exec (.snap side) s = .next s ∧
      Sys2Proof.Machine.exec (.snapClear side) s = .next { s with sw.snap := .snapClear })) ∧
  (∀ s : State, s.powered = true → (now s).toNat % 10000 = 0 → s.sw.snap ≠ .no →
    ∃ u, Sys2Proof.Machine.exec .cmapSnapshotTake s = .next u ∧ u.sw.cmapRead = s.sw.cmaps ∧
      u.sw.cmaps = (if s.sw.snap = .snapClear then [] else s.sw.cmaps) ∧ u.sw.snap = .no ∧
      getField rSwcCmapCtl 63 32 u = (getField rSwcCmapCtl 63 32 s + 1) % 2 ^ 32 ∧
      (∀ o, o ≠ rSwcCmapCtl → getReg o u = getReg o s) ∧
      u = { s with sw.cmapRead := u.sw.cmapRead, sw.cmaps := u.sw.cmaps, sw.snap := .no, regs := u.regs })

/-- Tier 2. CLASS_CFG_WRITE, METER_WRITE, RED_WRITE, LOCK, ROUTE_ENTRY_WRITE and DRAINED: what the rules allow is written,
what R261, R275, R276 and R282 refuse raises its flag and is counted, locked fields stay, and HOLD drains. -/
def Obligations.SwitchRegisters : Prop :=
  (∀ (side : Side) (c : Fin 8) (v : Word) (n : Nat) (s : State), s.powered = true → gate side bSWC false .pwr s = .go →
    (List.range 8).foldl (fun n i => n + (if i = c.val then max 9 (wfield v 7 0) else classRsv i s)) 0 = n →
    (getBit rSwcStatus 63 s = false → 96 * n ≤ 131072 → ∃ u, Sys2Proof.Machine.exec (.classCfgWrite side c v) s = .next u ∧
      getField (rSwcClassCfg c.val) 47 16 u = wfield v 47 16 ∧ getField (rSwcClassCfg c.val) 7 0 u = wfield v 7 0 ∧
      (∀ o, o ≠ rSwcClassCfg c.val → getReg o u = getReg o s) ∧ u = { s with regs := u.regs }) ∧
    (getBit rSwcStatus 63 s = false → 131072 < 96 * n → ∃ u, Sys2Proof.Machine.exec (.classCfgWrite side c v) s = .next u ∧
      getBit rSwcStatus 7 u = true ∧ (∀ o, o ≠ rSwcStatus → getReg o u = getReg o s) ∧
      u = { s with regs := u.regs, counters := u.counters }) ∧
    (getBit rSwcStatus 63 s = true → ∃ u, Sys2Proof.Machine.exec (.classCfgWrite side c v) s = .next u ∧
      (∀ o, getReg o u = getReg o s) ∧ u = { s with regs := u.regs, counters := u.counters })) ∧
  (∀ (side : Side) (n : Fin 128) (v : Word) (s : State), s.powered = true → gate side bSWC false .pwr s = .go →
    (wfield v 39 16 ≤ wfield v 63 40 → ∃ u, Sys2Proof.Machine.exec (.meterWrite side n false v) s = .next u ∧
      getField (rSwcMeter n.val) 63 16 u = wfield v 63 16 ∧ getBit (rSwcMeter n.val) 0 u = wbit v 0 ∧
      (∀ o, o ≠ rSwcMeter n.val → getReg o u = getReg o s) ∧
      (∀ k, k ≠ n.val → tblGet buckets0 u.sw.buckets k = tblGet buckets0 s.sw.buckets k) ∧
      u = { s with regs := u.regs, sw.buckets := u.sw.buckets }) ∧
    (wfield v 63 40 < wfield v 39 16 → ∃ u, Sys2Proof.Machine.exec (.meterWrite side n false v) s = .next u ∧
      getBit rSwcStatus 7 u = true ∧ (∀ o, o ≠ rSwcStatus → getReg o u = getReg o s) ∧
      u = { s with regs := u.regs, counters := u.counters }) ∧
    (wfield v 63 32 < 2112 ∨ wfield v 31 0 < 2112 → ∃ u,
      Sys2Proof.Machine.exec (.meterWrite side n true v) s = .next u ∧ getBit rSwcStatus 7 u = true ∧
      (∀ o, o ≠ rSwcStatus → getReg o u = getReg o s) ∧ u = { s with regs := u.regs, counters := u.counters }) ∧
    (2112 ≤ wfield v 63 32 → 2112 ≤ wfield v 31 0 → ∃ u, Sys2Proof.Machine.exec (.meterWrite side n true v) s = .next u ∧
      getReg (rSwcMeter n.val + 8) u = v ∧ (∀ o, o ≠ rSwcMeter n.val + 8 → getReg o u = getReg o s) ∧
      (∀ k, k ≠ n.val → tblGet buckets0 u.sw.buckets k = tblGet buckets0 s.sw.buckets k) ∧
      (tblGet buckets0 u.sw.buckets n.val).dc ≤ 1000 * wfield v 31 0 ∧
      (tblGet buckets0 u.sw.buckets n.val).dp ≤ 1000 * wfield v 63 32 ∧
      u = { s with regs := u.regs, sw.buckets := u.sw.buckets })) ∧
  (∀ (side : Side) (k : Fin 3) (v : Word) (s : State), s.powered = true → gate side bSWC false .pwr s = .go →
    (wfield v 19 0 < wfield v 43 24 → ∃ u, Sys2Proof.Machine.exec (.redWrite side k v) s = .next u ∧
      getField (rSwcRed k.val) 55 48 u = wfield v 55 48 ∧ getField (rSwcRed k.val) 43 24 u = wfield v 43 24 ∧
      getField (rSwcRed k.val) 19 0 u = wfield v 19 0 ∧ (∀ o, o ≠ rSwcRed k.val → getReg o u = getReg o s) ∧
      u = { s with regs := u.regs }) ∧
    (wfield v 43 24 ≤ wfield v 19 0 → ∃ u, Sys2Proof.Machine.exec (.redWrite side k v) s = .next u ∧
      getBit rSwcStatus 7 u = true ∧ (∀ o, o ≠ rSwcStatus → getReg o u = getReg o s) ∧
      u = { s with regs := u.regs, counters := u.counters })) ∧
  (∀ (side : Side) (s : State), s.powered = true → gate side bSWC false .pwr s = .go →
    ∃ u, Sys2Proof.Machine.exec (.lock side) s = .next u ∧ getBit rSwcStatus 63 u = true ∧
      (∀ i, i < 63 → getBit rSwcStatus i u = getBit rSwcStatus i s) ∧
      (∀ o, o ≠ rSwcStatus → getReg o u = getReg o s) ∧ u = { s with regs := u.regs }) ∧
  (∀ (side : Side) (p : BitVec 12) (v : Word) (s : State), s.powered = true → gate side bRTE false .pwr s = .go →
    (badEntry p.toNat v s = true → ∃ u, Sys2Proof.Machine.exec (.routeEntryWrite side p v) s = .next u ∧
      getBit rRteStatus 2 u = true ∧ (∀ o, o ≠ rRteStatus → getReg o u = getReg o s) ∧
      u = { s with regs := u.regs, counters := u.counters }) ∧
    (∀ t : State, badEntry p.toNat v s = false → wbit v 16 = false → t = plainWrite (rRteEntry p.toNat) v s →
      (∀ i ∈ [0, 1, 2, 3, 8, 9, 10, 11, 15, 16], getBit (rRteEntry p.toNat) i t = wbit v i) ∧
      (∀ o, o ≠ rRteEntry p.toNat → getReg o t = getReg o s) ∧ t = { s with regs := t.regs } ∧
      ((∀ e ∈ s.sw.buf, e.output = none → heldAtEntry e.input e.frame t = true) →
        Sys2Proof.Machine.exec (.routeEntryWrite side p v) s = .next t) ∧
      (∀ e port grp g d, s.sw.buf = [e] → e.output = none → isReplicated e.frame = false → e.frame.cls ≠ clBulk →
        heldAtEntry e.input e.frame t = false → routeTo e.input (eidPart e.frame.dst) e.frame t = .out port grp g d →
        ∃ u w, Sys2Proof.Machine.exec (.routeEntryWrite side p v) s = .next u ∧ u.sw.buf = [w] ∧
          w.output = some port ∧ w.group = grp ∧ w.frame = g ∧ w.cells = e.cells ∧ w.input = e.input ∧ w.at_ = e.at_ ∧
          (∀ o, o ≠ rRteEntry p.toNat → o ≠ rRteStatus → getReg o u = getReg o s) ∧
          u = { s with regs := u.regs, sw := u.sw })) ∧
    (badEntry p.toNat v s = false → wbit v 16 = true →
      ∃ u, Sys2Proof.Machine.exec (.routeEntryWrite side p v) s = .next u ∧
        (∀ i ∈ [0, 1, 2, 3, 8, 9, 10, 11, 15, 16], getBit (rRteEntry p.toNat) i u = wbit v i) ∧
        (inFlight u = 0 → getBit rRteStatus 0 u = true ∧ u.sw = { s.sw with draining := false }) ∧
        (inFlight u ≠ 0 → getReg rRteStatus u = getReg rRteStatus s ∧ u.sw = { s.sw with draining := true }) ∧
        (∀ o, o ≠ rRteEntry p.toNat → o ≠ rRteStatus → getReg o u = getReg o s) ∧
        u = { s with regs := u.regs, sw := u.sw })) ∧
  (∀ s : State, s.powered = true → s.sw.draining = true → anyHold s = true → inFlight s = 0 →
    ∃ u, Sys2Proof.Machine.exec .drained s = .next u ∧ getBit rRteStatus 0 u = true ∧
      (∀ o, o ≠ rRteStatus → getReg o u = getReg o s) ∧ u = { s with regs := u.regs, sw.draining := false }) ∧
  (∀ s : State, s.powered = true → s.sw.draining = false ∨ anyHold s = false ∨ inFlight s ≠ 0 →
    Sys2Proof.Machine.exec .drained s = .next s)

/-- Tier 2. SIGNAL_DETECT, CALIBRATE_DONE, ALIGN_DONE, FEC_LOCK_DONE, DESKEW_DONE, INIT_RECORD and TRAINING_TIMEOUT: the stages
of R305 in first training and in a retrain, the credits and the init record of LINK_INIT, the width of R307, the resumption
of a retrain, and what a training failure does. -/
def Obligations.PortTraining : Prop :=
  (∀ (p : Fin 36) (lanes : Byte) (s : State), s.powered = true →
    ((linkOf p.val s).st = .detect → lowHalf lanes = true ∨ highHalf lanes = true →
      ∃ u, Sys2Proof.Machine.exec (.signalDetect p lanes) s = .next u ∧
        linkOf p.val u = { linkOf p.val s with st := .calibrate, lanes := lanes, stageAt := s.clock } ∧
        getBit (rPrtStatus p.val) 0 u = true ∧ (∀ q, q ≠ p.val → linkOf q u = linkOf q s) ∧
        (∀ o, o ≠ rPrtStatus p.val → getReg o u = getReg o s) ∧ u = { s with links := u.links, regs := u.regs }) ∧
    ((linkOf p.val s).st = .detect → lowHalf lanes = false → highHalf lanes = false →
      Sys2Proof.Machine.exec (.signalDetect p lanes) s = .next s) ∧
    ((linkOf p.val s).st = .idle → (linkOf p.val s).rxIdle = true → lanes ≠ 0 → (linkOf p.val s).signalAt = none →
      ∃ u, Sys2Proof.Machine.exec (.signalDetect p lanes) s = .next u ∧
        linkOf p.val u = { linkOf p.val s with signalAt := some s.clock } ∧
        (∀ q, q ≠ p.val → linkOf q u = linkOf q s) ∧ u = { s with links := u.links })) ∧
  (∀ (p : Fin 36) (table : List (BitVec 128)) (s : State), s.powered = true →
    table = (match eqTable s with
      | some t => (List.range 8).map (fun l => eqEntry t p.val l (linkOf p.val s).rate160 s)
      | none => []) →
    ∀ c frm onto eq, (c, frm, onto, eq) ∈
      [((.calibrateDone p : Instr), PortState.calibrate, PortState.align, table),
       (.alignDone p, .align, .fecLock, (linkOf p.val s).eq), (.fecLockDone p, .fecLock, .deskew, (linkOf p.val s).eq)] →
    ((linkOf p.val s).st = frm → ∃ u, Sys2Proof.Machine.exec c s = .next u ∧
      linkOf p.val u = { linkOf p.val s with st := onto, stageAt := s.clock, eq := eq } ∧
      getBit (rPrtStatus p.val) 0 u = true ∧
      (∀ q, q ≠ p.val → linkOf q u = linkOf q s) ∧ (∀ o, o ≠ rPrtStatus p.val → getReg o u = getReg o s) ∧
      u = { s with links := u.links, regs := u.regs }) ∧
    ((linkOf p.val s).st = .retrain → (linkOf p.val s).sub = frm → ∃ u, Sys2Proof.Machine.exec c s = .next u ∧
      linkOf p.val u = { linkOf p.val s with sub := onto, stageAt := s.clock, eq := eq } ∧
      (∀ q, q ≠ p.val → linkOf q u = linkOf q s) ∧ u = { s with links := u.links }) ∧
    (stageOf (linkOf p.val s) ≠ frm → Sys2Proof.Machine.exec c s = .next s)) ∧
  (∀ (p : Fin 36) (blocks : List AlignRx) (lanes : Byte) (s : State), s.powered = true →
    lanes = laneMask (deskewLanes blocks) →
    ((linkOf p.val s).st = .deskew → lowHalf lanes = true ∨ highHalf lanes = true →
      ∃ u, Sys2Proof.Machine.exec (.deskewDone p blocks) s = .next u ∧
        (linkOf p.val u).st = .linkInit ∧ (linkOf p.val u).laneOk = lanes ∧ (linkOf p.val u).initGot = false ∧
        (linkOf p.val u).stageAt = s.clock ∧
        (∃ ctl, (linkOf p.val u).initTx = some (ctl, [initRecord p.val u]) ∧ ctl.getLsbD 29 = true) ∧
        (∀ v, v < 16 → tblGet 0 u.credit (16 * p.val + v) = 0 ∧
          tblGet 0 u.owed (16 * p.val + v) = classRsv (v / 2) s - 63) ∧
        (∀ i, i / 16 ≠ p.val → tblGet 0 u.credit i = tblGet 0 s.credit i ∧ tblGet 0 u.owed i = tblGet 0 s.owed i) ∧
        (∀ q, q ≠ p.val → linkOf q u = linkOf q s) ∧ (∀ o, o ≠ rPrtStatus p.val → getReg o u = getReg o s) ∧
        u.sw = { s.sw with lent := u.sw.lent, buf := u.sw.buf, coreIn := u.sw.coreIn } ∧
        u = { s with links := u.links, sw := u.sw, credit := u.credit, owed := u.owed, regs := u.regs }) ∧
    ((linkOf p.val s).st = .retrain → (linkOf p.val s).sub = .deskew → lowHalf lanes = true ∨ highHalf lanes = true →
      ∃ u, Sys2Proof.Machine.exec (.deskewDone p blocks) s = .next u ∧ (linkOf p.val u).st = .retrain ∧
        (linkOf p.val u).sub = .linkInit ∧ (linkOf p.val u).laneOk = lanes ∧
        (linkOf p.val u).replay = (linkOf p.val s).replay ∧
        (∃ ctl, (linkOf p.val u).initTx = some (ctl, [initRecord p.val u])) ∧
        (∀ q, q ≠ p.val → linkOf q u = linkOf q s) ∧ u = { s with links := u.links }) ∧
    ((linkOf p.val s).st = .deskew → lowHalf lanes = false → highHalf lanes = false →
      ∃ u, Sys2Proof.Machine.exec (.deskewDone p blocks) s = .next u ∧ (linkOf p.val u).st = .detect ∧
        (linkOf p.val u).fails = (linkOf p.val s).fails + 1 ∧ u = { s with links := u.links, regs := u.regs }) ∧
    (stageOf (linkOf p.val s) ≠ .deskew → Sys2Proof.Machine.exec (.deskewDone p blocks) s = .next s)) ∧
  (∀ (p : Fin 36) (rcd : Slot) (credits : BitVec 96) (acked : Bool) (both : Byte) (s : State), s.powered = true →
    (linkOf p.val s).st = .linkInit → (slotByte rcd 4).toNat = bit1 (linkOf p.val s).rate160 →
    rxMask (linkOf p.val s) &&& slotByte rcd 3 = both →
    ((linkOf p.val s).initAcked = true ∨ acked = true → lowHalf both = true ∨ highHalf both = true →
      ∃ u, Sys2Proof.Machine.exec (.initRecord p rcd credits acked) s = .next u ∧
        (linkOf p.val u).st = (if lowHalf both = true ∧ highHalf both = true then .active else .degraded) ∧
        (linkOf p.val u).width = (if lowHalf both = true ∧ highHalf both = true then 8 else 4) ∧
        (linkOf p.val u).active = lanesInUse both ∧ (linkOf p.val u).inited = true ∧
        (linkOf p.val u).partnerPart = BitVec.ofNat 12 rcd.toNat ∧ (linkOf p.val u).fails = 0 ∧
        (both ≠ 255 → getBit (rPrtStatus p.val) 3 u = true) ∧
        (∀ v, v < 16 → tblGet 0 u.credit (16 * p.val + v) =
          tblGet 0 s.credit (16 * p.val + v) + field credits.toNat (6 * v + 5) (6 * v)) ∧
        (∀ q, q ≠ p.val → linkOf q u = linkOf q s) ∧ (∀ o, o ≠ rPrtStatus p.val → getReg o u = getReg o s) ∧
        u = { s with links := u.links, credit := u.credit, regs := u.regs, time := u.time, service := u.service }) ∧
    ((linkOf p.val s).initAcked = true ∨ acked = true → lowHalf both = false → highHalf both = false →
      ∃ u, Sys2Proof.Machine.exec (.initRecord p rcd credits acked) s = .next u ∧ (linkOf p.val u).st = .detect ∧
        (linkOf p.val u).fails = (linkOf p.val s).fails + 1 ∧
        u = { s with links := u.links, credit := u.credit, regs := u.regs }) ∧
    ((linkOf p.val s).initAcked = false → acked = false →
      ∃ u, Sys2Proof.Machine.exec (.initRecord p rcd credits acked) s = .next u ∧ (linkOf p.val u).st = .linkInit ∧
        (linkOf p.val u).initGot = true ∧ u = { s with links := u.links, credit := u.credit })) ∧
  (∀ (p : Fin 36) (rcd : Slot) (credits : BitVec 96) (acked : Bool) (both : Byte) (d : Nat) (s : State),
    s.powered = true → (linkOf p.val s).st = .retrain → (linkOf p.val s).sub = .linkInit →
    (slotByte rcd 4).toNat = bit1 (linkOf p.val s).rate160 → rxMask (linkOf p.val s) &&& slotByte rcd 3 = both →
    d = seqDist (oldestSeq (linkOf p.val s)) (BitVec.ofNat 12 (rcd.toNat / 2 ^ 48)) →
    (rcd.getLsbD 63 = true → (linkOf p.val s).initAcked = true ∨ acked = true →
      lowHalf both = true ∨ highHalf both = true → d ≤ (linkOf p.val s).replay.length →
      ∃ u, Sys2Proof.Machine.exec (.initRecord p rcd credits acked) s = .next u ∧
        (linkOf p.val u).st = (if lowHalf both = true ∧ highHalf both = true then .active else .degraded) ∧
        (linkOf p.val u).replay.map (fun h => (h.slots, h.sends)) =
          ((linkOf p.val s).replay.drop d).map (fun h => (h.slots, 1)) ∧
        (linkOf p.val u).lastRx = (linkOf p.val s).lastRx ∧ (∀ q, q ≠ p.val → linkOf q u = linkOf q s) ∧
        u = { s with links := u.links, credit := u.credit, regs := u.regs, time := u.time, service := u.service }) ∧
    (rcd.getLsbD 63 = false → ∃ u, Sys2Proof.Machine.exec (.initRecord p rcd credits acked) s = .next u ∧
      (linkOf p.val u).st = .lost ∧ (linkOf p.val u).replay = [] ∧ getBit (rPrtStatus p.val) 1 u = true)) ∧
  (∀ (p : Fin 36) (rcd : Slot) (credits : BitVec 96) (acked : Bool) (s : State), s.powered = true →
    ((linkOf p.val s).st = .linkInit → (slotByte rcd 4).toNat ≠ bit1 (linkOf p.val s).rate160 →
      ∃ u, Sys2Proof.Machine.exec (.initRecord p rcd credits acked) s = .next u ∧ (linkOf p.val u).st = .detect ∧
        (linkOf p.val u).fails = (linkOf p.val s).fails + 1 ∧ u = { s with links := u.links, regs := u.regs }) ∧
    (stageOf (linkOf p.val s) ≠ .linkInit → Sys2Proof.Machine.exec (.initRecord p rcd credits acked) s = .next s)) ∧
  (∀ (p : Fin 36) (l : Nat) (s : State), s.powered = true → stageLimit (stageOf (linkOf p.val s)) = some l →
    ((linkOf p.val s).stageAt + l ≤ s.clock → (linkOf p.val s).st ≠ .retrain →
      ∃ u, Sys2Proof.Machine.exec (.trainingTimeout p) s = .next u ∧ (linkOf p.val u).st = .detect ∧
        (linkOf p.val u).stageAt = s.clock ∧ (linkOf p.val u).fails = (linkOf p.val s).fails + 1 ∧
        (cfgRate p.val s ≠ 0 → (linkOf p.val u).rate160 = (linkOf p.val s).rate160) ∧
        (cfgRate p.val s = 0 → (linkOf p.val s).st = .align → (linkOf p.val s).rate160 = false →
          (linkOf p.val s).alignFails = 1 → (linkOf p.val u).rate160 = eqValid p.val true s) ∧
        (∀ q, q ≠ p.val → linkOf q u = linkOf q s) ∧ (∀ o, o ≠ rPrtStatus p.val → getReg o u = getReg o s) ∧
        u = { s with links := u.links, regs := u.regs }) ∧
    ((linkOf p.val s).stageAt + l ≤ s.clock → (linkOf p.val s).st = .retrain → (linkOf p.val s).fails < 2 →
      ∃ u, Sys2Proof.Machine.exec (.trainingTimeout p) s = .next u ∧ (linkOf p.val u).st = .retrain ∧
        (linkOf p.val u).sub = .calibrate ∧ (linkOf p.val u).fails = (linkOf p.val s).fails + 1 ∧
        u = { s with links := u.links }) ∧
    ((linkOf p.val s).stageAt + l ≤ s.clock → (linkOf p.val s).st = .retrain → 2 ≤ (linkOf p.val s).fails →
      ∃ u, Sys2Proof.Machine.exec (.trainingTimeout p) s = .next u ∧ (linkOf p.val u).st = .lost ∧
        (linkOf p.val u).replay = [] ∧ getBit (rPrtStatus p.val) 1 u = true) ∧
    (s.clock < (linkOf p.val s).stageAt + l → Sys2Proof.Machine.exec (.trainingTimeout p) s = .next s)) ∧
  (∀ (p : Fin 36) (s : State), s.powered = true → stageLimit (stageOf (linkOf p.val s)) = none →
    Sys2Proof.Machine.exec (.trainingTimeout p) s = .next s)

/-- Tier 2. FLIT_RECEIVE, REPLAY_TIMEOUT, LANE_FAIL, PORT_LOST, IDLE_ENTRY, WAKE, WAKE_RECEIVE and WAKE_TIMEOUT: a good flit in
order is taken with its credits, its acknowledgement, its requests and the frame it completes; a header may be cut through
to its output; a bad flit asks for a replay, and only a replayed copy is then accepted; loss, idle and waking move the port
as R306 to R312 say. -/
def Obligations.FlitsAndIdle : Prop :=
  (∀ (p : Fin 36) (ctl : Slot) (slots : List Slot) (words : List CodewordRx) (s : State), s.powered = true →
    (portListens p.val s = false → Sys2Proof.Machine.exec (.flitReceive p ctl slots words) s = .next s) ∧
    (portListens p.val s = true → flitGood ctl slots words = false →
      ∃ u, Sys2Proof.Machine.exec (.flitReceive p ctl slots words) s = .next u ∧
        linkOf p.val u = { linkOf p.val s with nak := true } ∧ (∀ q, q ≠ p.val → linkOf q u = linkOf q s) ∧
        (∀ l n a, words = [⟨l, n, true⟩] → a = 0x1910040 + 0x100 * p.val + 16 * l.val →
          (uncorrectable n = true → tblGet 0 u.counters (a + 8) = (tblGet 0 s.counters (a + 8) + 1) % 2 ^ 64) ∧
          (uncorrectable n = false → tblGet 0 u.counters a = (tblGet 0 s.counters a + n) % 2 ^ 64)) ∧
        u = { s with links := u.links, counters := u.counters }) ∧
    (portListens p.val s = true → flitGood ctl slots words = true →
      BitVec.ofNat 12 ctl.toNat ≠ (linkOf p.val s).lastRx + 1 ∨ ctl.getLsbD 29 = true ∨
        ((linkOf p.val s).nak = true ∧ ctl.getLsbD 26 = false) →
      ∃ u, Sys2Proof.Machine.exec (.flitReceive p ctl slots words) s = .next u ∧
        u = { s with counters := u.counters })) ∧
  (∀ (p : Fin 36) (ctl : Slot) (slots : List Slot) (words : List CodewordRx) (f : Frame) (n : Nat) (s : State),
    s.powered = true → portListens p.val s = true → flitGood ctl slots words = true →
    BitVec.ofNat 12 ctl.toNat = (linkOf p.val s).lastRx + 1 →
    (linkOf p.val s).nak = false ∨ ctl.getLsbD 26 = true → (∀ i ∈ [25, 27, 28, 29], ctl.getLsbD i = false) →
    field ctl.toNat 175 168 = 0 → field ctl.toNat 67 64 = 0 → n ≤ 15 → field ctl.toNat 46 32 = 2 ^ n - 1 →
    field ctl.toNat 62 48 = (if n = 0 then 0 else 1) → f = parseHeader (slots.getD 0 0) →
    n = 0 ∨ wireSlots f = n → n ≤ slots.length → (linkOf p.val s).inFrame = [] → (linkOf p.val s).cut = none →
    (linkOf p.val s).swallow = false → getBit rSwcCut p.val s = false ∨ f.mcast = true →
    ∃ u, Sys2Proof.Machine.exec (.flitReceive p ctl slots words) s = .next u ∧
      u.sw.coreIn = (if n = 0 then s.sw.coreIn
        else s.sw.coreIn ++ [⟨p.val, s.clock, now s, true, parseFrame (slots.take n)⟩]) ∧
      (linkOf p.val u).lastRx = (linkOf p.val s).lastRx + 1 ∧ (linkOf p.val u).nak = false ∧
      (linkOf p.val u).inFrame = [] ∧ (linkOf p.val u).st = (linkOf p.val s).st ∧
      (ctl.getLsbD 24 = false → (linkOf p.val u).replay = (linkOf p.val s).replay) ∧
      (∀ d, ctl.getLsbD 24 = true → d ≤ (linkOf p.val s).replay.length →
        seqDist (oldestSeq (linkOf p.val s)) (BitVec.ofNat 12 (ctl.toNat / 2 ^ 12) + 1) = d →
        (linkOf p.val u).replay = (linkOf p.val s).replay.drop d) ∧
      (∀ v, v < 16 → tblGet 0 u.credit (16 * p.val + v) =
        tblGet 0 s.credit (16 * p.val + v) + field (field ctl.toNat 167 72) (6 * v + 5) (6 * v)) ∧
      (∀ q, q ≠ p.val → linkOf q u = linkOf q s) ∧ u.sw = { s.sw with coreIn := u.sw.coreIn } ∧
      u = { s with sw := u.sw, links := u.links, credit := u.credit, counters := u.counters }) ∧
  (∀ (p : Fin 36) (ctl : Slot) (slots : List Slot) (f f' : Frame) (o g : Nat) (d : Bool) (s : State),
    s.powered = true → portListens p.val s = true → flitGood ctl slots [] = true →
    BitVec.ofNat 12 ctl.toNat = (linkOf p.val s).lastRx + 1 → (linkOf p.val s).nak = false →
    (∀ i ∈ [24, 25, 26, 27, 28, 29], ctl.getLsbD i = false) → field ctl.toNat 175 72 = 0 →
    field ctl.toNat 67 64 = 0 → field ctl.toNat 46 32 = 1 → field ctl.toNat 62 48 = 1 →
    f = parseHeader (slots.getD 0 0) → 1 < wireSlots f → f.cls ≠ clBulk → (linkOf p.val s).inFrame = [] →
    cutOutput p.val f s = some (o, g, f', d) →
    ∃ u, Sys2Proof.Machine.exec (.flitReceive p ctl slots []) s = .next u ∧ (linkOf p.val u).cut = some o ∧
      (linkOf p.val u).inFrame = [slots.getD 0 0] ∧ (linkOf o u).cutFrom = some p.val ∧
      (linkOf o u).replay.length = (linkOf o s).replay.length + 1 ∧ u.sw.coreIn = s.sw.coreIn ∧ u.sw.buf = s.sw.buf ∧
      (∀ q, q ≠ p.val → q ≠ o → linkOf q u = linkOf q s) ∧ u.mem = s.mem ∧ u.tgt = s.tgt) ∧
  (∀ (p : Fin 36) (ctl : Slot) (s : State), s.powered = true → portListens p.val s = true →
    flitGood ctl [] [] = true → BitVec.ofNat 12 ctl.toNat = (linkOf p.val s).lastRx + 1 →
    (linkOf p.val s).nak = false → (∀ i ∈ [24, 26, 29], ctl.getLsbD i = false) → field ctl.toNat 175 72 = 0 →
    field ctl.toNat 67 64 = 0 → field ctl.toNat 46 32 = 0 →
    (ctl.getLsbD 27 = true → ∃ u, Sys2Proof.Machine.exec (.flitReceive p ctl [] []) s = .next u ∧
      (linkOf p.val u).st = .retrain ∧ (linkOf p.val u).sub = .calibrate ∧ getBit (rPrtStatus p.val) 2 u = true) ∧
    (ctl.getLsbD 25 = true → ctl.getLsbD 27 = false → ctl.getLsbD 28 = false →
      (∀ h ∈ (linkOf p.val s).replay, h.sends < 8) →
      ∃ u, Sys2Proof.Machine.exec (.flitReceive p ctl [] []) s = .next u ∧
        (linkOf p.val u).replay.map (fun h => (h.slots, h.sends)) =
          (linkOf p.val s).replay.map (fun h => (h.slots, h.sends + 1)) ∧
        (∀ q, q ≠ p.val → linkOf q u = linkOf q s) ∧
        u = { s with links := u.links, credit := u.credit, counters := u.counters }) ∧
    (ctl.getLsbD 25 = false → ctl.getLsbD 27 = false → ctl.getLsbD 28 = true →
      ∃ u, Sys2Proof.Machine.exec (.flitReceive p ctl [] []) s = .next u ∧ (linkOf p.val u).st = .idle ∧
        (linkOf p.val u).rxIdle = true ∧ (linkOf p.val u).txIdle = (linkOf p.val s).txIdle)) ∧
  (∀ (p : Fin 36) (s : State), s.powered = true → linkTalks p.val s = true → (linkOf p.val s).replay ≠ [] →
    (linkOf p.val s).ackAt + 2000 ≤ s.clock →
    ((∀ h ∈ (linkOf p.val s).replay, h.sends < 8) → ∃ u, Sys2Proof.Machine.exec (.replayTimeout p) s = .next u ∧
      (linkOf p.val u).replay = (linkOf p.val s).replay.map (refreshed (linkOf p.val s)) ∧
      (linkOf p.val u).ackAt = s.clock ∧ (linkOf p.val u).st = (linkOf p.val s).st ∧
      (∀ q, q ≠ p.val → linkOf q u = linkOf q s) ∧ u = { s with links := u.links, counters := u.counters }) ∧
    ((∃ h ∈ (linkOf p.val s).replay, 8 ≤ h.sends) → ∃ u, Sys2Proof.Machine.exec (.replayTimeout p) s = .next u ∧
      (linkOf p.val u).st = .retrain ∧ (linkOf p.val u).sub = .calibrate ∧ getBit (rPrtStatus p.val) 2 u = true)) ∧
  (∀ (p : Fin 36) (s : State), s.powered = true →
    s.clock < (linkOf p.val s).ackAt + 2000 ∨ (linkOf p.val s).replay = [] ∨ linkTalks p.val s = false →
    Sys2Proof.Machine.exec (.replayTimeout p) s = .next s) ∧
  (∀ (p : Fin 36) (lane : Fin 8) (left : Byte) (s : State), s.powered = true →
    (linkOf p.val s).laneOk &&& ~~~(BitVec.ofNat 8 (2 ^ lane.val)) = left →
    (portUp p.val s = true → lowHalf left = true ∨ highHalf left = true →
      ∃ u, Sys2Proof.Machine.exec (.laneFail p lane) s = .next u ∧ (linkOf p.val u).st = .retrain ∧
        (linkOf p.val u).sub = .calibrate ∧ (linkOf p.val u).fails = 0 ∧ getBit (rPrtStatus p.val) 2 u = true ∧
        (linkOf p.val u).half = decide ((linkOf p.val s).width = 4) ∧
        (linkOf p.val u).replay.length =
          (linkOf p.val s).replay.length + (if flitRoom p.val 1 s then 1 else 0) ∧ u.credit = s.credit) ∧
    (portUp p.val s = false ∨ (lowHalf left = false ∧ highHalf left = false) →
      Sys2Proof.Machine.exec (.laneFail p lane) s = .next s)) ∧
  (∀ (p : Fin 36) (s : State), s.powered = true →
    (portUp p.val s = true ∨
        ((linkOf p.val s).st = .idle ∧ ∃ t ∈ (linkOf p.val s).wokeAt, t + 2000 ≤ s.clock) →
      ∃ u, Sys2Proof.Machine.exec (.portLost p) s = .next u ∧ (linkOf p.val u).st = .lost ∧
        (linkOf p.val u).replay = [] ∧ (linkOf p.val u).inFrame = [] ∧ getBit (rPrtStatus p.val) 1 u = true) ∧
    (portUp p.val s = false → (linkOf p.val s).st ≠ .idle ∨ (∀ t ∈ (linkOf p.val s).wokeAt,
      s.clock < t + 2000) → Sys2Proof.Machine.exec (.portLost p) s = .next s)) ∧
  (∀ (p : Fin 36) (s : State), s.powered = true → linkTalks p.val s = true → (linkOf p.val s).txIdle = false →
    getBit (rPrtCfg p.val) 55 s = true → carriesTime p.val s = false → hasWork p.val s = false →
    flitRoom p.val 1 s = true → (linkOf p.val s).quietSince + idleTime p.val s ≤ s.clock →
    ∃ u, Sys2Proof.Machine.exec (.idleEntry p) s = .next u ∧ (linkOf p.val u).st = .idle ∧
      (linkOf p.val u).txIdle = true ∧ (linkOf p.val u).rxIdle = (linkOf p.val s).rxIdle ∧
      (linkOf p.val u).replay.length = (linkOf p.val s).replay.length + 1 ∧
      (linkOf p.val u).fseq = (linkOf p.val s).fseq + 1 ∧ (∀ q, q ≠ p.val → linkOf q u = linkOf q s) ∧
      u = { s with links := u.links, owed := u.owed, regs := u.regs, rope := u.rope, array := u.array,
                   service := u.service }) ∧
  (∀ (p : Fin 36) (s : State), s.powered = true → getBit (rPrtCfg p.val) 55 s = false ∨ hasWork p.val s = true ∨
      carriesTime p.val s = true ∨ (linkOf p.val s).txIdle = true ∨
      s.clock < (linkOf p.val s).quietSince + idleTime p.val s → Sys2Proof.Machine.exec (.idleEntry p) s = .next s) ∧
  (∀ (p : Fin 36) (s : State), s.powered = true →
    ((linkOf p.val s).st = .idle → (linkOf p.val s).txIdle = true →
      hasWork p.val s = true ∨ carriesTime p.val s = true → ∃ u, Sys2Proof.Machine.exec (.wake p) s = .next u ∧
        (linkOf p.val u).txIdle = false ∧ (linkOf p.val u).wokeAt = some s.clock ∧
        (linkOf p.val u).st = (if (linkOf p.val s).rxIdle then .idle else awakeState (linkOf p.val s)) ∧
        (∀ q, q ≠ p.val → linkOf q u = linkOf q s) ∧
        u = { s with links := u.links, regs := u.regs, service := u.service }) ∧
    ((linkOf p.val s).st ≠ .idle ∨ (linkOf p.val s).txIdle = false ∨
        (hasWork p.val s = false ∧ carriesTime p.val s = false) → Sys2Proof.Machine.exec (.wake p) s = .next s)) ∧
  (∀ (p : Fin 36) (s : State), s.powered = true →
    ((linkOf p.val s).st = .idle → (linkOf p.val s).rxIdle = true →
      ∃ u, Sys2Proof.Machine.exec (.wakeReceive p) s = .next u ∧ (linkOf p.val u).rxIdle = false ∧
        (linkOf p.val u).signalAt = none ∧
        (linkOf p.val u).st = (if (linkOf p.val s).txIdle then .idle else awakeState (linkOf p.val s)) ∧
        (∀ q, q ≠ p.val → linkOf q u = linkOf q s) ∧
        u = { s with links := u.links, regs := u.regs, service := u.service }) ∧
    ((linkOf p.val s).st ≠ .idle ∨ (linkOf p.val s).rxIdle = false →
      Sys2Proof.Machine.exec (.wakeReceive p) s = .next s)) ∧
  (∀ (p : Fin 36) (t : Nat) (s : State), s.powered = true → (linkOf p.val s).st = .idle →
    (linkOf p.val s).rxIdle = true → (linkOf p.val s).signalAt = some t →
    (t + 1000 ≤ s.clock → ∃ u, Sys2Proof.Machine.exec (.wakeTimeout p) s = .next u ∧
      (linkOf p.val u).st = .retrain ∧ (linkOf p.val u).sub = .calibrate ∧ getBit (rPrtStatus p.val) 2 u = true) ∧
    (s.clock < t + 1000 → Sys2Proof.Machine.exec (.wakeTimeout p) s = .next s))

/-- Tier 2. PORT_CFG_WRITE, PORT_RETRAIN, DOWN, CLEAR_COUNTS, PORT_TEST_WRITE, CHECKER_SYNC and CHECKER_SYNC_LOST: ENABLE trains
a port in DOWN and its clearing ends in DOWN; actions and test mode are refused with their flag where R305 and R313 say;
the test counts. -/
def Obligations.PortRegisters : Prop :=
  (∀ (side : Side) (p : Fin 36) (v : Word) (s : State), s.powered = true → gate side bPRT false (.prt p.val) s = .go →
    (wbit v 63 = true → (linkOf p.val s).st = .down → (linkOf p.val s).held = false →
      getBit (rPrtTest p.val) 63 s = false → portRole p.val s ≠ 0 → portRetired p.val s = false →
      s.power.failedComps.contains 1 = false →
      (eqValid p.val (decide (wfield v 62 61 = 2)) (plainWrite (rPrtCfg p.val) v s) = true →
        ∃ u, Sys2Proof.Machine.exec (.portCfgWrite side p v) s = .next u ∧ (linkOf p.val u).st = .detect ∧
          (linkOf p.val u).rate160 = decide (wfield v 62 61 = 2) ∧ (linkOf p.val u).replay = [] ∧
          getField (rPrtCfg p.val) 63 58 u = wfield v 63 58 ∧ getField (rPrtCfg p.val) 47 32 u = wfield v 47 32 ∧
          (∀ q, q ≠ p.val → linkOf q u = linkOf q s) ∧
          (∀ o, o ≠ rPrtCfg p.val → o ≠ rPrtStatus p.val → getReg o u = getReg o s) ∧
          u = { s with links := u.links, regs := u.regs }) ∧
      (eqValid p.val (decide (wfield v 62 61 = 2)) (plainWrite (rPrtCfg p.val) v s) = false →
        ∃ u, Sys2Proof.Machine.exec (.portCfgWrite side p v) s = .next u ∧ getBit (rPrtStatus p.val) 5 u = true ∧
          (∀ o, o ≠ rPrtCfg p.val → o ≠ rPrtStatus p.val → getReg o u = getReg o s) ∧
          u = { s with regs := u.regs })) ∧
    (wbit v 63 = true → (linkOf p.val s).st ≠ .down ∨ portRole p.val s = 0 ∨ (linkOf p.val s).held = true ∨
        getBit (rPrtTest p.val) 63 s = true ∨ portRetired p.val s = true ∨ s.power.failedComps.contains 1 = true →
      ∃ u, Sys2Proof.Machine.exec (.portCfgWrite side p v) s = .next u ∧
        getField (rPrtCfg p.val) 57 56 u = getField (rPrtCfg p.val) 57 56 s ∧ getBit (rPrtCfg p.val) 63 u = true ∧
        (∀ o, o ≠ rPrtCfg p.val → getReg o u = getReg o s) ∧ u = { s with regs := u.regs }) ∧
    (wbit v 63 = false → (linkOf p.val s).st ≠ .down → portRole p.val s ≠ 0 →
      ∃ u, Sys2Proof.Machine.exec (.portCfgWrite side p v) s = .next u ∧ (linkOf p.val u).st = .down ∧
        (linkOf p.val u).replay = [] ∧ (linkOf p.val u).held = false ∧ getBit (rPrtCfg p.val) 63 u = false) ∧
    (wbit v 63 = false → (linkOf p.val s).st = .down → portRole p.val s ≠ 0 →
      ∃ u, Sys2Proof.Machine.exec (.portCfgWrite side p v) s = .next u ∧
        linkOf p.val u = { linkOf p.val s with held := false } ∧ getBit (rPrtCfg p.val) 63 u = false ∧
        (∀ q, q ≠ p.val → linkOf q u = linkOf q s) ∧ (∀ o, o ≠ rPrtCfg p.val → getReg o u = getReg o s) ∧
        u = { s with links := u.links, regs := u.regs })) ∧
  (∀ (side : Side) (p : Fin 36) (s : State), s.powered = true → gate side bPRT false (.prt p.val) s = .go →
    (liveState (linkOf p.val s).st = true → ∃ u, Sys2Proof.Machine.exec (.portRetrain side p) s = .next u ∧
      (linkOf p.val u).st = .retrain ∧ (linkOf p.val u).sub = .calibrate ∧ (linkOf p.val u).half = false ∧
      getBit (rPrtStatus p.val) 2 u = true) ∧
    ((linkOf p.val s).st = .lost ∨ ((linkOf p.val s).st = .down ∧ getBit (rPrtCfg p.val) 63 s = true ∧
        getBit (rPrtTest p.val) 63 s = false) →
      portRole p.val s ≠ 0 → portRetired p.val s = false → s.power.failedComps.contains 1 = false →
      eqValid p.val (decide (cfgRate p.val s = 2)) s = true →
      ∃ u, Sys2Proof.Machine.exec (.portRetrain side p) s = .next u ∧ (linkOf p.val u).st = .detect ∧
        ((linkOf p.val s).st = .lost → (linkOf p.val u).lostRetrainAt = some s.clock) ∧
        (∀ q, q ≠ p.val → linkOf q u = linkOf q s) ∧ (∀ o, o ≠ rPrtStatus p.val → getReg o u = getReg o s) ∧
        u = { s with links := u.links, regs := u.regs }) ∧
    ((linkOf p.val s).st ∈ [.detect, .calibrate, .align, .fecLock, .deskew, .linkInit, .retrain] ∨
        ((linkOf p.val s).st = .down ∧ (getBit (rPrtCfg p.val) 63 s = false ∨ getBit (rPrtTest p.val) 63 s = true)) →
      ∃ u, Sys2Proof.Machine.exec (.portRetrain side p) s = .next u ∧ getBit (rPrtStatus p.val) 4 u = true ∧
        (∀ o, o ≠ rPrtStatus p.val → getReg o u = getReg o s) ∧
        u = { s with regs := u.regs, counters := u.counters }) ∧
    (∃ u, Sys2Proof.Machine.exec (.down side p) s = .next u ∧ (linkOf p.val u).st = .down ∧
      (linkOf p.val u).held = true ∧ (linkOf p.val u).replay = [] ∧ getReg (rPrtCfg p.val) u = getReg (rPrtCfg p.val) s) ∧
    (∃ u, Sys2Proof.Machine.exec (.clearCounts side p) s = .next u ∧ getReg (rPrtTestBits p.val) u = 0 ∧
      (∀ l, l < 8 → getField (rPrtLaneTest p.val l) 47 0 u = 0 ∧
        getBit (rPrtLaneTest p.val l) 62 u = getBit (rPrtLaneTest p.val l) 62 s) ∧
      (∀ o, o ≠ rPrtTestBits p.val → (∀ l, l < 8 → o ≠ rPrtLaneTest p.val l) → getReg o u = getReg o s) ∧
      u = { s with regs := u.regs })) ∧
  (∀ (side : Side) (p : Fin 36) (v : Word) (s : State), s.powered = true → gate side bPRT false (.prt p.val) s = .go →
    (wbit v 63 = true → (linkOf p.val s).st = .down → getBit (rPrtCfg p.val) 63 s = true →
      ∃ u, Sys2Proof.Machine.exec (.portTestWrite side p v) s = .next u ∧
        getField (rPrtTest p.val) 63 58 u = wfield v 63 58 ∧ getField (rPrtTest p.val) 55 48 u = wfield v 55 48 ∧
        (∀ o, o ≠ rPrtTest p.val → getReg o u = getReg o s) ∧ u = { s with regs := u.regs }) ∧
    (wbit v 63 = true → (linkOf p.val s).st ≠ .down ∨ getBit (rPrtCfg p.val) 63 s = false →
      ∃ u, Sys2Proof.Machine.exec (.portTestWrite side p v) s = .next u ∧ getBit (rPrtStatus p.val) 4 u = true ∧
        (∀ o, o ≠ rPrtStatus p.val → getReg o u = getReg o s) ∧ u = { s with regs := u.regs, counters := u.counters }) ∧
    (wbit v 63 = false → ∃ u, Sys2Proof.Machine.exec (.portTestWrite side p v) s = .next u ∧
      getBit (rPrtTest p.val) 63 u = false ∧ linkOf p.val u = { linkOf p.val s with sync := 0 } ∧
      (∀ q, q ≠ p.val → linkOf q u = linkOf q s) ∧ (∀ o, o ≠ rPrtTest p.val → getReg o u = getReg o s) ∧
      u = { s with links := u.links, regs := u.regs })) ∧
  (∀ (p : Fin 36) (lane : Fin 8) (n : Nat) (s : State), s.powered = true →
    (checking p.val lane.val s = true → ∃ u, Sys2Proof.Machine.exec (.checkerSync p lane) s = .next u ∧
      (linkOf p.val u).sync.getLsbD lane.val = true ∧
      linkOf p.val u = { linkOf p.val s with sync := (linkOf p.val u).sync } ∧
      (∀ q, q ≠ p.val → linkOf q u = linkOf q s) ∧ u = { s with links := u.links }) ∧
    (checking p.val lane.val s = false → Sys2Proof.Machine.exec (.checkerSync p lane) s = .next s ∧
      Sys2Proof.Machine.exec (.checkerSyncLost p ⟨lane, n⟩) s = .next s) ∧
    ((linkOf p.val s).sync.getLsbD lane.val = false →
      Sys2Proof.Machine.exec (.checkerSyncLost p ⟨lane, n⟩) s = .next s) ∧
    (checking p.val lane.val s = true → (linkOf p.val s).sync.getLsbD lane.val = true →
      ∃ u, Sys2Proof.Machine.exec (.checkerSyncLost p ⟨lane, n⟩) s = .next u ∧
        (linkOf p.val u).sync.getLsbD lane.val = false ∧
        getField (rPrtLaneTest p.val lane.val) 47 0 u =
          min (2 ^ 48 - 1) (getField (rPrtLaneTest p.val lane.val) 47 0 s + (n + 64)) ∧
        getBit (rPrtLaneTest p.val lane.val) 62 u = true ∧
        (∀ o, o ≠ rPrtLaneTest p.val lane.val → getReg o u = getReg o s) ∧
        (∀ q, q ≠ p.val → linkOf q u = linkOf q s) ∧ u = { s with links := u.links, regs := u.regs }))

/-- Tier 2. SCRUB_READ, REFRESH, STACK_TEMP_SAMPLE, STACK_RETRAIN_REQUEST, STACK_RETRAIN_DONE, STACK_RETRAIN_TIMEOUT,
MEM_CLEAR, CLEAR_DONE and MEM_INJECT_WRITE: scrub corrects in place and leaves the data, a stack moved by 10 °C is fenced
and retrained, a page is cleared to zero bytes and its new state, an injection is armed or refused. -/
def Obligations.MemoryStacks : Prop :=
  (∀ (k : Fin 6) (l : Nat) (s : State), s.powered = true → (getStack k.val s).st = .online →
    6 * (getStack k.val s).scrubNext + k.val = l → hardWord l s = none →
    ∃ u, Sys2Proof.Machine.exec (.scrubRead k) s = .next u ∧ (∀ c ∈ softWords l s, codeErrs c u = 0) ∧
      (∀ c, c ∉ softWords l s → codeErrs c u = codeErrs c s) ∧
      (softWords l s ≠ [] → getBit (rMemStatus k.val) 1 u = true ∧ getBit (rMemErrA k.val) 63 u = true) ∧
      ((getStack k.val s).scrubNext + 1 < stackLines →
        (getStack k.val u).scrubNext = (getStack k.val s).scrubNext + 1 ∧
        getField (rMemScrub k.val) 63 32 u = getField (rMemScrub k.val) 63 32 s) ∧
      (stackLines ≤ (getStack k.val s).scrubNext + 1 → (getStack k.val u).scrubNext = 0 ∧
        getField (rMemScrub k.val) 63 32 u = (getField (rMemScrub k.val) 63 32 s + 1) % 2 ^ 32 ∧
        getBit (rMemStatus k.val) 4 u = true) ∧
      (∀ o, o ∉ [rMemStatus k.val, rMemErrA k.val, rMemErrB k.val, rMemScrub k.val] → getReg o u = getReg o s) ∧
      u.memory = { s.memory with errs := u.memory.errs, stackTbl := u.memory.stackTbl } ∧
      u = { s with memory := u.memory, regs := u.regs, counters := u.counters, freeCtr := u.freeCtr }) ∧
  (∀ (k : Fin 6) (l : Nat) (s : State), s.powered = true → (getStack k.val s).st = .online →
    6 * (getStack k.val s).scrubNext + k.val = l → (hardWord l s).isSome = true →
    ∃ u, Sys2Proof.Machine.exec (.scrubRead k) s = .next u ∧ getBit (rMemStatus k.val) 2 u = true ∧
      getBit (rMemErrA k.val) 62 u = true ∧
      (s.power.oos = true ∨ s.caravan.colls = [] → u.mem = s.mem ∧ u.queues = s.queues ∧
        ∀ c, hardWord l s = some c → codeErrs c u = codeErrs c s)) ∧
  (∀ (k : Fin 6) (s : State), s.powered = true → (getStack k.val s).st ≠ .online →
    Sys2Proof.Machine.exec (.scrubRead k) s = .next s) ∧
  (∀ (k : Fin 6) (s : State), Sys2Proof.Machine.exec (.refresh k) s = .next s) ∧
  (∀ (k : Fin 6) (t : BitVec 8) (s : State), s.powered = true →
    ((10 ≤ apart t.toNat (getStack k.val s).trainTemp ∨ (getStack k.val s).wanted = true) → mayFence k.val s = true →
      ∃ u, Sys2Proof.Machine.exec (.stackTempSample k t) s = .next u ∧ getStack k.val u =
        { getStack k.val s with temp := t.toNat, st := .fenced, fencedAt := s.clock, repeated := false, wanted := false } ∧
        (∀ j, j ≠ k.val → getStack j u = getStack j s) ∧ u = { s with memory.stackTbl := u.memory.stackTbl }) ∧
    (10 ≤ apart t.toNat (getStack k.val s).trainTemp → mayFence k.val s = false →
      ∃ u, Sys2Proof.Machine.exec (.stackTempSample k t) s = .next u ∧
        getStack k.val u = { getStack k.val s with temp := t.toNat, wanted := true } ∧
        u = { s with memory.stackTbl := u.memory.stackTbl }) ∧
    (apart t.toNat (getStack k.val s).trainTemp < 10 → (getStack k.val s).wanted = false ∨ mayFence k.val s = false →
      ∃ u, Sys2Proof.Machine.exec (.stackTempSample k t) s = .next u ∧
        getStack k.val u = { getStack k.val s with temp := t.toNat } ∧
        u = { s with memory.stackTbl := u.memory.stackTbl })) ∧
  (∀ (side : Side) (k : Fin 6) (s : State), s.powered = true → gate side bMEM false (.stk k.val) s = .go →
    ∃ u, Sys2Proof.Machine.exec (.stackRetrainRequest side k) s = .next u ∧ getStack k.val u =
      (if mayFence k.val s = true then
        { getStack k.val s with st := .fenced, fencedAt := s.clock, repeated := false, wanted := false }
       else { getStack k.val s with wanted := true }) ∧
      (∀ j, j ≠ k.val → getStack j u = getStack j s) ∧ u = { s with memory.stackTbl := u.memory.stackTbl }) ∧
  (∀ (k : Fin 6) (s : State), s.powered = true → (getStack k.val s).st = .fenced →
    ∃ u, Sys2Proof.Machine.exec (.stackRetrainDone k) s = .next u ∧ (getStack k.val u).st = .online ∧
      (getStack k.val u).trainTemp = (getStack k.val s).temp ∧ (getStack k.val u).lastTrain = some s.clock ∧
      getBit (rMemStatus k.val) 3 u = true ∧ (∀ o, o ≠ rMemStatus k.val → getReg o u = getReg o s) ∧
      (∀ j, j ≠ k.val → (getStack j s).wanted = false → getStack j u = getStack j s) ∧
      u = { s with memory.stackTbl := u.memory.stackTbl, regs := u.regs }) ∧
  (∀ (k : Fin 6) (s : State), s.powered = true → (getStack k.val s).st ≠ .fenced →
    Sys2Proof.Machine.exec (.stackRetrainDone k) s = .next s ∧
    Sys2Proof.Machine.exec (.stackRetrainTimeout k) s = .next s) ∧
  (∀ (k : Fin 6) (s : State), s.powered = true → (getStack k.val s).st = .fenced →
    ((getStack k.val s).fencedAt + 50000 ≤ s.clock → (getStack k.val s).repeated = false →
      ∃ u, Sys2Proof.Machine.exec (.stackRetrainTimeout k) s = .next u ∧
        getStack k.val u = { getStack k.val s with repeated := true, fencedAt := s.clock } ∧
        u = { s with memory.stackTbl := u.memory.stackTbl }) ∧
    ((getStack k.val s).fencedAt + 50000 ≤ s.clock → (getStack k.val s).repeated = true →
      inReset (.stk k.val) s = false → resetCount (.stk k.val) s < 3 →
      ∃ u, Sys2Proof.Machine.exec (.stackRetrainTimeout k) s = .next u ∧ inReset (.stk k.val) u = true ∧
        (getStack k.val u).st = .training ∧ resetCount (.stk k.val) u = resetCount (.stk k.val) s + 1 ∧
        u.mem = s.mem) ∧
    (s.clock < (getStack k.val s).fencedAt + 50000 → Sys2Proof.Machine.exec (.stackRetrainTimeout k) s = .next s)) ∧
  (∀ (side : Side) (v : Word) (s : State), s.powered = true → gate side bMEM false .ept s = .go → wbit v 16 = true →
    (clearRefused (wfield v 7 0) (wfield v 15 8) s = false →
      ∃ u, Sys2Proof.Machine.exec (.memClear side v) s = .next u ∧
        (∀ p, p ∈ u.memory.regClear ↔ wfield v 7 0 ≤ p ∧ p < wfield v 7 0 + wfield v 15 8) ∧
        u = { s with memory.regClear := u.memory.regClear }) ∧
    (clearRefused (wfield v 7 0) (wfield v 15 8) s = true →
      ∃ u, Sys2Proof.Machine.exec (.memClear side v) s = .next u ∧ getBit rMemClearStatus 1 u = true ∧
        (∀ o, o ≠ rMemClearStatus → getReg o u = getReg o s) ∧
        u = { s with regs := u.regs, counters := u.counters })) ∧
  (∀ (side : Side) (v : Word) (s : State), s.powered = true → gate side bMEM false .ept s = .go → wbit v 16 = false →
    Sys2Proof.Machine.exec (.memClear side v) s = .next s) ∧
  (∀ (p : Fin 184) (s : State), s.powered = true → p.val ∈ s.memory.regClear ∨ pageState p.val s = pgClearing →
    ∃ u, Sys2Proof.Machine.exec (.clearDone p) s = .next u ∧
      (∀ a, p.val * pageSize ≤ a → a < (p.val + 1) * pageSize → memByte u a = 0) ∧
      (∀ a, a < p.val * pageSize ∨ (p.val + 1) * pageSize ≤ a → memByte u a = memByte s a) ∧
      u.memory.regClear = s.memory.regClear.filter (fun i => decide (i ≠ p.val)) ∧
      (p.val ∈ s.memory.regClear → u.memory.regClear = [] → getBit rMemClearStatus 0 u = true) ∧
      (pageState p.val s = pgClearing → pagePartition p.val u = 0 ∧
        pageState p.val u = (if pageRetired p.val s then pgUnusable else pgFree)) ∧
      (pageState p.val s ≠ pgClearing → getReg (rPageOwn p.val) u = getReg (rPageOwn p.val) s) ∧
      (∀ o, o ≠ rMemClearStatus → o ≠ rPageOwn p.val → getReg o u = getReg o s) ∧
      u = { s with mem := u.mem, memory := u.memory, regs := u.regs }) ∧
  (∀ (p : Fin 184) (s : State), s.powered = true → p.val ∉ s.memory.regClear → pageState p.val s ≠ pgClearing →
    Sys2Proof.Machine.exec (.clearDone p) s = .next s) ∧
  (∀ (side : Side) (k : Fin 6) (v : Word) (s : State), s.powered = true → gate side bMEM false (.stk k.val) s = .go →
    (injectRefused v s = false → ∃ u, Sys2Proof.Machine.exec (.memInjectWrite side k v) s = .next u ∧
      getBit (rMemInject k.val) 63 u = wbit v 63 ∧ getField (rMemInject k.val) 61 56 u = wfield v 61 56 ∧
      getField (rMemInject k.val) 47 4 u = wfield v 47 4 ∧ (∀ o, o ≠ rMemInject k.val → getReg o u = getReg o s) ∧
      u = { s with regs := u.regs }) ∧
    (injectRefused v s = true → ∃ u, Sys2Proof.Machine.exec (.memInjectWrite side k v) s = .next u ∧
      getBit (rMemStatus k.val) 6 u = true ∧ (∀ o, o ≠ rMemStatus k.val → getReg o u = getReg o s) ∧
      u = { s with regs := u.regs, counters := u.counters }))

/-- Tier 2. PWR_RESET, KPR_RESET, EPT_RESET, ARY_RESET, PRT_RESET, STK_RESET, KEEPER_WATCHDOG_EXPIRY, HEARTBEAT_TIMEOUT and
LOST_RETRAIN_TIMEOUT: what each reset takes and keeps, its count of R390, and that a reset of a domain already in reset
joins it. -/
def Obligations.ResetsBegin : Prop :=
  (∀ s : State, s.powered = true → ∃ u, Sys2Proof.Machine.exec (.pwrReset (.command none)) s = .next u ∧
    u.power.stage = 1 ∧ u.mem = [] ∧ u.hostMem = s.hostMem ∧ u.memory.retired = s.memory.retired ∧
    u.tenant.enrolled = s.tenant.enrolled ∧ u.service.activeB = s.service.activeB ∧ u.service.slots = s.service.slots ∧
    u.service.resetTimes = [] ∧ u.service.totalResets = 0 ∧ u.power.oos = false ∧ u.queues = [] ∧ u.links = [] ∧
    u.service.logTotal = (s.service.logTotal + 1) % 2 ^ 32 ∧ u.powered = true ∧ u.power.warn = s.power.warn) ∧
  (∀ (d : Dom) (c : Instr) (s : State), s.powered = true →
    (c, d) ∈ [((.kprReset (.command none) : Instr), Dom.kpr), (.keeperWatchdogExpiry, .kpr),
      (.eptReset (.command none), .ept), (.eptReset .uncorrectable, .ept), (.heartbeatTimeout .endPoint, .ept),
      (.aryReset (.command none), .ary), (.heartbeatTimeout .caravan, .ary), (.heartbeatTimeout .routeScheduler, .ary)] ++
      (List.finRange 36).map (fun p => ((.prtReset p (.command none) : Instr), Dom.prt p.val)) ++
      (List.finRange 36).map (fun p => ((.heartbeatTimeout (.port p) : Instr), Dom.prt p.val)) ++
      (List.finRange 6).map (fun k => ((.stkReset k (.command none) : Instr), Dom.stk k.val)) ++
      (List.finRange 6).map (fun k => ((.heartbeatTimeout (.stack k) : Instr), Dom.stk k.val)) →
    (inReset d s = true → Sys2Proof.Machine.exec c s = .next s) ∧
    (inReset d s = false → resetCount d s < 3 → ∃ u, Sys2Proof.Machine.exec c s = .next u ∧ inReset d u = true ∧
      resetCount d u = resetCount d s + 1 ∧ u.service.totalResets = (s.service.totalResets + 1) % 2 ^ 32 ∧
      (d = .kpr → (∀ i, i < 4 → getSession i u = none) ∧ u.side.dynAddr = none ∧ u.side.capWaiting = [] ∧ u.power.leaseEnd = none ∧
        u.power.cap = s.img.leaseCap) ∧
      (d = .ept → u.xlt.cache = [] ∧ u.xlt.faults = [] ∧ u.xlt.records = [] ∧ u.req.settling = [] ∧ u.req.held = [] ∧
        u.tgt.streams = [] ∧ u.tgt.results = [] ∧ u.tgt.arrived = [] ∧ resetEnd .ept u = some (s.clock + 1000000)) ∧
      (d = .ary → u.xlt.withdraws = [] ∧ u.array = array0 ∧ u.caravan = caravan0 ∧ u.rope.paired = false ∧
        u.rope.armed = true ∧ resetEnd .ary u = some (s.clock + 2000000)) ∧
      (∀ p, p < 36 → d = .prt p → linkOf p u = link0 ∧ resetEnd d u = some (s.clock + 10000) ∧
        (∀ i, i / 16 = p → tblGet 0 u.credit i = 0 ∧ tblGet 0 u.owed i = 0)) ∧
      (∀ k, k < 6 → d = .stk k → getStack k u = { stack0 with temp := (getStack k s).temp }))) ∧
  (∀ (k : Fin 6) (s : State), s.powered = true → inReset (.stk k.val) s = false → resetCount (.stk k.val) s < 3 →
    ∃ u, Sys2Proof.Machine.exec (.stkReset k (.command none)) s = .next u ∧ u.mem = s.mem ∧
      (∀ o d, regDesc o = some d → d.dom ≠ .stk k.val → getReg o u = getReg o s) ∧
      (∀ j, j ≠ k.val → getStack j u = getStack j s) ∧ u.queues = s.queues ∧ u.links = s.links ∧ u.array = s.array) ∧
  (∀ s : State, s.powered = true → inReset .kpr s = false → resetCount .kpr s < 3 →
    ∃ u, Sys2Proof.Machine.exec (.kprReset .watchdog) s = .next u ∧ u.mem = s.mem ∧ u.queues = s.queues ∧
      u.links = s.links ∧ u.array = s.array ∧ u.caravan = s.caravan ∧ u.sw = s.sw ∧ u.xlt = s.xlt ∧ u.req = s.req ∧
      u.tgt = s.tgt ∧ u.tenant.slots = s.tenant.slots) ∧
  (∀ (d : Dom) (c : Instr) (s : State), s.powered = true → 3 ≤ resetCount d s → inReset d s = false →
    s.power.oos = false → (c, d) ∈ [((.kprReset .watchdog : Instr), Dom.kpr), (.eptReset .heartbeat, .ept),
      (.aryReset .heartbeat, .ary)] → ∃ u, Sys2Proof.Machine.exec c s = .next u ∧ u.power.oos = true ∧
        u.power.oosCause = escalationCause d ∧ inReset d u = true) ∧
  (∀ (p : Fin 36) (s : State), s.powered = true → 3 ≤ resetCount (.prt p.val) s → inReset (.prt p.val) s = false →
    ∃ u, Sys2Proof.Machine.exec (.prtReset p .heartbeat) s = .next u ∧ portRetired p.val u = true ∧
      linkOf p.val u = link0 ∧ u.power.oos = s.power.oos) ∧
  (∀ (inst : Byte) (s : State), s.powered = true → sidebandUp s = true → s.side.capWaiting.length < 4 →
    (∀ c ∈ [(.pwrReset (.malformed inst) : Instr), .kprReset (.malformed inst), .eptReset (.malformed inst),
        .aryReset (.malformed inst), .prtReset 0 (.malformed inst), .stkReset 0 (.malformed inst)],
      ∃ u, Sys2Proof.Machine.exec c s = .next u ∧
        u.side.answers = s.side.answers ++ [⟨.sideband, inst, stMalformed, []⟩] ∧
        u = { s with side.answers := u.side.answers, counters := u.counters }) ∧
    (inReset .ept s = false → ∃ u, Sys2Proof.Machine.exec (.eptReset (.command (some inst))) s = .next u ∧
      inReset .ept u = true ∧ ⟨.sideband, inst, stOk, []⟩ ∈ u.side.answers)) ∧
  (∀ (c : Instr) (s : State), s.powered = true →
    c ∈ [(.pwrReset .watchdog : Instr), .kprReset .heartbeat, .eptReset .watchdog, .aryReset .lostRetrain,
      .prtReset 0 .uncorrectable, .stkReset 0 .uncorrectable] → Sys2Proof.Machine.exec c s = .next s) ∧
  (∀ (p : Fin 36) (t : Nat) (s : State), s.powered = true → (linkOf p.val s).lostRetrainAt = some t →
    (t + 10000000 ≤ s.clock → portUp p.val s = false → inReset (.prt p.val) s = false →
      ∃ u, Sys2Proof.Machine.exec (.lostRetrainTimeout p) s = .next u ∧ inReset (.prt p.val) u = true ∧
        linkOf p.val u = link0 ∧ resetCount (.prt p.val) u = resetCount (.prt p.val) s + 1) ∧
    (s.clock < t + 10000000 ∨ portUp p.val s = true → Sys2Proof.Machine.exec (.lostRetrainTimeout p) s = .next s)) ∧
  (∀ (p : Fin 36) (s : State), s.powered = true → (linkOf p.val s).lostRetrainAt = none →
    Sys2Proof.Machine.exec (.lostRetrainTimeout p) s = .next s)

/-- Tier 2. KPR_RESET_END, EPT_RESET_END, ARY_RESET_END, PRT_RESET_END, STK_RESET_END, RESET_COUNT_EXPIRY and PORTS: the domain's
registers return to their reset values and no other, the end-point is quarantined for 2.5 ms, enabled queues come out
FENCED, a cleared retirement lets the port's count start afresh. -/
def Obligations.ResetsEnd : Prop :=
  (∀ (c : Instr) (d : Dom) (s : State), s.powered = true →
    (c, d) ∈ [((.kprResetEnd : Instr), Dom.kpr), (.eptResetEnd, .ept), (.aryResetEnd, .ary)] ++
      (List.finRange 36).map (fun p => ((.prtResetEnd p : Instr), Dom.prt p.val)) ++
      (List.finRange 6).map (fun k => ((.stkResetEnd k : Instr), Dom.stk k.val)) →
    (∃ t ∈ resetEnd d s, t ≤ s.clock) → s.power.stage = 13 →
    (d = .ary → ∀ e ∈ s.queues, e.2.fetched = []) → (d = .kpr → s.tenant.heldCmd = none) →
    ∃ u, Sys2Proof.Machine.exec c s = .next u ∧ inReset d u = false ∧
      (∀ o x, regDesc o = some x → x.dom = d → o ≠ rKprAttn → (∀ p, d = .prt p → o ≠ rPrtStatus p) →
        getReg o u = resetWord o x s) ∧
      (∀ o x, regDesc o = some x → x.dom ≠ d → getReg o u = getReg o s) ∧ u.mem = s.mem ∧
      (d = .ept → u.tgt.quarantineEnd = some (s.clock + 2500000)) ∧
      (d = .ary → ∀ q, q < 512 → (getQ q u).st = (if getBit (rQcfg q) 63 u then .fenced else .idle)) ∧
      (∀ k, k < 6 → d = .stk k → (getStack k s).wanted = false → (getStack k u).st = .online ∧
        (getStack k u).trainTemp = (getStack k s).temp) ∧
      (∀ p, p < 36 → d = .prt p → getBit (rPrtCfg p) 63 u = false → linkOf p u = linkOf p s) ∧
      (∀ p, p < 36 → d = .prt p → getBit (rPrtCfg p) 63 u = true → (linkOf p s).st = .down → portRole p u ≠ 0 →
        portRetired p s = false → s.power.failedComps.contains 1 = false → eqValid p (decide (cfgRate p u = 2)) u = true → (linkOf p u).st = .detect)) ∧
  (∀ (d : Dom) (c : Instr) (t : Nat) (s : State), s.powered = true → resetEnd d s = some t → s.clock < t →
    (c, d) ∈ [((.eptResetEnd : Instr), Dom.ept), (.aryResetEnd, .ary), (.prtResetEnd 0, .prt 0)] →
    Sys2Proof.Machine.exec c s = .next s) ∧
  (∀ (d : Dom) (c : Instr) (s : State), s.powered = true → inReset d s = false →
    (c, d) ∈ [((.kprResetEnd : Instr), Dom.kpr), (.eptResetEnd, .ept), (.aryResetEnd, .ary), (.prtResetEnd 0, .prt 0),
      (.stkResetEnd 0, .stk 0)] → Sys2Proof.Machine.exec c s = .next s) ∧
  (∀ s : State, s.powered = true → (s.power.stage < 8 → Sys2Proof.Machine.exec .eptResetEnd s = .next s) ∧
    (s.power.stage < 12 → Sys2Proof.Machine.exec .aryResetEnd s = .next s)) ∧
  (∀ s : State, s.powered = true → tblWf [] s.service.resetTimes = true →
    ∃ u, Sys2Proof.Machine.exec .resetCountExpiry s = .next u ∧
      (∀ c, tblGet [] u.service.resetTimes c =
        (tblGet [] s.service.resetTimes c).filter (fun t => decide (s.clock < t + 900000000000))) ∧
      (∀ d, resetCount d u = resetCount d s) ∧ u = { s with service.resetTimes := u.service.resetTimes }) ∧
  (∀ (side : Side) (v : Word) (s : State), s.powered = true → gate side bKPR false .pwr s = .go →
    ∃ u, Sys2Proof.Machine.exec (.ports side v 0) s = .next u ∧
      getReg rKprPrtRetired u = getReg rKprPrtRetired s &&& ~~~v ∧
      (∀ p, p < 36 → wbit v p = true → getBit rKprPrtRetired p s = true → resetCount (.prt p) u = 0) ∧
      (∀ p, p < 36 → wbit v p = false ∨ getBit rKprPrtRetired p s = false → linkOf p u = linkOf p s ∧
        resetCount (.prt p) u = resetCount (.prt p) s) ∧ u.mem = s.mem ∧ u.queues = s.queues)

/-- Tier 2. GET_CERTS, GET_REPORT, KEY_EXCHANGE, INSTALL, PERMIT, REVOKE, END and SESSION_TIMEOUT: the report's body of R341, the
four sessions, what a sealed message does with a good tag and counter, that any other ends its session, and the status each
message is answered with. -/
def Obligations.KeyDelivery : Prop :=
  (∀ (tr : Transport) (s : State), s.powered = true →
    (transportUp tr s = true → s.tenant.identity = true →
      ∃ u, Sys2Proof.Machine.exec (.getCerts tr) s = .next u ∧ u.side.answers = s.side.answers ++
        [⟨transportChannel tr, 0, stOk, certificates s⟩] ∧
        u = { s with side.answers := u.side.answers, host.doeBusy := u.host.doeBusy }) ∧
    (transportUp tr s = false ∨ s.tenant.identity = false → Sys2Proof.Machine.exec (.getCerts tr) s = .next s)) ∧
  (∀ (tr : Transport) (nonce : BitVec 256) (p : Byte) (s : State), s.powered = true →
    (transportUp tr s = true → s.tenant.identity = true →
      ∃ u body, Sys2Proof.Machine.exec (.getReport tr nonce p) s = .next u ∧
        u.side.answers = s.side.answers ++
          [⟨transportChannel tr, 0, stOk, body ++ Config.attestSign s.tenant.akDigest body⟩] ∧
        body.length = 704 ∧ (body.drop 24).take 32 = bytesOfNat 32 nonce.toNat ∧
        (body.drop 56).take 8 = bytesOfNat 8 (now s).toNat ∧ (body.drop 64).take 64 = measurement 0 s ∧
        (p = 0 ∨ partSlot p s = none → body.drop 576 = List.replicate 128 0) ∧
        (∀ n, p ≠ 0 → partSlot p s = some n → (body.drop 576).take 4 =
          [p, BitVec.ofNat 8 n, BitVec.ofNat 8 (slotCode (getSlot n s).st), (getSlot n s).generation]) ∧
        u = { s with side.answers := u.side.answers, host.doeBusy := u.host.doeBusy }) ∧
    (transportUp tr s = false ∨ s.tenant.identity = false →
      Sys2Proof.Machine.exec (.getReport tr nonce p) s = .next s)) ∧
  (∀ (tr : Transport) (pub : List Byte) (nonce : BitVec 256) (s : State), s.powered = true → transportUp tr s = true →
    s.tenant.identity = true →
    (pub.length = 97 → (tr = .doe → isReady s = true) → (∃ i ∈ List.range 4, getSession i s = none) → ∃ u k,
      Sys2Proof.Machine.exec (.keyExchange tr pub nonce) s = .next u ∧ k < 4 ∧ getSession k s = none ∧
      (∀ j, j < k → getSession j s ≠ none) ∧ getSession k u = some (newSession tr (Config.ecdhSecret s.freeCtr pub)
        nonce (Config.keeperNonce s.freeCtr) s.clock) ∧
      (∀ j, j ≠ k → getSession j u = getSession j s) ∧ u.side.answers = s.side.answers ++
        [⟨transportChannel tr, 0, stOk, exchangeAnswer pub nonce s⟩] ∧
      u = { s with tenant.sessions := u.tenant.sessions, freeCtr := s.freeCtr + 1, side.answers := u.side.answers,
                   host.doeBusy := u.host.doeBusy }) ∧
    (∀ st, (tr = .doe ∧ isReady s = false ∧ st = stRetryBusy) ∨
        ((tr = .doe → isReady s = true) ∧ pub.length ≠ 97 ∧ st = stMalformed) ∨
        ((tr = .doe → isReady s = true) ∧ pub.length = 97 ∧ (∀ i, i < 4 → getSession i s ≠ none) ∧ st = stRetryBusy) →
      ∃ u, Sys2Proof.Machine.exec (.keyExchange tr pub nonce) s = .next u ∧
        u.side.answers = s.side.answers ++ [⟨transportChannel tr, 0, st, []⟩] ∧
        u = { s with side.answers := u.side.answers, host.doeBusy := u.host.doeBusy })) ∧
  (∀ (env : Envelope) (r : BitVec 192) (n : BitVec 16) (m : BitVec 128) (msg : InstallMsg) (s : State),
    s.powered = true →
    (∀ x, getSession env.session.val s = some x → sessionServed x s →
      (env.tagOk = true → env.counter.toNat ≠ x.rx) →
      ∀ c ∈ [(.endSession env : Instr), .permit env r, .revoke env n m, .install env msg],
      ∃ u, Sys2Proof.Machine.exec c s = .next u ∧ getSession env.session.val u = none ∧
        (∀ j, j ≠ env.session.val → getSession j u = getSession j s) ∧ getBit rSecStatus 1 u = true ∧
        (∀ o, o ≠ rSecStatus → getReg o u = getReg o s) ∧
        u = { s with tenant.sessions := u.tenant.sessions, regs := u.regs }) ∧
    (getSession env.session.val s = none ∨ (∃ x ∈ getSession env.session.val s, transportUp x.via s = false) →
      ∀ c ∈ [(.endSession env : Instr), .permit env r, .revoke env n m, .install env msg],
      Sys2Proof.Machine.exec c s = .next s)) ∧
  (∀ (env : Envelope) (x : Session) (msg : InstallMsg) (s : State), s.powered = true →
    getSession env.session.val s = some x → sessionServed x s → env.tagOk = true → env.counter.toNat = x.rx →
    (∀ n k, manifestOk msg.manifest msg.partition = true → partSlot msg.partition s = some n → getSlot n s = k →
      k.st = .bound ∨ k.st = .keyed → ∃ u, Sys2Proof.Machine.exec (.install env msg) s = .next u ∧
        getSlot n u = { k with st := .keyed, epoch := 1, installed := true, memKey := msg.memKey,
                               frameKey := msg.frameKey, manifest := msg.manifest } ∧
        (∀ j, j ≠ n → getSlot j u = getSlot j s) ∧
        getSession env.session.val u = some { x with rx := x.rx + 1, tx := x.tx + 1, last := s.clock } ∧
        u.side.answers = s.side.answers ++ [⟨transportChannel x.via, 0, stOk, [stOk]⟩] ∧ u.regs = s.regs) ∧
    (∀ st, (manifestOk msg.manifest msg.partition = false ∧ st = stMalformed) ∨
        (manifestOk msg.manifest msg.partition = true ∧ partSlot msg.partition s = none ∧ st = stDenied) ∨
        (manifestOk msg.manifest msg.partition = true ∧ (∃ n, partSlot msg.partition s = some n ∧
          (getSlot n s).st ≠ .bound ∧ (getSlot n s).st ≠ .keyed) ∧ st = stDenied) →
      ∃ u, Sys2Proof.Machine.exec (.install env msg) s = .next u ∧ u.tenant.slots = s.tenant.slots ∧
        u.side.answers = s.side.answers ++ [⟨transportChannel x.via, 0, st, [st]⟩] ∧ u.regs = s.regs)) ∧
  (∀ (env : Envelope) (x : Session) (y : Permit) (rcd : BitVec 192) (body : BitVec 64) (key : BitVec 256) (s : State),
    s.powered = true → getSession env.session.val s = some x → sessionServed x s → env.tagOk = true →
    env.counter.toNat = x.rx →
    body.toNat = y.number.toNat + y.kind.toNat * 2 ^ 16 + y.grantor.toNat * 2 ^ 24 + y.grantee.toNat * 2 ^ 32 +
      y.first * 2 ^ 40 + y.count * 2 ^ 48 → y.first < 256 → y.count < 256 →
    rcd = BitVec.ofNat 192 (body.toNat + natOfBytes (permitMac key (bytesOfNat 8 body.toNat)) * 2 ^ 64) →
    (y.first + y.count ≤ 184 → y.count ≠ 0 → y.kind = 1 ∨ y.kind = 2 → grantorKey y.grantor s = some key →
      permitParty y.grantor s = true → permitParty y.grantee s = true →
      (∀ z ∈ s.tenant.permits, z.number ≠ y.number) → s.tenant.permits.length < 64 →
      ∃ u, Sys2Proof.Machine.exec (.permit env rcd) s = .next u ∧ u.tenant.permits = s.tenant.permits ++ [y] ∧
        u.side.answers = s.side.answers ++ [⟨transportChannel x.via, 0, stOk, [stOk]⟩] ∧
        u.tenant.slots = s.tenant.slots ∧ u.regs = s.regs) ∧
    (∀ st, (184 < y.first + y.count ∧ st = stMalformed) ∨
        (y.first + y.count ≤ 184 ∧ y.count ≠ 0 ∧ (y.kind = 1 ∨ y.kind = 2) ∧
          (grantorKey y.grantor s = none ∨ permitParty y.grantor s = false ∨ permitParty y.grantee s = false ∨
            ∃ z ∈ s.tenant.permits, z.number = y.number) ∧ st = stDenied) →
      ∃ u, Sys2Proof.Machine.exec (.permit env rcd) s = .next u ∧ u.tenant.permits = s.tenant.permits ∧
        u.side.answers = s.side.answers ++ [⟨transportChannel x.via, 0, st, [st]⟩] ∧
        u.tenant.slots = s.tenant.slots ∧ u.regs = s.regs)) ∧
  (∀ (env : Envelope) (x : Session) (n : BitVec 16) (mac : BitVec 128) (s : State), s.powered = true →
    getSession env.session.val s = some x → sessionServed x s → env.tagOk = true → env.counter.toNat = x.rx →
    (∀ y key, s.tenant.permits.find? (fun z => decide (z.number = n)) = some y → grantorKey y.grantor s = some key →
      mac = BitVec.ofNat 128 (natOfBytes (permitMac key (bytesOfNat 2 n.toNat))) →
      ∃ u, Sys2Proof.Machine.exec (.revoke env n mac) s = .next u ∧
        u.tenant.permits = s.tenant.permits.filter (fun z => decide (z.number ≠ n)) ∧
        u.side.answers = s.side.answers ++ [⟨transportChannel x.via, 0, stOk, [stOk]⟩] ∧ u.regs = s.regs) ∧
    ((∀ z ∈ s.tenant.permits, z.number ≠ n) → ∃ u, Sys2Proof.Machine.exec (.revoke env n mac) s = .next u ∧
      u.tenant.permits = s.tenant.permits ∧
      u.side.answers = s.side.answers ++ [⟨transportChannel x.via, 0, stDenied, [stDenied]⟩])) ∧
  (∀ (env : Envelope) (x : Session) (s : State), s.powered = true → getSession env.session.val s = some x →
    sessionServed x s → env.tagOk = true → env.counter.toNat = x.rx →
    ∃ u, Sys2Proof.Machine.exec (.endSession env) s = .next u ∧ getSession env.session.val u = none ∧
      u.side.answers = s.side.answers ++ [⟨transportChannel x.via, 0, stOk, [stOk]⟩] ∧ u.regs = s.regs) ∧
  (∀ (i : Fin 4) (s : State), s.powered = true →
    (∀ x, getSession i.val s = some x → x.last + 10000000000 ≤ s.clock → keeperRuns s = true → ∃ u,
      Sys2Proof.Machine.exec (.sessionTimeout i) s = .next u ∧ getSession i.val u = none ∧
      (∀ j, j ≠ i.val → getSession j u = getSession j s) ∧ getBit rSecStatus 1 u = true ∧
      (∀ o, o ≠ rSecStatus → getReg o u = getReg o s) ∧
      u = { s with tenant.sessions := u.tenant.sessions, regs := u.regs }) ∧
    (keeperRuns s = false ∨ (∀ x ∈ getSession i.val s, s.clock < x.last + 10000000000) →
      Sys2Proof.Machine.exec (.sessionTimeout i) s = .next s))

/-- Tier 2. BIND, OPEN, OPEN_DIGEST_DONE, GRANT, GRANT_SHARED, RELEASE (pages) and CLEARING_DONE: the slot states of R346, the
page states of R351, and the STATUS each command ends with. -/
def Obligations.PartitionCommands : Prop :=
  (∀ (side : Side) (n : Fin 64) (p gen : Byte) (s : State), s.powered = true → takesSecCmd side s →
    (p ≠ 0 → p ≠ 255 → s.power.oos = false → isEnrolled s = true → (getSlot n.val s).st = .empty →
      partSlot p s = none → tblGet 0 s.tenant.lastGen p.toNat ≠ gen.toNat + 1 →
      ∃ u, Sys2Proof.Machine.exec (.bind side n p gen) s = .next u ∧
        getSlot n.val u = { keySlot0 with st := .bound, partition := p, generation := gen } ∧
        (∀ j, j ≠ n.val → getSlot j u = getSlot j s) ∧ getField rSecCmdStatus 55 48 u = 0 ∧
        getField rSecCmdStatus 47 44 u = opBind ∧ getBit rSecStatus 0 u = true ∧
        (∀ o, o ≠ rSecCmdStatus → o ≠ rSecStatus → getReg o u = getReg o s) ∧
        u = { s with tenant.slots := u.tenant.slots, regs := u.regs, counters := u.counters, host := u.host }) ∧
    (∀ st, ((p = 0 ∨ p = 255) ∧ st = stMalformed) ∨ (p ≠ 0 ∧ p ≠ 255 ∧ s.power.oos = true ∧ st = stOos) ∨
        (p ≠ 0 ∧ p ≠ 255 ∧ s.power.oos = false ∧ (isEnrolled s = false ∨ (getSlot n.val s).st ≠ .empty ∨
          partSlot p s ≠ none ∨ tblGet 0 s.tenant.lastGen p.toNat = gen.toNat + 1) ∧ st = stDenied) →
      ∃ u, Sys2Proof.Machine.exec (.bind side n p gen) s = .next u ∧
        getField rSecCmdStatus 55 48 u = st.toNat ∧ getField rSecCmdStatus 47 44 u = opBind ∧
        getBit rSecStatus 0 u = true ∧ (∀ o, o ≠ rSecCmdStatus → o ≠ rSecStatus → getReg o u = getReg o s) ∧
        u = { s with regs := u.regs, counters := u.counters, host := u.host })) ∧
  (∀ (side : Side) (n : Fin 64) (p gen a b : Byte) (s : State), s.powered = true → gate side bSEC false .pwr s = .go →
    s.tenant.run ≠ none ∨ s.tenant.heldCmd ≠ none → ∀ c ∈ [(.bind side n p gen : Instr), .openSlot side n,
      .grant side n a b, .grantShared side n a b, .releasePages side n a b, .stage side n, .switch side n,
      .close side n], Sys2Proof.Machine.exec c s = .next (bump (rBlockEvents bSEC) 1 s)) ∧
  (∀ (side : Side) (n : Fin 64) (p gen a b : Byte) (s : State), s.powered = true → gate side bSEC false .pwr s = .go →
    s.tenant.run = none → s.tenant.heldCmd = none → swapping 0 s = true →
    ∀ c ∈ [(.bind side n p gen : Instr), .openSlot side n, .grant side n a b, .grantShared side n a b,
      .releasePages side n a b, .stage side n, .switch side n, .close side n],
    ∃ v, Sys2Proof.Machine.exec c s = .next { s with tenant.heldCmd := some v }) ∧
  (∀ (side : Side) (n : Fin 64) (s : State), s.powered = true → takesSecCmd side s →
    (s.power.oos = false → (getSlot n.val s).st = .keyed → manifestFlag (getSlot n.val s).manifest 0 = strictMode s →
      ∃ u, Sys2Proof.Machine.exec (.openSlot side n) s = .next u ∧
        u.tenant.run = some ⟨opOpen, n.val, s.clock, 0, [], none⟩ ∧
        u = { s with tenant.run := u.tenant.run, counters := u.counters }) ∧
    (∀ st, (s.power.oos = true ∧ st = stOos) ∨
        (s.power.oos = false ∧ (getSlot n.val s).st ≠ .keyed ∧ st = stDenied) ∨
        (s.power.oos = false ∧ (getSlot n.val s).st = .keyed ∧
          manifestFlag (getSlot n.val s).manifest 0 ≠ strictMode s ∧ st = stStrict) →
      ∃ u, Sys2Proof.Machine.exec (.openSlot side n) s = .next u ∧ getField rSecCmdStatus 55 48 u = st.toNat ∧
        getField rSecCmdStatus 47 44 u = opOpen ∧ getBit rSecStatus 0 u = true ∧
        u = { s with regs := u.regs, counters := u.counters, host := u.host })) ∧
  (∀ (r : SecRun) (s : State), s.powered = true → s.tenant.run = some r → r.op = opOpen →
    ∃ u, Sys2Proof.Machine.exec .openDigestDone s = .next u ∧ u.tenant.run = none ∧ getBit rSecStatus 0 u = true ∧
      getField rSecCmdStatus 47 44 u = opOpen ∧
      (digestsMatch r.slot s = true → getSlot r.slot u = { getSlot r.slot s with st := .active } ∧
        getField rSecCmdStatus 55 48 u = 0) ∧
      (digestsMatch r.slot s = false → getSlot r.slot u = getSlot r.slot s ∧
        getField rSecCmdStatus 55 48 u = stIntegrity.toNat) ∧
      (∀ j, j ≠ r.slot → getSlot j u = getSlot j s) ∧
      (∀ o, o ≠ rSecCmdStatus → o ≠ rSecStatus → getReg o u = getReg o s) ∧
      u = { s with tenant.slots := u.tenant.slots, tenant.run := none, regs := u.regs, host := u.host }) ∧
  (∀ s : State, s.powered = true → (∀ r ∈ s.tenant.run, r.op ≠ opOpen) →
    Sys2Proof.Machine.exec .openDigestDone s = .next s) ∧
  (∀ (side : Side) (n : Fin 64) (a b : Byte) (shared : Bool) (c : Instr) (good : Bool) (s : State), s.powered = true →
    takesSecCmd side s → c = (if shared then .grantShared side n a b else .grant side n a b) →
    (good = true ↔ ((getSlot n.val s).st = .bound ∨ (getSlot n.val s).st = .keyed ∨
        ((getSlot n.val s).st = .active ∧ shared = false)) ∧
      ∀ i, i < 184 → a.toNat ≤ i → i < a.toNat + b.toNat → pageState i s = pgFree) →
    (b ≠ 0 → a.toNat + b.toNat ≤ 184 → good = true →
      ∃ u, Sys2Proof.Machine.exec c s = .next u ∧ getField rSecCmdStatus 55 48 u = 0 ∧ getBit rSecStatus 0 u = true ∧
        (∀ i, a.toNat ≤ i → i < a.toNat + b.toNat → pageState i u = pgOwned ∧ pageShared i u = shared ∧
          pagePartition i u = (getSlot n.val s).partition ∧ pageSlot i u = n.val) ∧
        (∀ i, i < 184 → i < a.toNat ∨ a.toNat + b.toNat ≤ i → getReg (rPageOwn i) u = getReg (rPageOwn i) s) ∧
        u = { s with regs := u.regs, counters := u.counters, host := u.host }) ∧
    (∀ st, ((b = 0 ∨ 184 < a.toNat + b.toNat) ∧ st = stMalformed) ∨
        (b ≠ 0 ∧ a.toNat + b.toNat ≤ 184 ∧ good = false ∧ st = stDenied) →
      ∃ u, Sys2Proof.Machine.exec c s = .next u ∧ getField rSecCmdStatus 55 48 u = st.toNat ∧
        (∀ i, i < 184 → getReg (rPageOwn i) u = getReg (rPageOwn i) s) ∧
        u = { s with regs := u.regs, counters := u.counters, host := u.host })) ∧
  (∀ (side : Side) (n : Fin 64) (a b : Byte) (good : Bool) (s : State), s.powered = true → takesSecCmd side s →
    (good = true ↔ ((getSlot n.val s).st = .bound ∨ (getSlot n.val s).st = .keyed ∨ (getSlot n.val s).st = .active) ∧
      ∀ i, i < 184 → a.toNat ≤ i → i < a.toNat + b.toNat → pageState i s = pgOwned ∧
        pagePartition i s = (getSlot n.val s).partition) →
    (b ≠ 0 → a.toNat + b.toNat ≤ 184 → good = true →
      ∃ u, Sys2Proof.Machine.exec (.releasePages side n a b) s = .next u ∧ getField rSecCmdStatus 55 48 u = 0 ∧
        (∀ i, a.toNat ≤ i → i < a.toNat + b.toNat → pageState i u = pgClearing) ∧
        (∀ i, i < 184 → i < a.toNat ∨ a.toNat + b.toNat ≤ i → getReg (rPageOwn i) u = getReg (rPageOwn i) s) ∧
        u = { s with regs := u.regs, counters := u.counters, host := u.host }) ∧
    (∀ st, ((b = 0 ∨ 184 < a.toNat + b.toNat) ∧ st = stMalformed) ∨
        (b ≠ 0 ∧ a.toNat + b.toNat ≤ 184 ∧ good = false ∧ st = stDenied) →
      ∃ u, Sys2Proof.Machine.exec (.releasePages side n a b) s = .next u ∧
        getField rSecCmdStatus 55 48 u = st.toNat ∧
        (∀ i, i < 184 → getReg (rPageOwn i) u = getReg (rPageOwn i) s) ∧
        u = { s with regs := u.regs, counters := u.counters, host := u.host })) ∧
  (∀ (n : Fin 64) (s : State), s.powered = true →
    ((getSlot n.val s).st = .clearing → (∀ i, i < 184 → pageState i s = pgClearing → pageSlot i s ≠ n.val) →
      ∃ u, Sys2Proof.Machine.exec (.clearingDone n) s = .next u ∧ getSlot n.val u = keySlot0 ∧
        (∀ j, j ≠ n.val → getSlot j u = getSlot j s) ∧ getBit rSecStatus 6 u = true ∧
        (∀ o, o ≠ rSecStatus → getReg o u = getReg o s) ∧
        u = { s with tenant.slots := u.tenant.slots, regs := u.regs }) ∧
    ((getSlot n.val s).st ≠ .clearing ∨ (∃ i ∈ List.range 184, pageState i s = pgClearing ∧ pageSlot i s = n.val) →
      Sys2Proof.Machine.exec (.clearingDone n) s = .next s))

/-- Tier 2. STAGE, SWITCH, ROTATION_ANSWER, ROTATION_ANSWER_TIMEOUT, ROTATION_WINDOW_EXPIRY, CLOSE and CLOSE_DRAIN_DONE: key
rotation step by step with its 10 ms window, and the closing of a partition to the clearing of its pages. -/
def Obligations.RotationAndClose : Prop :=
  (∀ (side : Side) (n : Fin 64) (k : KeySlot) (s : State), s.powered = true → takesSecCmd side s → getSlot n.val s = k →
    (k.st = .active → k.rotation = 0 → ∃ u, Sys2Proof.Machine.exec (.stage side n) s = .next u ∧
      getSlot n.val u = { k with rotation := 1 } ∧ (∀ j, j ≠ n.val → getSlot j u = getSlot j s) ∧
      u.sw.coreIn.length = s.sw.coreIn.length + (attached s).length ∧ u.xlt.nextInvalTag = s.xlt.nextInvalTag + 1 ∧
      (attached s = [] → u.tenant.run = none ∧ getField rSecCmdStatus 55 48 u = 0 ∧
        getField rSecCmdStatus 47 44 u = opStage ∧ getBit rSecStatus 0 u = true) ∧
      (attached s ≠ [] → u.tenant.run = some ⟨opStage, n.val, s.clock, s.xlt.nextInvalTag, attached s, none⟩ ∧
        u.regs = s.regs) ∧ u.mem = s.mem) ∧
    (k.st = .active → k.rotation = 1 → ∃ u, Sys2Proof.Machine.exec (.switch side n) s = .next u ∧
      getSlot n.val u = { k with rotation := 2, epoch := k.epoch + 1, windowEnd := some (s.clock + 10000000) } ∧
      (∀ j, j ≠ n.val → getSlot j u = getSlot j s) ∧
      (attached s = [] → u.tenant.run = none ∧ getField rSecCmdStatus 55 48 u = 0) ∧
      (attached s ≠ [] → u.tenant.run = some ⟨opSwitch, n.val, s.clock, s.xlt.nextInvalTag, attached s, none⟩) ∧
      u.mem = s.mem) ∧
    (k.st ≠ .active ∨ k.rotation ≠ 0 → ∃ u, Sys2Proof.Machine.exec (.stage side n) s = .next u ∧
      getField rSecCmdStatus 55 48 u = stDenied.toNat ∧ getField rSecCmdStatus 47 44 u = opStage ∧
      u = { s with regs := u.regs, counters := u.counters, host := u.host }) ∧
    (k.st ≠ .active ∨ k.rotation ≠ 1 → ∃ u, Sys2Proof.Machine.exec (.switch side n) s = .next u ∧
      getField rSecCmdStatus 55 48 u = stDenied.toNat ∧ getField rSecCmdStatus 47 44 u = opSwitch ∧
      u = { s with regs := u.regs, counters := u.counters, host := u.host })) ∧
  (∀ (f : Frame) (x : Slot) (r : SecRun) (s : State), s.powered = true → rotationRun s = some r → f.ty = tyMgmt →
    f.data = [x] → slotByte x 0 = 0x25 → slotByte x 1 = (getSlot r.slot s).partition →
    BitVec.ofNat 16 (x.toNat / 2 ^ 16) = r.tag → eidPart f.src = (partId s).toNat → localIndex f.src ∈ r.waiting →
    ((∀ i ∈ r.waiting, i = localIndex f.src) →
      ∃ u, Sys2Proof.Machine.exec (.rotationAnswer f) s = .next u ∧ u.tenant.run = none ∧
        getField rSecCmdStatus 55 48 u = (match r.badStatus with | some st => st.toNat | none => (slotByte x 16).toNat) ∧
        getBit rSecStatus 0 u = true ∧ u.tenant.slots = s.tenant.slots) ∧
    ((∃ i ∈ r.waiting, i ≠ localIndex f.src) → ∃ u t, Sys2Proof.Machine.exec (.rotationAnswer f) s = .next u ∧
      u.tenant.run = some t ∧ t.waiting = r.waiting.filter (fun i => decide (i ≠ localIndex f.src)) ∧
      t.badStatus = (if slotByte x 16 = stOk then r.badStatus else some (r.badStatus.getD (slotByte x 16))) ∧
      t.op = r.op ∧ t.beganAt = r.beganAt ∧ u.regs = s.regs)) ∧
  (∀ (f : Frame) (s : State), s.powered = true → f.ty ≠ tyMgmt →
    Sys2Proof.Machine.exec (.rotationAnswer f) s = .next s) ∧
  (∀ (r : SecRun) (s : State), s.powered = true → rotationRun s = some r →
    (r.beganAt + 1000000 ≤ s.clock → ∃ u, Sys2Proof.Machine.exec .rotationAnswerTimeout s = .next u ∧
      getField rSecCmdStatus 55 48 u = stUnreachable.toNat ∧ getField rSecCmdStatus 47 44 u = r.op ∧
      getBit rSecStatus 0 u = true ∧ u = { s with tenant.run := none, regs := u.regs, host := u.host }) ∧
    (s.clock < r.beganAt + 1000000 → Sys2Proof.Machine.exec .rotationAnswerTimeout s = .next s)) ∧
  (∀ s : State, s.powered = true → rotationRun s = none → Sys2Proof.Machine.exec .rotationAnswerTimeout s = .next s) ∧
  (∀ (n : Fin 64) (s : State), s.powered = true →
    (∀ t, (getSlot n.val s).windowEnd = some t → (getSlot n.val s).rotation = 2 → t ≤ s.clock →
      ∃ u, Sys2Proof.Machine.exec (.rotationWindowExpiry n) s = .next u ∧
        getSlot n.val u = { getSlot n.val s with rotation := 0, windowEnd := none } ∧
        (∀ j, j ≠ n.val → getSlot j u = getSlot j s) ∧ u = { s with tenant.slots := u.tenant.slots }) ∧
    ((getSlot n.val s).rotation ≠ 2 ∨ (∀ t ∈ (getSlot n.val s).windowEnd, s.clock < t) →
      Sys2Proof.Machine.exec (.rotationWindowExpiry n) s = .next s)) ∧
  (∀ (side : Side) (n : Fin 64) (k : KeySlot) (s : State), s.powered = true → takesSecCmd side s → getSlot n.val s = k →
    (k.st = .bound ∨ k.st = .keyed ∨ k.st = .active → ∃ u, Sys2Proof.Machine.exec (.close side n) s = .next u ∧
      getSlot n.val u = { k with st := .fenced } ∧ (∀ j, j ≠ n.val → getSlot j u = getSlot j s) ∧
      u.tenant.run = some ⟨opClose, n.val, s.clock, 0, [], none⟩ ∧
      u.tenant.permits = s.tenant.permits.filter (fun x => decide (x.grantor ≠ k.partition ∧ x.grantee ≠ k.partition)) ∧
      (∀ r ∈ u.req.reqs, r.frame.part = k.partition → r.sentAt ≠ none → r.fencedAt ≠ none)) ∧
    (k.st = .empty ∨ k.st = .fenced ∨ k.st = .clearing → ∃ u, Sys2Proof.Machine.exec (.close side n) s = .next u ∧
      getField rSecCmdStatus 55 48 u = stDenied.toNat ∧ getField rSecCmdStatus 47 44 u = opClose ∧
      u = { s with regs := u.regs, counters := u.counters, host := u.host })) ∧
  (∀ (n : Fin 64) (k : KeySlot) (s : State), s.powered = true → getSlot n.val s = k →
    (k.st = .fenced → drained k.partition s = true → ∃ u, Sys2Proof.Machine.exec (.closeDrainDone n) s = .next u ∧
      getSlot n.val u = { k with st := .clearing, generation := k.generation + 1, installed := false, memKey := 0,
                                 frameKey := 0, rotation := 0, windowEnd := none } ∧
      (∀ j, j ≠ n.val → getSlot j u = getSlot j s) ∧
      tblGet 0 u.tenant.lastGen k.partition.toNat = (k.generation + 1).toNat + 1 ∧
      (∀ i, i < 184 → pageState i s = pgOwned → pageSlot i s = n.val → pageState i u = pgClearing) ∧
      (∀ i, i < 184 → pageState i s ≠ pgOwned ∨ pageSlot i s ≠ n.val →
        getReg (rPageOwn i) u = getReg (rPageOwn i) s) ∧
      getField rSecCmdStatus 55 48 u = 0 ∧ getField rSecCmdStatus 47 44 u = opClose ∧ u.tenant.run = none ∧
      u.sw.coreIn.length = s.sw.coreIn.length + 2 * (attached s).length) ∧
    (k.st ≠ .fenced ∨ (drained k.partition s = false ∧ drainOver n.val s = false) →
      Sys2Proof.Machine.exec (.closeDrainDone n) s = .next s))

/-- Tier 2. OWNER_GET, OWNER_SET, CAP_SET, CAP_APPLIED, CAP_GET, LEASE_EXPIRY, SNAPSHOT, SNAP_READ, CAPTURE, CAIRN_DONE, ENROL and
SB_RST: the vendor messages of the side band with their answers, the power lease, the cairns, enrolment; at most four
messages in progress. -/
def Obligations.SidebandMessages : Prop :=
  (∀ (inst : Byte) (m cap : BitVec 16) (n o : BitVec 32) (l : BitVec 16) (cert : EnrolCert) (s : State),
    s.powered = true → ∀ c ∈ [(.ownerGet inst : Instr), .ownerSet inst m, .capSet inst cap, .capGet inst,
      .snapshot inst, .snapRead inst n o l, .enrol inst cert],
    (sidebandUp s = false → Sys2Proof.Machine.exec c s = .next s) ∧
    (sidebandUp s = true → 4 ≤ s.side.capWaiting.length → Sys2Proof.Machine.exec c s =
      .next { s with side.answers := s.side.answers ++ [⟨.sideband, inst, stRetryBusy, []⟩] })) ∧
  (∀ (inst : Byte) (mask : BitVec 16) (s : State), s.powered = true → sidebandUp s = true →
    s.side.capWaiting.length < 4 →
    (∃ u, Sys2Proof.Machine.exec (.ownerGet inst) s = .next u ∧ u.side.answers = s.side.answers ++
      [⟨.sideband, inst, stOk, bytesOfNat 8 (getReg rKprOwn s).toNat⟩] ∧
      u = { s with side.answers := u.side.answers, counters := u.counters }) ∧
    (∃ u, Sys2Proof.Machine.exec (.ownerSet inst mask) s = .next u ∧ getField rKprOwn 13 0 u = mask.toNat % 2 ^ 14 ∧
      u.side.answers = s.side.answers ++ [⟨.sideband, inst, stOk, bytesOfNat 8 (getReg rKprOwn u).toNat⟩] ∧
      (inReset .ept s = false → getBit rHstStatus 4 u = true) ∧
      (∀ r, r ≠ rKprOwn → r ≠ rHstStatus → getReg r u = getReg r s) ∧
      u = { s with side := u.side, counters := u.counters, regs := u.regs, host := u.host }) ∧
    (∃ u, Sys2Proof.Machine.exec (.capGet inst) s = .next u ∧ u.side.answers = s.side.answers ++
      [⟨.sideband, inst, stOk, bytesOfNat 8 (pcapWord s).toNat⟩] ∧
      u = { s with side.answers := u.side.answers, counters := u.counters })) ∧
  (∀ (inst : Byte) (cap : BitVec 16) (s : State), s.powered = true → sidebandUp s = true →
    s.side.capWaiting.length < 4 →
    (450 ≤ cap.toNat → cap.toNat ≤ 800 → ∃ u, Sys2Proof.Machine.exec (.capSet inst cap) s = .next u ∧
      u.side.capWaiting = s.side.capWaiting ++ [(inst, cap)] ∧ u.power.leaseEnd = some (s.clock + 2000000000) ∧
      u.side.answers = s.side.answers ∧
      u = { s with side.capWaiting := u.side.capWaiting, power.leaseEnd := u.power.leaseEnd, counters := u.counters }) ∧
    (cap.toNat < 450 ∨ 800 < cap.toNat → ∃ u, Sys2Proof.Machine.exec (.capSet inst cap) s = .next u ∧
      u.side.answers = s.side.answers ++ [⟨.sideband, inst, stMalformed, []⟩] ∧
      u = { s with side.answers := u.side.answers, counters := u.counters })) ∧
  (∀ (inst : Byte) (cap : BitVec 16) (t : List (Byte × BitVec 16)) (s : State), s.powered = true →
    s.side.capWaiting = (inst, cap) :: t → ∃ u, Sys2Proof.Machine.exec .capApplied s = .next u ∧
      u.side.capWaiting = t ∧ u.power = { s.power with cap := cap.toNat, source := 0 } ∧ u.side.answers =
        s.side.answers ++ [⟨.sideband, inst, stOk, bytesOfNat 8 (pcapWord u).toNat⟩] ∧
      u = { s with side.capWaiting := t, side.answers := u.side.answers, power := u.power }) ∧
  (∀ s : State, s.powered = true → (s.side.capWaiting = [] → Sys2Proof.Machine.exec .capApplied s = .next s) ∧
    (s.power.leaseEnd = none → Sys2Proof.Machine.exec .leaseExpiry s = .next s)) ∧
  (∀ (t : Nat) (s : State), s.powered = true → s.power.leaseEnd = some t →
    (t ≤ s.clock → ∃ u, Sys2Proof.Machine.exec .leaseExpiry s = .next u ∧
      u.power = { s.power with leaseEnd := none, cap := s.img.leaseCap, source := 1 } ∧ getBit rKprAttn 4 u = true ∧
      (∀ r, r ≠ rKprAttn → getReg r u = getReg r s) ∧
      u = { s with power := u.power, regs := u.regs, host := u.host, side := u.side }) ∧
    (s.clock < t → Sys2Proof.Machine.exec .leaseExpiry s = .next s)) ∧
  (∀ (inst : Byte) (s : State), s.powered = true → sidebandUp s = true → s.side.capWaiting.length < 4 →
    (s.observe.capture = none → ∃ u, Sys2Proof.Machine.exec (.snapshot inst) s = .next u ∧
      u.observe.capture = some (nextCairn s, (now s).toNat) ∧ u.side.answers = s.side.answers ++
        [⟨.sideband, inst, stOk, bytesOfNat 4 (nextCairn s)⟩] ∧
      u = { s with observe.capture := u.observe.capture, side.answers := u.side.answers, counters := u.counters }) ∧
    (∀ n t0, s.observe.capture = some (n, t0) → ∃ u, Sys2Proof.Machine.exec (.snapshot inst) s = .next u ∧
      u.side.answers = s.side.answers ++ [⟨.sideband, inst, stOk, bytesOfNat 4 n⟩] ∧
      u = { s with side.answers := u.side.answers, counters := u.counters })) ∧
  (∀ (side : Side) (s : State), s.powered = true → gate side bDBG false .kpr s = .go →
    (getBit rCairnCtl 63 s = true → s.observe.capture = none → ∃ u, Sys2Proof.Machine.exec (.capture side) s = .next u ∧
      u.observe.capture = some (nextCairn s, (now s).toNat) ∧ s.observe.cairns.all (fun c => decide (c.number < nextCairn s)) = true ∧
      u = { s with observe.capture := u.observe.capture, counters := u.counters }) ∧
    (getBit rCairnCtl 63 s = true → s.observe.capture ≠ none → Sys2Proof.Machine.exec (.capture side) s = .next s) ∧
    (getBit rCairnCtl 63 s = false → Sys2Proof.Machine.exec (.capture side) s = .next (bump (rBlockEvents bDBG) 1 s))) ∧
  (∀ (n t0 : Nat) (s : State), s.powered = true → s.observe.capture = some (n, t0) →
    ∃ u c, Sys2Proof.Machine.exec .cairnDone s = .next u ∧ u.observe.capture = none ∧ c.number = n ∧ c.start = t0 ∧
      c.endTime = (now s).toNat ∧ c.sections.map (fun x => x.ty) = [1, 2, 3, 4, 5, 6, 7, 8] ∧
      u.observe.cairns = s.observe.cairns.filter (fun x => decide (x.number % 4 ≠ n % 4)) ++ [c] ∧
      getField rCairnCtl 31 0 u = n % 2 ^ 32 ∧ getBit rKprAttn 5 u = true ∧
      (∀ x ∈ c.sections, ∀ d, sectionDomain x.ty = some d → inReset d s = true →
        x.flags = 1 ∧ x.length = 0 ∧ x.records = []) ∧
      (∀ x ∈ c.sections, (∀ d, sectionDomain x.ty = some d → inReset d s = false) →
        x.flags = 0 ∧ x.records = cairnRecords x.ty s) ∧
      (∀ a, a < cairnBase + n % 4 * cairnSize ∨ cairnBase + n % 4 * cairnSize + 192 ≤ a →
        memByte u a = memByte s a)) ∧
  (∀ s : State, s.powered = true → s.observe.capture = none → Sys2Proof.Machine.exec .cairnDone s = .next s) ∧
  (∀ (inst : Byte) (n o : BitVec 32) (l : BitVec 16) (s : State), s.powered = true → sidebandUp s = true →
    s.side.capWaiting.length < 4 →
    ((∃ c ∈ s.observe.cairns, c.number = n.toNat) → 1 ≤ l.toNat → l.toNat ≤ 1024 → o.toNat + l.toNat ≤ 2 ^ 24 →
      ∃ u, Sys2Proof.Machine.exec (.snapRead inst n o l) s = .next u ∧ u.side.answers = s.side.answers ++
        [⟨.sideband, inst, stOk, readMem s (cairnBase + n.toNat % 4 * 2 ^ 24 + o.toNat) l.toNat⟩] ∧
        u = { s with side.answers := u.side.answers, counters := u.counters }) ∧
    (l = 0 ∨ 1024 < l.toNat ∨ 2 ^ 24 < o.toNat + l.toNat ∨ (∀ c ∈ s.observe.cairns, c.number ≠ n.toNat) →
      ∃ u, Sys2Proof.Machine.exec (.snapRead inst n o l) s = .next u ∧
        u.side.answers = s.side.answers ++ [⟨.sideband, inst, stMalformed, []⟩] ∧
        u = { s with side.answers := u.side.answers, counters := u.counters })) ∧
  (∀ (inst : Byte) (cert : EnrolCert) (s : State), s.powered = true → sidebandUp s = true →
    s.side.capWaiting.length < 4 →
    (cert.wellFormed = true → cert.sigOk = true → cert.deviceId = deviceId → cert.partId = partId s →
      ∃ u, Sys2Proof.Machine.exec (.enrol inst cert) s = .next u ∧ u.tenant.enrolled = some cert ∧
        u.side.answers = s.side.answers ++ [⟨.sideband, inst, stOk, []⟩] ∧
        u = { s with side.answers := u.side.answers, tenant.enrolled := u.tenant.enrolled, counters := u.counters }) ∧
    (∀ st, (cert.wellFormed = false ∧ st = stMalformed) ∨
        (cert.wellFormed = true ∧ cert.sigOk = false ∧ st = stIntegrity) ∨
        (cert.wellFormed = true ∧ cert.sigOk = true ∧ (cert.deviceId ≠ deviceId ∨ cert.partId ≠ partId s) ∧
          st = stDenied) →
      ∃ u, Sys2Proof.Machine.exec (.enrol inst cert) s = .next u ∧
        u.side.answers = s.side.answers ++ [⟨.sideband, inst, st, []⟩] ∧
        u = { s with side.answers := u.side.answers, counters := u.counters })) ∧
  (∀ s : State, s.powered = true → ∃ u, Sys2Proof.Machine.exec .sbRst s = .next u ∧ u.side.dynAddr = none ∧
    u.side.eid = 0 ∧ (∀ i x, i < 4 → getSession i s = some x →
      getSession i u = (if x.via = .mctp then none else some x)) ∧
    u = { s with side.dynAddr := none, side.eid := 0, tenant.sessions := u.tenant.sessions })

/-- Tier 2. ENTDAA, SETDASA, SET_ENDPOINT_ID, GET_ENDPOINT_ID, GET_MCTP_VERSION_SUPPORT, GET_MESSAGE_TYPE_SUPPORT,
GET_VENDOR_DEFINED_MESSAGE_SUPPORT, SENSOR_POLL, SENSOR_UPDATE and PLDM_BASE_COMMAND: addresses, the endpoint ID, the message
types and the sensors of R375 and R378. The bodies of the answers are the model's choice (log entry 55). -/
def Obligations.BusControlAndSensors : Prop :=
  (∀ (a st : BitVec 7) (s : State), s.powered = true → mctpControlUp s = true →
    (s.side.dynAddr = none → Sys2Proof.Machine.exec (.entdaa a) s = .next { s with side.dynAddr := some a }) ∧
    (s.side.dynAddr ≠ none → Sys2Proof.Machine.exec (.entdaa a) s = .next s ∧
      Sys2Proof.Machine.exec (.setdasa st a) s = .next s) ∧
    (s.side.dynAddr = none → Sys2Proof.Machine.exec (.setdasa s.img.staticAddr a) s =
      .next { s with side.dynAddr := some a }) ∧
    (st ≠ s.img.staticAddr → Sys2Proof.Machine.exec (.setdasa st a) s = .next s)) ∧
  (∀ (e ty sel : Byte) (s : State), s.powered = true → mctpControlUp s = true →
    (e ≠ 0 → e ≠ 255 → Sys2Proof.Machine.exec (.setEndpointId e) s =
      .next { s with side.eid := e, side.answers := s.side.answers ++ [⟨.mctp, 0, stOk, [0, 0, e, 0]⟩] }) ∧
    (e = 0 ∨ e = 255 → Sys2Proof.Machine.exec (.setEndpointId e) s =
      .next { s with side.answers := s.side.answers ++ [⟨.mctp, 0, stOk, [2]⟩] }) ∧
    Sys2Proof.Machine.exec .getEndpointId s =
      .next { s with side.answers := s.side.answers ++ [⟨.mctp, 0, stOk, [0, s.side.eid, 0, 0]⟩] } ∧
    Sys2Proof.Machine.exec .getMessageTypeSupport s =
      .next { s with side.answers := s.side.answers ++ [⟨.mctp, 0, stOk, [0, 3, 0x00, 0x01, 0x7E]⟩] } ∧
    (ty = 0 ∨ ty = 1 ∨ ty = 0x7E → ∃ u b, Sys2Proof.Machine.exec (.getMctpVersionSupport ty) s = .next u ∧
      b.length = 4 ∧ u = { s with side.answers := s.side.answers ++ [⟨.mctp, 0, stOk, [0, 1] ++ b⟩],
                                  freeCtr := s.freeCtr + 1 }) ∧
    (ty ≠ 0 → ty ≠ 1 → ty ≠ 0x7E → Sys2Proof.Machine.exec (.getMctpVersionSupport ty) s =
      .next { s with side.answers := s.side.answers ++ [⟨.mctp, 0, stOk, [0x80]⟩] }) ∧
    (sel ≠ 0 → Sys2Proof.Machine.exec (.getVendorDefinedMessageSupport sel) s =
      .next { s with side.answers := s.side.answers ++ [⟨.mctp, 0, stOk, [2]⟩] }) ∧
    (sel = 0 → ∃ u b, Sys2Proof.Machine.exec (.getVendorDefinedMessageSupport sel) s = .next u ∧
      natOfBytes b.reverse = Config.vendorId.toNat ∧
      u = { s with side.answers := s.side.answers ++ [⟨.mctp, 0, stOk, [0, 0xFF, 0] ++ b ++ [0, 0]⟩] }) ∧
    Sys2Proof.Machine.exec (.pldmBaseCommand 4) s =
      .next { s with side.answers := s.side.answers ++ [⟨.pldm, 4, 0, [0x25, 0, 0, 0, 0, 0, 0, 0]⟩] }) ∧
  (∀ (c : Byte) (s : State), s.powered = true → mctpControlUp s = true →
    (c ≠ 4 → 1 ≤ c.toNat → c.toNat ≤ 5 →
      ∃ u b, Sys2Proof.Machine.exec (.pldmBaseCommand c) s = .next u ∧ b.length = 8 ∧
        u = { s with side.answers := s.side.answers ++ [⟨.pldm, c, 0, b⟩], freeCtr := s.freeCtr + 1 }) ∧
    (c = 0 ∨ 6 ≤ c.toNat → Sys2Proof.Machine.exec (.pldmBaseCommand c) s =
      .next { s with side.answers := s.side.answers ++ [⟨.pldm, c, 5, []⟩] })) ∧
  (∀ (a st : BitVec 7) (e : Byte) (s : State), s.powered = true → mctpControlUp s = false →
    ∀ c ∈ [(.entdaa a : Instr), .setdasa st a, .setEndpointId e, .getEndpointId, .getMctpVersionSupport e,
      .getMessageTypeSupport, .getVendorDefinedMessageSupport e, .pldmBaseCommand e, .sensorPoll e],
    Sys2Proof.Machine.exec c s = .next s) ∧
  (∀ (i : Byte) (s : State), s.powered = true → sidebandUp s = true →
    (∀ v, sensorValue i.toNat s = some v → Sys2Proof.Machine.exec (.sensorPoll i) s =
      .next { s with side.answers := s.side.answers ++ [⟨.pldm, i, 0, bytesOfNat 2 v⟩] }) ∧
    (sensorValue i.toNat s = none → Sys2Proof.Machine.exec (.sensorPoll i) s =
      .next { s with side.answers := s.side.answers ++ [⟨.pldm, i, 0x80, []⟩] }) ∧
    (sensorValue i.toNat s = none ↔ i = 0 ∨ 12 ≤ i.toNat)) ∧
  (∀ (w v a : BitVec 16) (s : State), s.powered = true →
    ∃ u, Sys2Proof.Machine.exec (.sensorUpdate w v a) s = .next u ∧ u.power =
      { s.power with watts := w.toNat, volts := v.toNat, amps := a.toNat, throttle :=
          if w.toNat ≤ s.power.cap then 0 else if s.power.throttle = 0 then 1 else 2 } ∧
      tblGet 0 u.counters 0x1960000 = (tblGet 0 s.counters 0x1960000 + w.toNat) % 2 ^ 64 ∧
      (∀ k, k ≠ 0x1960000 → tblGet 0 u.counters k = tblGet 0 s.counters k) ∧
      u = { s with power := u.power, counters := u.counters })

/-- Tier 2. PERST_ASSERT, PERST_DEASSERT, HOT_RESET, CXL_LINK_DOWN, CXL_LINK_UP, HDM_DECODER_COMMIT, HST_WIN_WRITE,
CXL_CACHE_COMPLETION, SNOOP, DOE_DISCOVERY, CDAT_TABLE_ACCESS, IDE_KM and DOE_ABORT: the host port's reset and link, its
windows' checks, a host line that comes, and the mailbox. -/
def Obligations.HostPort : Prop :=
  (∀ s : State, s.powered = true →
    ∀ c ∈ [(.perstAssert : Instr), .hotReset], ∃ u, Sys2Proof.Machine.exec c s = .next u ∧ u.host.decoders = [] ∧
      u.host.doeBusy = false ∧ u.host.linkUp = false ∧ u.req.reqs.length = s.req.reqs.length ∧
      (∀ r ∈ u.req.reqs, ∀ w, r.who = .window w → r.hpa = none) ∧
      (c = .perstAssert → u.host.perst = true ∧ u.host.configured = false) ∧
      (c = .hotReset → u.host.perst = s.host.perst ∧ u.host.configured = s.host.configured) ∧
      u.mem = s.mem ∧ u.queues = s.queues ∧ u.host.cacheReads = (if s.host.linkUp then [] else s.host.cacheReads) ∧
      (s.host.linkUp = false → ∀ o, o < rHstMsix ∨ 0x128100 ≤ o → getReg o u = getReg o s)) ∧
  (∀ s : State, s.powered = true → s.host.linkUp = false →
    Sys2Proof.Machine.exec .cxlLinkDown s = .next s ∧
    (s.host.perst = false → Sys2Proof.Machine.exec .cxlLinkUp s = .next { s with host.linkUp := true }) ∧
    (s.host.perst = true → Sys2Proof.Machine.exec .cxlLinkUp s = .next s)) ∧
  (∀ s : State, s.powered = true → s.host.linkUp = true → Sys2Proof.Machine.exec .cxlLinkUp s = .next s) ∧
  (∀ s : State, s.powered = true → s.host.linkUp = true → ∃ u, Sys2Proof.Machine.exec .cxlLinkDown s = .next u ∧
    u.host.linkUp = false ∧ u.host.cacheReads = [] ∧ getBit rHstStatus 5 u = true ∧
    u.host.decoders = s.host.decoders ∧ u.mem = s.mem) ∧
  (∀ s : State, s.powered = true → ∃ u, Sys2Proof.Machine.exec .perstDeassert s = .next u ∧ u.host.perst = false ∧
    (u.host.configured = true ↔ 8 ≤ s.power.stage ∧ s.power.stage ≤ 13) ∧
    u = { s with host.perst := false, host.configured := u.host.configured }) ∧
  (∀ (w : Fin 4) (base size : Word) (s : State), s.powered = true → s.host.configured = true →
    (getDecoder w.val s).committed = false →
    (getBit (rHstWin w.val) 63 s = false ∨ (size.toNat % 2 ^ 30 = 0 ∧ size.toNat ≤ 2 ^ 40 ∧ base.toNat % 2 ^ 30 = 0 ∧
        winBase w.val s / 2 ^ 48 = (winBase w.val s + size.toNat - 1) / 2 ^ 48) →
      ∃ u, Sys2Proof.Machine.exec (.hdmDecoderCommit w base size) s = .next u ∧
        getDecoder w.val u = ⟨base, size, true, false⟩ ∧ (∀ j, j ≠ w.val → getDecoder j u = getDecoder j s) ∧
        u = { s with host.decoders := u.host.decoders }) ∧
    (getBit (rHstWin w.val) 63 s = true → size.toNat % 2 ^ 30 ≠ 0 ∨ 2 ^ 40 < size.toNat ∨ base.toNat % 2 ^ 30 ≠ 0 ∨
        winBase w.val s / 2 ^ 48 ≠ (winBase w.val s + size.toNat - 1) / 2 ^ 48 →
      ∃ u, Sys2Proof.Machine.exec (.hdmDecoderCommit w base size) s = .next u ∧
        getDecoder w.val u = ⟨base, size, false, true⟩ ∧ (∀ j, j ≠ w.val → getDecoder j u = getDecoder j s) ∧
        getBit rHstStatus 1 u = true ∧ (∀ o, o ≠ rHstStatus → getReg o u = getReg o s) ∧
        u = { s with host.decoders := u.host.decoders, regs := u.regs, counters := u.counters })) ∧
  (∀ (w : Fin 4) (base size : Word) (s : State), s.powered = true →
    s.host.configured = false ∨ (getDecoder w.val s).committed = true →
    Sys2Proof.Machine.exec (.hdmDecoderCommit w base size) s = .next s) ∧
  (∀ (side : Side) (w : Fin 4) (v : Word) (s : State), s.powered = true → gate side bHST false .ept s = .go →
    ((getDecoder w.val s).committed = false → ∃ u, Sys2Proof.Machine.exec (.hstWinWrite side w v) s = .next u ∧
      getBit (rHstWin w.val) 63 u = wbit v 63 ∧ (∀ o, o ≠ rHstWin w.val → getReg o u = getReg o s) ∧
      u = { s with regs := u.regs }) ∧
    ((getDecoder w.val s).committed = true → ∃ u, Sys2Proof.Machine.exec (.hstWinWrite side w v) s = .next u ∧
      getBit rHstStatus 1 u = true ∧ (∀ o, o ≠ rHstStatus → getReg o u = getReg o s) ∧
      u = { s with regs := u.regs, counters := u.counters })) ∧
  (∀ s : State, s.powered = true → s.host.cacheReads = [] →
    ∀ data, Sys2Proof.Machine.exec (.cxlCacheCompletion data) s = .next s) ∧
  (∀ (data : BitVec 512) (id a : Nat) (t : List (Nat × Nat)) (s : State), s.powered = true →
    s.host.cacheReads = (id, a) :: t →
    (findReq id s = none → Sys2Proof.Machine.exec (.cxlCacheCompletion data) s = .next { s with host.cacheReads := t }) ∧
    (∀ r, findReq id s = some r → ∃ u, Sys2Proof.Machine.exec (.cxlCacheCompletion data) s = .next u ∧
      u.host.cacheReads = t)) ∧
  (∀ (a : Word) (s : State), s.powered = true →
    (s.host.linkUp = true → Sys2Proof.Machine.exec (.snoop a) s = .next { s with side.answers :=
      s.side.answers ++ [⟨.host, 0, stOk, bytesOfNat 8 (a.toNat / 64 * 64)⟩] }) ∧
    (s.host.linkUp = false → Sys2Proof.Machine.exec (.snoop a) s = .next s) ∧
    Sys2Proof.Machine.exec .doeAbort s = .next { s with host.doeBusy := false }) ∧
  (∀ (i : Byte) (h : BitVec 16) (s : State), s.powered = true → doeUp s = true →
    (i = 0 → ∃ u, Sys2Proof.Machine.exec (.doeDiscovery i) s = .next u ∧
      u = { s with host.doeBusy := true, side.answers := s.side.answers ++ [⟨.doe, 0, stOk, [1, 0, 0, 1]⟩] }) ∧
    (i = 1 → ∃ u, Sys2Proof.Machine.exec (.doeDiscovery i) s = .next u ∧
      u = { s with host.doeBusy := true, side.answers := s.side.answers ++ [⟨.doe, 0, stOk, [0x98, 0x1E, 2, 2]⟩] }) ∧
    (i = 2 ∨ i = 3 → ∃ u, Sys2Proof.Machine.exec (.doeDiscovery i) s = .next u ∧
      u = { s with host.doeBusy := true, side.answers := s.side.answers ++
        [⟨.doe, 0, stOk, bytesOfNat 2 Config.vendorId.toNat ++ [i - 1, (i + 1) % 4]⟩] }) ∧
    (4 ≤ i.toNat → ∃ u, Sys2Proof.Machine.exec (.doeDiscovery i) s = .next u ∧
      u = { s with host.doeBusy := true, side.answers := s.side.answers ++ [⟨.doe, 0, stOk, [0xFF, 0xFF, 0, 0]⟩] }) ∧
    (∀ w, (committedWindows s)[h.toNat]? = some w → ∃ u b, Sys2Proof.Machine.exec (.cdatTableAccess h) s = .next u ∧
      b = bytesOfNat 1 w ++ bytesOfNat 8 (getDecoder w s).base.toNat ++ bytesOfNat 8 (getDecoder w s).size.toNat ++
        bytesOfNat 2 900 ++ bytesOfNat 2 256 ∧
      u = { s with host.doeBusy := true, side.answers := s.side.answers ++ [⟨.doe, 0, stOk, b⟩] }) ∧
    ((committedWindows s)[h.toNat]? = none → Sys2Proof.Machine.exec (.cdatTableAccess h) s =
      .next { s with host.doeBusy := true, side.answers := s.side.answers ++ [⟨.doe, 0, stMalformed, []⟩] })) ∧
  (∀ (i : Byte) (h : BitVec 16) (s : State), s.powered = true → doeUp s = false →
    Sys2Proof.Machine.exec (.doeDiscovery i) s = .next s ∧ Sys2Proof.Machine.exec (.cdatTableAccess h) s = .next s) ∧
  (∀ (env : Envelope) (x : Session) (b : List Byte) (s : State), s.powered = true →
    getSession env.session.val s = some x → sessionServed x s → env.tagOk = true → env.counter.toNat = x.rx →
    x.via = .mctp ∨ b = [] → ∃ u, Sys2Proof.Machine.exec (.ideKm env b) s = .next u ∧
      u.side.answers = s.side.answers ++ [⟨transportChannel x.via, 0, stMalformed, []⟩] ∧
      getSession env.session.val u = some { x with rx := x.rx + 1, tx := x.tx + 1, last := s.clock } ∧
      u.regs = s.regs ∧ u.mem = s.mem) ∧
  (∀ (env : Envelope) (x : Session) (b : List Byte) (s : State), s.powered = true →
    getSession env.session.val s = some x → sessionServed x s → (env.tagOk = true → env.counter.toNat ≠ x.rx) →
    ∃ u, Sys2Proof.Machine.exec (.ideKm env b) s = .next u ∧ getSession env.session.val u = none ∧
      getBit rSecStatus 1 u = true ∧ u.side = s.side) ∧
  (∀ (env : Envelope) (x : Session) (b : List Byte) (s : State), s.powered = true →
    getSession env.session.val s = some x → x.via = .doe → sessionServed x s → env.tagOk = true →
    env.counter.toNat = x.rx → b ≠ [] → ∃ u v, Sys2Proof.Machine.exec (.ideKm env b) s = .next u ∧ v.length = 8 ∧
      u.side.answers = s.side.answers ++ [⟨.doe, 0, stOk, v⟩] ∧
      getSession env.session.val u = some { x with rx := x.rx + 1, tx := x.tx + 1, last := s.clock } ∧
      u.regs = s.regs ∧ u.mem = s.mem)
end

