-- ==== Sys2Proof/Laws/Tbl.lean ====
section
/-! SUPPORT. The laws of tables with a default: reading after writing, and the canonical form. -/
namespace Sys2Proof.Machine

theorem tblGet_tblErase_self {α : Type} (d : α) (t : Tbl α) (i : Nat) : tblGet d (tblErase i t) i = d := by
  induction t with
  | nil => rfl
  | cons e t ih =>
    obtain ⟨k, v⟩ := e
    by_cases h : k = i <;> simp [tblErase, tblGet, h, ih]

theorem tblGet_tblErase_ne {α : Type} (d : α) (t : Tbl α) {i j : Nat} (h : i ≠ j) :
    tblGet d (tblErase i t) j = tblGet d t j := by
  induction t with
  | nil => rfl
  | cons e t ih =>
    obtain ⟨k, v⟩ := e
    by_cases hk : k = i
    · have hj : k ≠ j := fun e => h (hk ▸ e)
      simp [tblErase, tblGet, hk, ih, h]
    · simp [tblErase, tblGet, hk, ih]

theorem tblGet_tblInsert_self {α : Type} (d : α) (t : Tbl α) (i : Nat) (v : α) (h : ∀ e ∈ t, e.1 ≠ i) :
    tblGet d (tblInsert i v t) i = v := by
  induction t with
  | nil => simp [tblInsert, tblGet]
  | cons e t ih =>
    obtain ⟨k, w⟩ := e
    have hk : k ≠ i := h (k, w) (by simp)
    by_cases hlt : i < k
    · simp [tblInsert, tblGet, hlt]
    · simp [tblInsert, tblGet, hlt, hk, ih (fun e he => h e (by simp [he]))]

theorem tblGet_tblInsert_ne {α : Type} (d : α) (t : Tbl α) {i j : Nat} (v : α) (h : i ≠ j) :
    tblGet d (tblInsert i v t) j = tblGet d t j := by
  induction t with
  | nil => simp [tblInsert, tblGet, h]
  | cons e t ih =>
    obtain ⟨k, w⟩ := e
    by_cases hlt : i < k
    · simp [tblInsert, tblGet, hlt, h]
    · simp [tblInsert, tblGet, hlt, ih]

theorem tblErase_keys {α : Type} (t : Tbl α) (i : Nat) : ∀ e ∈ tblErase i t, e.1 ≠ i := by
  induction t with
  | nil => simp [tblErase]
  | cons e t ih =>
    obtain ⟨k, v⟩ := e
    by_cases h : k = i
    · simpa [tblErase, h] using ih
    · simp only [tblErase, h, if_false, List.mem_cons]
      rintro e (rfl | he)
      · exact h
      · exact ih e he

/-- A table read after a write to the same key gives the value written. -/
@[simp] theorem tblGet_tblSet_self {α : Type} [DecidableEq α] (d : α) (t : Tbl α) (i : Nat) (v : α) :
    tblGet d (tblSet d t i v) i = v := by
  unfold tblSet
  split
  · rename_i h
    rw [tblGet_tblErase_self, h]
  · exact tblGet_tblInsert_self d _ i v (tblErase_keys t i)

/-- A write leaves every other key alone. -/
theorem tblGet_tblSet_ne {α : Type} [DecidableEq α] (d : α) (t : Tbl α) {i j : Nat} (v : α) (h : i ≠ j) :
    tblGet d (tblSet d t i v) j = tblGet d t j := by
  unfold tblSet
  split
  · exact tblGet_tblErase_ne d t h
  · rw [tblGet_tblInsert_ne d _ v h, tblGet_tblErase_ne d t h]

theorem tblGet_tblSet {α : Type} [DecidableEq α] (d : α) (t : Tbl α) (i j : Nat) (v : α) :
    tblGet d (tblSet d t i v) j = if i = j then v else tblGet d t j := by
  split
  · rename_i h
    rw [← h, tblGet_tblSet_self]
  · rename_i h
    exact tblGet_tblSet_ne d t v h

theorem tblGet_tblKeep {α : Type} (d : α) (p : Nat → Bool) (t : Tbl α) (i : Nat) :
    tblGet d (tblKeep p t) i = if p i then tblGet d t i else d := by
  induction t with
  | nil => simp [tblKeep, tblGet]
  | cons e t ih =>
    obtain ⟨k, v⟩ := e
    by_cases hp : p k <;> by_cases hk : k = i <;> simp_all [tblKeep, tblGet]

/-! ### The canonical form -/

theorem tblWfFrom_mono {α : Type} [DecidableEq α] (d : α) {lo hi : Nat} (t : Tbl α) (h : lo ≤ hi)
    (w : tblWfFrom d hi t = true) : tblWfFrom d lo t = true := by
  cases t with
  | nil => rfl
  | cons e t =>
    obtain ⟨k, v⟩ := e
    simp only [tblWfFrom, Bool.and_eq_true, decide_eq_true_eq] at w ⊢
    exact ⟨⟨Nat.le_trans h w.1.1, w.1.2⟩, w.2⟩

theorem tblErase_wf {α : Type} [DecidableEq α] (d : α) (i : Nat) (t : Tbl α) (lo : Nat)
    (w : tblWfFrom d lo t = true) : tblWfFrom d lo (tblErase i t) = true := by
  induction t generalizing lo with
  | nil => rfl
  | cons e t ih =>
    obtain ⟨k, v⟩ := e
    simp only [tblWfFrom, Bool.and_eq_true, decide_eq_true_eq] at w
    by_cases h : k = i
    · simp only [tblErase, h, if_true]
      exact ih lo (tblWfFrom_mono d t (by omega) w.2)
    · simp only [tblErase, h, if_false, tblWfFrom, Bool.and_eq_true, decide_eq_true_eq]
      exact ⟨w.1, ih (k + 1) w.2⟩

theorem tblInsert_wf {α : Type} [DecidableEq α] (d : α) (i : Nat) (v : α) (t : Tbl α) (lo : Nat) (hv : v ≠ d)
    (hk : ∀ e ∈ t, e.1 ≠ i) (hi : lo ≤ i) (w : tblWfFrom d lo t = true) :
    tblWfFrom d lo (tblInsert i v t) = true := by
  induction t generalizing lo with
  | nil => simp [tblInsert, tblWfFrom, hi, hv]
  | cons e t ih =>
    obtain ⟨k, x⟩ := e
    have hki : k ≠ i := hk (k, x) (by simp)
    simp only [tblWfFrom, Bool.and_eq_true, decide_eq_true_eq] at w
    by_cases h : i < k
    · simp only [tblInsert, h, if_true, tblWfFrom, Bool.and_eq_true, decide_eq_true_eq]
      exact ⟨⟨hi, by simpa using hv⟩, ⟨by omega, w.1.2⟩, w.2⟩
    · simp only [tblInsert, h, if_false, tblWfFrom, Bool.and_eq_true, decide_eq_true_eq]
      exact ⟨w.1, ih (k + 1) (fun e he => hk e (by simp [he])) (by omega) w.2⟩

/-- A write keeps the canonical form. -/
theorem tblSet_wf {α : Type} [DecidableEq α] (d : α) (t : Tbl α) (i : Nat) (v : α) (w : tblWf d t = true) :
    tblWf d (tblSet d t i v) = true := by
  unfold tblSet tblWf
  split
  · exact tblErase_wf d i t 0 w
  · rename_i h
    exact tblInsert_wf d i v _ 0 h (tblErase_keys t i) (Nat.zero_le i) (tblErase_wf d i t 0 w)

theorem tblKeepFrom_wf {α : Type} [DecidableEq α] (d : α) (p : Nat → Bool) (t : Tbl α) (lo : Nat)
    (w : tblWfFrom d lo t = true) : tblWfFrom d lo (tblKeep p t) = true := by
  induction t generalizing lo with
  | nil => rfl
  | cons e t ih =>
    obtain ⟨k, v⟩ := e
    simp only [tblWfFrom, Bool.and_eq_true, decide_eq_true_eq] at w
    by_cases h : p k
    · simp only [tblKeep, h, if_true, tblWfFrom, Bool.and_eq_true, decide_eq_true_eq]
      exact ⟨w.1, ih (k + 1) w.2⟩
    · simp only [tblKeep, h]
      exact ih lo (tblWfFrom_mono d t (by omega) w.2)

/-- Taking entries out keeps the canonical form. -/
theorem tblKeep_wf {α : Type} [DecidableEq α] (d : α) (p : Nat → Bool) (t : Tbl α) (w : tblWf d t = true) :
    tblWf d (tblKeep p t) = true := tblKeepFrom_wf d p t 0 w

end Sys2Proof.Machine
end

