-- ==== Sys2Proof/Laws/Kept.lean ====
section
/-! SUPPORT. What every command keeps: the queue of waiting commands, the clock, the canonical form of both memories and
the retired pages. `Kept a s` compares a later state with an earlier one; one lemma per operation carries it on. -/
namespace Sys2Proof.Machine

/-- What holds between an earlier state and a later one, whatever commands ran in between. -/
structure Kept (a s : State) : Prop where
  pending : s.pending = a.pending
  clock : s.clock = a.clock
  wf : a.memWf = true → s.memWf = true
  retired : ∀ x ∈ a.memory.retired, x ∈ s.memory.retired

@[simp] theorem Kept.refl (s : State) : Kept s s := ⟨rfl, rfl, id, fun _ h => h⟩

theorem Kept.trans {a b c : State} (h : Kept a b) (k : Kept b c) : Kept a c :=
  ⟨k.pending.trans h.pending, k.clock.trans h.clock, fun w => k.wf (h.wf w), fun x w => k.retired x (h.retired x w)⟩

/-- The state of an answer that comes with one. -/
theorem Kept.of_snd {α : Type} {a t : State} {p : α × State} {x : α} (h : Kept a p.2) (e : p = (x, t)) :
    Kept a t := by
  subst e; exact h

/-- An update that leaves the queue, the clock, both memories and the retired pages alone. -/
@[simp] theorem kept_mk {a s : State} (h : Kept a s) {powered : Bool} {timeBase timeFrac freeCtr regs resets img memory
    xlt queues req tgt sw links credit owed counters latched array caravan rope tenant host side power service time
    observe} (hm : ∀ x ∈ s.memory.retired, x ∈ memory.retired) :
    Kept a (State.mk s.pending powered s.clock timeBase timeFrac freeCtr regs resets img s.mem memory xlt queues req tgt
      sw links credit owed counters latched array caravan rope tenant host side power service time observe
      s.hostMem) :=
  ⟨h.pending, h.clock, h.wf, fun x w => hm x (h.retired x w)⟩

@[simp] theorem kept_ite {a s t : State} {c : Prop} [Decidable c] (h : Kept a s) (k : Kept a t) :
    Kept a (if c then s else t) := by split <;> assumption

theorem kept_ite2 {a s t : State} {c : Prop} {i : Decidable c} (h : Kept a s) (k : Kept a t) :
    Kept a (@ite _ c i s t) := by split <;> assumption

theorem kept_foldl {α : Type} {a : State} (l : List α) (f : State → α → State)
    (hf : ∀ s, Kept a s → ∀ x, Kept a (f s x)) : ∀ s, Kept a s → Kept a (l.foldl f s) := by
  induction l with
  | nil => exact fun s h => h
  | cons x t ih => exact fun s h => ih _ (hf s h x)

@[simp] theorem kept_foldl' {α : Type} {a s : State} (l : List α) (f : State → α → State) (h : Kept a s)
    (hf : ∀ s, Kept a s → ∀ x, Kept a (f s x)) : Kept a (l.foldl f s) := kept_foldl l f hf s h

/-! ### Memory -/

theorem writeCells_wf (bs : List Byte) (a : Nat) (m : List Host.Cell) (w : Memory.wf m = true) :
    Memory.wf (writeCells bs a m) = true := by
  induction bs generalizing a m with
  | nil => exact w
  | cons b t ih => exact ih (a + 1) _ (tblSet_wf 0 m a b w)

theorem setCells_wf (base : Nat) (bs : List (Nat × Byte)) (m : List Host.Cell) (w : Memory.wf m = true) :
    Memory.wf (setCells base bs m) = true := by
  induction bs generalizing m with
  | nil => exact w
  | cons e t ih =>
    obtain ⟨i, b⟩ := e
    exact ih _ (tblSet_wf 0 m (base + i) b w)

theorem memWf_iff (s : State) : s.memWf = true ↔ Memory.wf s.mem = true ∧ Memory.wf s.hostMem = true := by
  simp [State.memWf]

/-- Bytes put into the memory with such an update. -/
@[simp] theorem kept_mk_setCells {a s : State} (h : Kept a s) (b : Nat) (l : List (Nat × Byte)) {powered : Bool} {timeBase timeFrac freeCtr regs resets img memory
    xlt queues req tgt sw links credit owed counters latched array caravan rope tenant host side power service time
    observe} (hm : ∀ x ∈ s.memory.retired, x ∈ memory.retired) :
    Kept a (State.mk s.pending powered s.clock timeBase timeFrac freeCtr regs resets img (setCells b l s.mem) memory xlt queues req tgt
      sw links credit owed counters latched array caravan rope tenant host side power service time observe
      s.hostMem) :=
  ⟨h.pending, h.clock, fun w => by
    have v := h.wf w
    rw [memWf_iff] at v ⊢
    exact ⟨setCells_wf _ _ _ v.1, v.2⟩, fun x w => hm x (h.retired x w)⟩

end Sys2Proof.Machine
end

