-- ==== Sys2Proof/Laws/KeptOps.lean ====
section
/-! SUPPORT. What every command keeps (Laws/Kept.lean), carried through registers, flags, keys, the keeper and memory:
one lemma for each operation. -/
set_option maxRecDepth 4000
namespace Sys2Proof.Machine

/-! ### Ops -/

@[simp] theorem whenTrue_kept {z s : State} (h : Kept z s) (b : Bool) (f : State → State) (hf : ∀ t, Kept z t →
    Kept z (f t)) : Kept z (whenTrue b f s) := by
  simp (maxDischargeDepth := 40) +contextual [whenTrue, h, hf]

@[simp] theorem putReg_kept {z s : State} (h : Kept z s) (o : Nat) (v : Word) : Kept z (putReg o v s) := by
  simp (maxDischargeDepth := 40) +contextual [putReg, h]

@[simp] theorem putField_kept {z s : State} (h : Kept z s) (o : Nat) (hi : Nat) (lo : Nat) (x : Nat) : Kept z
    (putField o hi lo x s) := by
  simp (maxDischargeDepth := 40) +contextual [putField, h]

@[simp] theorem bump_kept {z s : State} (h : Kept z s) (a : Nat) (n : Nat) : Kept z (bump a n s) := by
  simp (maxDischargeDepth := 40) +contextual [bump, h]

@[simp] theorem putGauge_kept {z s : State} (h : Kept z s) (a : Nat) (n : Nat) : Kept z (putGauge a n s) := by
  simp (maxDischargeDepth := 40) +contextual [putGauge, h]

@[simp] theorem blockEvent_kept {z s : State} (h : Kept z s) (b : Nat) : Kept z (blockEvent b s) := by
  simp (maxDischargeDepth := 40) +contextual [blockEvent, h]

@[simp] theorem prof_kept {z s : State} (h : Kept z s) (b : Nat) (inst : Nat) (part : Nat) (ev : Nat) (n : Nat) :
    Kept z (prof b inst part ev n s) := by
  simp (maxDischargeDepth := 40) +contextual [prof, h]

@[simp] theorem profItem_kept {z s : State} (h : Kept z s) (b : Nat) : Kept z (profItem b s) := by
  simp (maxDischargeDepth := 40) +contextual [profItem, h]

@[simp] theorem takeFree_kept {z s : State} (h : Kept z s) : Kept z (takeFree s).2 := by
  simp (maxDischargeDepth := 40) +contextual [takeFree, h]

@[simp] theorem answer_kept {z s : State} (h : Kept z s) (via : Channel) (tag : Byte) (status : Byte) (body : List
    Byte) : Kept z (answer via tag status body s) := by
  simp (maxDischargeDepth := 40) +contextual [answer, h]

@[simp] theorem logEvent_kept {z s : State} (h : Kept z s) (blk : Nat) (inst : Nat) (kind : Nat) (status : Byte)
    (part : Byte) (detail : BitVec 128) : Kept z (logEvent blk inst kind status part detail s) := by
  simp (maxDischargeDepth := 40) +contextual [logEvent, h]

@[simp] theorem writeMem_kept {z s : State} (h : Kept z s) (a : Nat) (bs : List Byte) : Kept z (writeMem a bs s)
    := by
  exact ⟨h.pending, h.clock, fun w => by
    have v := h.wf w
    rw [memWf_iff] at v ⊢
    exact ⟨writeCells_wf _ _ _ v.1, v.2⟩, h.retired⟩

@[simp] theorem clearMem_kept {z s : State} (h : Kept z s) (lo : Nat) (hi : Nat) : Kept z (clearMem lo hi s) := by
  exact ⟨h.pending, h.clock, fun w => by
    have v := h.wf w
    rw [memWf_iff] at v ⊢
    exact ⟨tblKeep_wf _ _ _ v.1, v.2⟩, h.retired⟩

@[simp] theorem writeHost_kept {z s : State} (h : Kept z s) (a : Nat) (bs : List Byte) : Kept z (writeHost a bs s)
    := by
  exact ⟨h.pending, h.clock, fun w => by
    have v := h.wf w
    rw [memWf_iff] at v ⊢
    exact ⟨v.1, writeCells_wf _ _ _ v.2⟩, h.retired⟩

@[simp] theorem sendCore_kept {z s : State} (h : Kept z s) (input : Nat) (f : Frame) : Kept z (sendCore input f s)
    := by
  simp (maxDischargeDepth := 40) +contextual [sendCore, h]

/-! ### Flags -/

@[simp] theorem raiseVector_kept {z s : State} (h : Kept z s) (v : Nat) : Kept z (raiseVector v s) := by
  simp (maxDischargeDepth := 40) +contextual [raiseVector, h]

@[simp] theorem raiseAttn_kept {z s : State} (h : Kept z s) : Kept z (raiseAttn s) := by
  simp (maxDischargeDepth := 40) +contextual [raiseAttn, h]

@[simp] theorem setFlag_kept {z s : State} (h : Kept z s) (o : Nat) (bit : Nat) : Kept z (setFlag o bit s) := by
  unfold setFlag
  (repeat' split) <;> simp (maxDischargeDepth := 40) +contextual [h]

@[simp] theorem refuse_kept {z s : State} (h : Kept z s) (blk : Nat) (o : Nat) (bit : Nat) : Kept z (refuse blk o
    bit s) := by
  simp (maxDischargeDepth := 40) +contextual [refuse, h]

@[simp] theorem refuseEarly_kept {z s : State} (h : Kept z s) : Kept z (refuseEarly s) := by
  simp (maxDischargeDepth := 40) +contextual [refuseEarly, h]

@[simp] theorem refuseDenied_kept {z s : State} (h : Kept z s) : Kept z (refuseDenied s) := by
  simp (maxDischargeDepth := 40) +contextual [refuseDenied, h]

@[simp] theorem guarded_kept {z s : State} (h : Kept z s) (side : Side) (blk : Nat) (fixed : Bool) (d : Dom) (f :
    State → State) (hf : ∀ t, Kept z t → Kept z (f t)) : Kept z (guarded side blk fixed d s f) := by
  unfold guarded
  (repeat' split) <;> simp (maxDischargeDepth := 40) +contextual [h, hf]

/-! ### Slots -/

@[simp] theorem putSlot_kept {z s : State} (h : Kept z s) (n : Nat) (k : KeySlot) : Kept z (putSlot n k s) := by
  simp (maxDischargeDepth := 40) +contextual [putSlot, h]

@[simp] theorem putPage_kept {z s : State} (h : Kept z s) (i : Nat) (st : Nat) (shared : Bool) (p : Byte) (slot :
    Nat) : Kept z (putPage i st shared p slot s) := by
  simp (maxDischargeDepth := 40) +contextual [putPage, h]

@[simp] theorem setPageState_kept {z s : State} (h : Kept z s) (i : Nat) (st : Nat) : Kept z (setPageState i st s)
    := by
  simp (maxDischargeDepth := 40) +contextual [setPageState, h]

@[simp] theorem mgmtTo_kept {z s : State} (h : Kept z s) (i : Nat) (data : Slot) : Kept z (mgmtTo i data s) := by
  simp (maxDischargeDepth := 40) +contextual [mgmtTo, h]

/-! ### Keeper -/

@[simp] theorem keyAnswer_kept {z s : State} (h : Kept z s) (tr : Transport) (st : Byte) (body : List Byte) : Kept
    z (keyAnswer tr st body s) := by
  simp (maxDischargeDepth := 40) +contextual [keyAnswer, h]

@[simp] theorem putSession_kept {z s : State} (h : Kept z s) (i : Nat) (v : Option Session) : Kept z (putSession i
    v s) := by
  simp (maxDischargeDepth := 40) +contextual [putSession, h]

@[simp] theorem failSession_kept {z s : State} (h : Kept z s) (i : Nat) : Kept z (failSession i s) := by
  simp (maxDischargeDepth := 40) +contextual [failSession, h]

@[simp] theorem dropSessions_kept {z s : State} (h : Kept z s) (p : Session → Bool) : Kept z (dropSessions p s)
    := by
  unfold dropSessions
  refine kept_foldl' _ _ (by simp (maxDischargeDepth := 40) +contextual [h]) ?_
  intro t ht x
  (repeat' split) <;> simp (maxDischargeDepth := 40) +contextual [ht]

@[simp] theorem sealedMessage_kept {z s : State} (h : Kept z s) (env : Envelope) (f : Transport → State → State)
    (hf : ∀ x0 t, Kept z t → Kept z (f x0 t)) : Kept z (sealedMessage env f s) := by
  unfold sealedMessage
  (repeat' split) <;> simp (maxDischargeDepth := 40) +contextual [h, hf]

@[simp] theorem sealedStatus_kept {z s : State} (h : Kept z s) (env : Envelope) (f : State → Byte × State) (hf : ∀
    t, Kept z t → Kept z (f t).2) : Kept z (sealedStatus env f s) := by
  simp (maxDischargeDepth := 40) +contextual [sealedStatus, h, hf]

/-! ### Memory -/

@[simp] theorem putStack_kept {z s : State} (h : Kept z s) (k : Nat) (v : Stack) : Kept z (putStack k v s) := by
  simp (maxDischargeDepth := 40) +contextual [putStack, h]

@[simp] theorem retirePage_kept {z s : State} (h : Kept z s) (k : Nat) (p : Nat) : Kept z (retirePage k p s) := by
  simp (maxDischargeDepth := 40) +contextual [retirePage, h]

@[simp] theorem goOutOfService_kept {z s : State} (h : Kept z s) (cause : Nat) : Kept z (goOutOfService cause s)
    := by
  simp (maxDischargeDepth := 40) +contextual [goOutOfService, h]

@[simp] theorem noteBadLine_kept {z s : State} (h : Kept z s) (l : Nat) : Kept z (noteBadLine l s) := by
  simp (maxDischargeDepth := 40) +contextual [noteBadLine, h]

@[simp] theorem markRewritten_kept {z s : State} (h : Kept z s) (lo : Nat) (hi : Nat) : Kept z (markRewritten lo
    hi s) := by
  simp (maxDischargeDepth := 40) +contextual [markRewritten, h]

@[simp] theorem logEntryWrite_kept {z s : State} (h : Kept z s) (k : Nat) (cw : Nat) (source : Nat) (mask : Nat)
    (overflow : Bool) : Kept z (logEntryWrite k cw source mask overflow s) := by
  simp (maxDischargeDepth := 40) +contextual [logEntryWrite, h]

@[simp] theorem logMemError_kept {z s : State} (h : Kept z s) (cw : Nat) (source : Nat) (mask : Nat) : Kept z
    (logMemError cw source mask s) := by
  simp (maxDischargeDepth := 40) +contextual [logMemError, h]

@[simp] theorem logWords_kept {z s : State} (h : Kept z s) (l : Nat) (source : Nat) : Kept z (logWords l source s)
    := by
  simp (maxDischargeDepth := 40) +contextual [logWords, h]

@[simp] theorem logLine_kept {z s : State} (h : Kept z s) (l : Nat) (source : Nat) : Kept z (logLine l source s)
    := by
  simp only [logLine]
  (repeat' split) <;> simp (maxDischargeDepth := 40) +contextual [h]

@[simp] theorem profLine_kept {z s : State} (h : Kept z s) (l : Nat) (n : Nat) : Kept z (profLine l n s) := by
  simp (maxDischargeDepth := 40) +contextual [profLine, h]

@[simp] theorem countRead_kept {z s : State} (h : Kept z s) (l : Nat) (n : Nat) : Kept z (countRead l n s) := by
  simp (maxDischargeDepth := 40) +contextual [countRead, h]

@[simp] theorem countWrite_kept {z s : State} (h : Kept z s) (l : Nat) (n : Nat) : Kept z (countWrite l n s) := by
  simp (maxDischargeDepth := 40) +contextual [countWrite, h]

@[simp] theorem injectOn_kept {z s : State} (h : Kept z s) (l : Nat) : Kept z (injectOn l s) := by
  simp (maxDischargeDepth := 40) +contextual [injectOn, h]

@[simp] theorem freshWords_kept {z s : State} (h : Kept z s) (l : Nat) : Kept z (freshWords l s) := by
  simp (maxDischargeDepth := 40) +contextual [freshWords, h]

@[simp] theorem landBytes_kept {z s : State} (h : Kept z s) (l : Nat) (bs : List (Nat × Byte)) (whole : Bool) :
    Kept z (landBytes l bs whole s) := by
  simp (maxDischargeDepth := 40) +contextual [landBytes, h]

@[simp] theorem storeLines_kept {z s : State} (h : Kept z s) (a0 : Nat) (a1 : Nat) (a2 : List Byte) : Kept z
    (storeLines a0 a1 a2 s) := by
  induction a0 generalizing a1 a2 s with
  | zero => simpa [storeLines] using h
  | succ n ih =>
    unfold storeLines
    split
    · exact h
    · apply ih
      split <;> simp [h]

@[simp] theorem storeBytes_kept {z s : State} (h : Kept z s) (a : Nat) (bs : List Byte) : Kept z (storeBytes a bs
    s) := by
  simp (maxDischargeDepth := 40) +contextual [storeBytes, h]

@[simp] theorem clearRegion_kept {z s : State} (h : Kept z s) (lo : Nat) (hi : Nat) : Kept z (clearRegion lo hi s)
    := by
  simp (maxDischargeDepth := 40) +contextual [clearRegion, h]

end Sys2Proof.Machine
end

