-- ==== Sys2Proof/Laws/KeptTarget.lean ====
section
/-! SUPPORT. What every command keeps (Laws/Kept.lean), carried through the request target, attestation and the
array's cells: one lemma for each operation. -/
set_option maxRecDepth 4000
namespace Sys2Proof.Machine

/-! ### Target -/

@[simp] theorem takeArrived_kept {z s : State} (h : Kept z s) (port : Nat) (f : Frame) : Kept z (takeArrived port
    f s) := by
  simp (maxDischargeDepth := 40) +contextual [takeArrived, h]

@[simp] theorem dropStale_kept {z s : State} (h : Kept z s) : Kept z (dropStale s) := by
  simp (maxDischargeDepth := 40) +contextual [dropStale, h]

@[simp] theorem dropTag_kept {z s : State} (h : Kept z s) : Kept z (dropTag s) := by
  simp (maxDischargeDepth := 40) +contextual [dropTag, h]

@[simp] theorem respond_kept {z s : State} (h : Kept z s) (port : Nat) (f : Frame) (status : Byte) (data : List
    Slot) : Kept z (respond port f status data s) := by
  simp (maxDischargeDepth := 40) +contextual [respond, h]

@[simp] theorem putStream_kept {z s : State} (h : Kept z s) (r : StreamRec) : Kept z (putStream r s) := by
  simp (maxDischargeDepth := 40) +contextual [putStream, h]

@[simp] theorem keepResults_kept {z s : State} (h : Kept z s) (src : BitVec 16) (sid : BitVec 16) (keep : Seq →
    Bool) : Kept z (keepResults src sid keep s) := by
  simp (maxDischargeDepth := 40) +contextual [keepResults, h]

@[simp] theorem recordSeq_kept {z s : State} (h : Kept z s) (src : BitVec 16) (sid : BitVec 16) (seq : Seq) (v :
    SeqState) : Kept z (recordSeq src sid seq v s) := by
  unfold recordSeq
  (repeat' split) <;> simp (maxDischargeDepth := 40) +contextual [h]

@[simp] theorem touchStream_kept {z s : State} (h : Kept z s) (src : BitVec 16) (sid : BitVec 16) : Kept z
    (touchStream src sid s) := by
  unfold touchStream
  (repeat' split) <;> simp (maxDischargeDepth := 40) +contextual [h]

@[simp] theorem releaseResults_kept {z s : State} (h : Kept z s) (f : Frame) : Kept z (releaseResults f s) := by
  simp (maxDischargeDepth := 40) +contextual [releaseResults, h]

@[simp] theorem dropCopy_kept {z s : State} (h : Kept z s) : Kept z (dropCopy s) := by
  simp (maxDischargeDepth := 40) +contextual [dropCopy, h]

@[simp] theorem answerApplied_kept {z s : State} (h : Kept z s) (port : Nat) (f : Frame) : Kept z (answerApplied
    port f s) := by
  simp only [answerApplied]
  (repeat' split) <;> simp (maxDischargeDepth := 40) +contextual [h]

@[simp] theorem enqueue_kept {z s : State} (h : Kept z s) (port : Nat) (f : Frame) (kind : ReqKind) (lines : List
    Nat) : Kept z (enqueue port f kind lines s) := by
  simp (maxDischargeDepth := 40) +contextual [enqueue, h]

@[simp] theorem storeHost_kept {z s : State} (h : Kept z s) (f : Frame) : Kept z (storeHost f s) := by
  simp (maxDischargeDepth := 40) +contextual [storeHost, h]

@[simp] theorem acceptWrite_kept {z s : State} (h : Kept z s) (port : Nat) (f : Frame) : Kept z (acceptWrite port
    f s) := by
  simp (maxDischargeDepth := 40) +contextual [acceptWrite, h]

@[simp] theorem refuseWrite_kept {z s : State} (h : Kept z s) (port : Nat) (f : Frame) (status : Byte) : Kept z
    (refuseWrite port f status s) := by
  simp (maxDischargeDepth := 40) +contextual [refuseWrite, h]

@[simp] theorem checkWrite_kept {z s : State} (h : Kept z s) (port : Nat) (f : Frame) : Kept z (checkWrite port f
    s) := by
  unfold checkWrite
  (repeat' split) <;> simp (maxDischargeDepth := 40) +contextual [h]

@[simp] theorem ledgerWrite_kept {z s : State} (h : Kept z s) (port : Nat) (f : Frame) : Kept z (ledgerWrite port
    f s) := by
  unfold ledgerWrite
  (repeat' split) <;> simp (maxDischargeDepth := 40) +contextual [h]

@[simp] theorem writeArrives_kept {z s : State} (h : Kept z s) (port : Nat) (f : Frame) : Kept z (writeArrives
    port f s) := by
  simp only [writeArrives]
  (repeat' split) <;> simp (maxDischargeDepth := 40) +contextual [h]

@[simp] theorem putReq_kept {z s : State} (h : Kept z s) (r : TargetReq) : Kept z (putReq r s) := by
  simp (maxDischargeDepth := 40) +contextual [putReq, h]

@[simp] theorem answerWaiting_kept {z s : State} (h : Kept z s) (r : TargetReq) (data : List Slot) : Kept z
    (answerWaiting r data s) := by
  simp (maxDischargeDepth := 40) +contextual [answerWaiting, h]

@[simp] theorem settleSeq_kept {z s : State} (h : Kept z s) (f : Frame) (v : SeqState) : Kept z (settleSeq f v s)
    := by
  unfold settleSeq
  (repeat' split) <;> simp (maxDischargeDepth := 40) +contextual [h]

@[simp] theorem finishReq_kept {z s : State} (h : Kept z s) (r : TargetReq) : Kept z (finishReq r s) := by
  simp (maxDischargeDepth := 40) +contextual [finishReq, h]

@[simp] theorem lineDone_kept {z s : State} (h : Kept z s) (r : TargetReq) : Kept z (lineDone r s) := by
  simp (maxDischargeDepth := 40) +contextual [lineDone, h]

@[simp] theorem serveLoad_kept {z s : State} (h : Kept z s) (r : TargetReq) (l : Nat) : Kept z (serveLoad r l s)
    := by
  simp (maxDischargeDepth := 40) +contextual [serveLoad, h]

@[simp] theorem popComb_kept {z s : State} (h : Kept z s) (l : Nat) : Kept z (popComb l s) := by
  simp (maxDischargeDepth := 40) +contextual [popComb, h]

@[simp] theorem serveHeads_kept {z s : State} (h : Kept z s) (a0 : Nat) (a1 : Nat) : Kept z (serveHeads a0 a1 s)
    := by
  induction a0 generalizing s with
  | zero => simpa [serveHeads] using h
  | succ n ih =>
    unfold serveHeads
    (repeat' split) <;> first | exact h | (apply ih; simp (maxDischargeDepth := 40) [h])

@[simp] theorem serveLine_kept {z s : State} (h : Kept z s) (l : Nat) : Kept z (serveLine l s) := by
  simp (maxDischargeDepth := 40) +contextual [serveLine, h]

@[simp] theorem hostLoad_kept {z s : State} (h : Kept z s) (port : Nat) (f : Frame) : Kept z (hostLoad port f s)
    := by
  simp (maxDischargeDepth := 40) +contextual [hostLoad, h]

@[simp] theorem loadArrives_kept {z s : State} (h : Kept z s) (port : Nat) (f : Frame) : Kept z (loadArrives port
    f s) := by
  simp only [loadArrives]
  (repeat' split) <;> simp (maxDischargeDepth := 40) +contextual [h]

@[simp] theorem noteApply_kept {z s : State} (h : Kept z s) (l : Nat) : Kept z (noteApply l s) := by
  simp (maxDischargeDepth := 40) +contextual [noteApply, h]

@[simp] theorem failStore_kept {z s : State} (h : Kept z s) (r : TargetReq) (st : Byte) : Kept z (failStore r st
    s) := by
  simp (maxDischargeDepth := 40) +contextual [failStore, h]

@[simp] theorem applyStore_kept {z s : State} (h : Kept z s) (r : TargetReq) (l : Nat) : Kept z (applyStore r l s)
    := by
  simp only [applyStore]
  (repeat' split) <;> simp (maxDischargeDepth := 40) +contextual [h]

@[simp] theorem combineApply_kept {z s : State} (h : Kept z s) (l : Nat) : Kept z (combineApply l s) := by
  simp only [combineApply]
  (repeat' split) <;> simp (maxDischargeDepth := 40) +contextual [h]

@[simp] theorem applyAtomic_kept {z s : State} (h : Kept z s) (r : TargetReq) (l : Nat) : Kept z (applyAtomic r l
    s) := by
  simp only [applyAtomic]
  (repeat' split) <;> simp (maxDischargeDepth := 40) +contextual [h]

@[simp] theorem atomicApply_kept {z s : State} (h : Kept z s) (l : Nat) : Kept z (atomicApply l s) := by
  simp only [atomicApply]
  (repeat' split) <;> simp (maxDischargeDepth := 40) +contextual [h]

@[simp] theorem queryArrives_kept {z s : State} (h : Kept z s) (f : Frame) : Kept z (queryArrives f s) := by
  unfold queryArrives
  (repeat' split) <;> simp (maxDischargeDepth := 40) +contextual [h]

@[simp] theorem takeArrivedAny_kept {z s : State} (h : Kept z s) (f : Frame) : Kept z (takeArrivedAny f s) := by
  simp (maxDischargeDepth := 40) +contextual [takeArrivedAny, h]

@[simp] theorem copiesFirst_kept {z s : State} (h : Kept z s) (f : Frame) : Kept z (copiesFirst f s) := by
  simp (maxDischargeDepth := 40) +contextual [copiesFirst, h]

/-! ### Attest -/

@[simp] theorem putImage_kept {z s : State} (h : Kept z s) (c : Nat) (ab : Nat) (v : SlotImage) : Kept z (putImage
    c ab v s) := by
  simp (maxDischargeDepth := 40) +contextual [putImage, h]

@[simp] theorem clearMessage_kept {z s : State} (h : Kept z s) (tr : Transport) (early : Bool) (f : State → State)
    (hf : ∀ t, Kept z t → Kept z (f t)) : Kept z (clearMessage tr early f s) := by
  simp (maxDischargeDepth := 40) +contextual [clearMessage, h, hf]

@[simp] theorem openSession_kept {z s : State} (h : Kept z s) (tr : Transport) (pub : List Byte) (nonce : BitVec
    256) : Kept z (openSession tr pub nonce s) := by
  unfold openSession
  (repeat' split) <;> simp (maxDischargeDepth := 40) +contextual [h]

/-! ### Grid -/

@[simp] theorem putActive_kept {z s : State} (h : Kept z s) (p : Plane) : Kept z (putActive p s) := by
  simp (maxDischargeDepth := 40) +contextual [putActive, h]

@[simp] theorem putShadow_kept {z s : State} (h : Kept z s) (p : Plane) : Kept z (putShadow p s) := by
  simp (maxDischargeDepth := 40) +contextual [putShadow, h]

@[simp] theorem discardShadow_kept {z s : State} (h : Kept z s) : Kept z (discardShadow s) := by
  simp (maxDischargeDepth := 40) +contextual [discardShadow, h]

@[simp] theorem planesLeave_kept {z s : State} (h : Kept z s) (hit : Plane → Bool) : Kept z (planesLeave hit s)
    := by
  simp (maxDischargeDepth := 40) +contextual [planesLeave, h]

@[simp] theorem planesUnmap_kept {z s : State} (h : Kept z s) (p : Byte) (first : Nat) (count : Nat) : Kept z
    (planesUnmap p first count s) := by
  simp (maxDischargeDepth := 40) +contextual [planesUnmap, h]

@[simp] theorem planesFence_kept {z s : State} (h : Kept z s) (p : Byte) : Kept z (planesFence p s) := by
  simp (maxDischargeDepth := 40) +contextual [planesFence, h]

@[simp] theorem ropeOut_kept {z s : State} (h : Kept z s) (kind : RopeOut) (bs : List Byte) : Kept z (ropeOut kind
    bs s) := by
  simp (maxDischargeDepth := 40) +contextual [ropeOut, h]

@[simp] theorem ropeSend_kept {z s : State} (h : Kept z s) (kind : RopeInput) (bs : List Byte) : Kept z (ropeSend
    kind bs s) := by
  simp (maxDischargeDepth := 40) +contextual [ropeSend, h]

@[simp] theorem ropeChunk_kept {z s : State} (h : Kept z s) (route : Nat) (crc : Word) : Kept z (ropeChunk route
    crc s) := by
  simp (maxDischargeDepth := 40) +contextual [ropeChunk, h]

@[simp] theorem putSliceWord_kept {z s : State} (h : Kept z s) (cell : Nat) (w : Nat) (v : Vec) : Kept z
    (putSliceWord cell w v s) := by
  simp (maxDischargeDepth := 40) +contextual [putSliceWord, h]

@[simp] theorem putRoomByte_kept {z s : State} (h : Kept z s) (n : Nat) (b : Nat) (v : Byte) : Kept z (putRoomByte
    n b v s) := by
  simp (maxDischargeDepth := 40) +contextual [putRoomByte, h]

@[simp] theorem roomsWrite_kept {z s : State} (h : Kept z s) (rooms : List Nat) (a1 : Nat) (a2 : List Byte) : Kept
    z (roomsWrite rooms a1 a2 s) := by
  induction a2 generalizing a1 s with
  | nil => simpa [roomsWrite] using h
  | cons v t ih =>
    unfold roomsWrite
    apply ih
    split <;> simp [h]

@[simp] theorem takeRooms_kept {z s : State} (h : Kept z s) (h1 : Nat) (l : List Nat) : Kept z (takeRooms h1 l s)
    := by
  simp (maxDischargeDepth := 40) +contextual [takeRooms, h]

@[simp] theorem freeRooms_kept {z s : State} (h : Kept z s) (l : List Nat) : Kept z (freeRooms l s) := by
  simp (maxDischargeDepth := 40) +contextual [freeRooms, h]

@[simp] theorem signValue_kept {z s : State} (h : Kept z s) (cell : Nat) (v : Vec) : Kept z (signValue cell v s)
    := by
  simp (maxDischargeDepth := 40) +contextual [signValue, h]

/-! ### RopeLoss -/

@[simp] theorem ropeRecorded_kept {z s : State} (h : Kept z s) (rec : List Byte) : Kept z (ropeRecorded rec s)
    := by
  simp (maxDischargeDepth := 40) +contextual [ropeRecorded, h]

@[simp] theorem ropeCaptureGo_kept {z s : State} (h : Kept z s) : Kept z (ropeCaptureGo s) := by
  unfold ropeCaptureGo
  (repeat' split) <;> simp (maxDischargeDepth := 40) +contextual [h]

@[simp] theorem ropeUnpair_kept {z s : State} (h : Kept z s) : Kept z (ropeUnpair s) := by
  simp (maxDischargeDepth := 40) +contextual [ropeUnpair, h]

@[simp] theorem ropePortLeft_kept {z s : State} (h : Kept z s) (p : Nat) : Kept z (ropePortLeft p s) := by
  simp only [ropePortLeft]
  (repeat' split) <;> simp (maxDischargeDepth := 40) +contextual [h]

/-! ### Cells -/

@[simp] theorem putRun_kept {z s : State} (h : Kept z s) (r : RunRec) : Kept z (putRun r s) := by
  simp (maxDischargeDepth := 40) +contextual [putRun, h]

@[simp] theorem runFails_kept {z s : State} (h : Kept z s) (st : Byte) (early : Bool) : Kept z (runFails st early
    s) := by
  unfold runFails
  (repeat' split) <;> simp (maxDischargeDepth := 40) +contextual [h]

@[simp] theorem checkWord_kept {z s : State} (h : Kept z s) (bad : List Nat) (key : Nat) : Kept z (checkWord bad
    key s) := by
  simp (maxDischargeDepth := 40) +contextual [checkWord, h]

@[simp] theorem takeRopeWord_kept {z s : State} (h : Kept z s) (cell : Nat) : Kept z (takeRopeWord cell s).2 := by
  unfold takeRopeWord
  (repeat' split) <;> simp (maxDischargeDepth := 40) +contextual [h]

@[simp] theorem sendRopeWord_kept {z s : State} (h : Kept z s) (cell : Nat) (v : Vec) : Kept z (sendRopeWord cell
    v s) := by
  unfold sendRopeWord
  (repeat' split) <;> simp (maxDischargeDepth := 40) +contextual [h]

@[simp] theorem readOperand_kept {z s : State} (h : Kept z s) (r : RunRec) (cell : Nat) (i : Word) (code : Nat) :
    Kept z (readOperand r cell i code s).2 := by
  unfold readOperand
  simp only [apply_ite Prod.snd]
  (repeat' (first | apply kept_ite | split)) <;> simp (maxDischargeDepth := 40) [h]

@[simp] theorem readIf_kept {z s : State} (h : Kept z s) (b : Bool) (r : RunRec) (cell : Nat) (i : Word) (code :
    Nat) : Kept z (readIf b r cell i code s).2 := by
  unfold readIf
  (repeat' split) <;> simp (maxDischargeDepth := 40) +contextual [h]

@[simp] theorem markIssued_kept {z s : State} (h : Kept z s) (cell : Nat) : Kept z (markIssued cell s) := by
  simp (maxDischargeDepth := 40) +contextual [markIssued, h]

@[simp] theorem issueSlot_kept {z s : State} (h : Kept z s) (r : RunRec) (cell : Nat) (i : Word) (f : CellIn →
    Vec) : Kept z (issueSlot r cell i f s) := by
  simp (maxDischargeDepth := 40) +contextual [issueSlot, h]

@[simp] theorem issueCell_kept {z s : State} (h : Kept z s) (cell : Nat) (op : Nat) (f : CellIn → Vec) : Kept z
    (issueCell cell op f s) := by
  unfold issueCell
  (repeat' split) <;> simp (maxDischargeDepth := 40) +contextual [h]

@[simp] theorem writeResult_kept {z s : State} (h : Kept z s) (n : Pending) : Kept z (writeResult n s) := by
  unfold writeResult
  (repeat' split) <;> simp (maxDischargeDepth := 40) +contextual [h]

@[simp] theorem shiftBus_kept {z s : State} (h : Kept z s) : Kept z (shiftBus s) := by
  simp (maxDischargeDepth := 40) +contextual [shiftBus, h]

@[simp] theorem advanceLoop_kept {z s : State} (h : Kept z s) (r : RunRec) : Kept z (advanceLoop r s) := by
  simp (maxDischargeDepth := 40) +contextual [advanceLoop, h]

@[simp] theorem cycleEnd_kept {z s : State} (h : Kept z s) : Kept z (cycleEnd s) := by
  unfold cycleEnd
  (repeat' split) <;> simp (maxDischargeDepth := 40) +contextual [h]

@[simp] theorem pushInput_kept {z s : State} (h : Kept z s) (cell : Nat) (v : Vec) : Kept z (pushInput cell v s)
    := by
  simp (maxDischargeDepth := 40) +contextual [pushInput, h]

@[simp] theorem freeInput_kept {z s : State} (h : Kept z s) (cell : Nat) : Kept z (freeInput cell s) := by
  simp (maxDischargeDepth := 40) +contextual [freeInput, h]

@[simp] theorem fetchWord_kept {z s : State} (h : Kept z s) (cell : Nat) (a : Nat) : Kept z (fetchWord cell a s)
    := by
  simp (maxDischargeDepth := 40) +contextual [fetchWord, h]

@[simp] theorem popOutput_kept {z s : State} (h : Kept z s) (cell : Nat) : Kept z (popOutput cell s) := by
  simp (maxDischargeDepth := 40) +contextual [popOutput, h]

end Sys2Proof.Machine
end

