-- ==== Sys2Proof/Laws/KeptQueues.lean ====
section
/-! SUPPORT. What every command keeps (Laws/Kept.lean), carried through queues, translation, the requester, the porter
and routes: one lemma for each operation. -/
set_option maxRecDepth 4000
namespace Sys2Proof.Machine

/-! ### QueueOps -/

@[simp] theorem putQ_kept {z s : State} (h : Kept z s) (q : Nat) (v : Queue) : Kept z (putQ q v s) := by
  simp (maxDischargeDepth := 40) +contextual [putQ, h]

@[simp] theorem ringWrite_kept {z s : State} (h : Kept z s) (p : Byte) (w : Word) (bytes : Nat) (off : Nat) (bs :
    List Byte) : Kept z (ringWrite p w bytes off bs s) := by
  simp (maxDischargeDepth := 40) +contextual [ringWrite, h]

@[simp] theorem updDesc_kept {z s : State} (h : Kept z s) (q : Nat) (index : BitVec 32) (f : DescEx → DescEx) :
    Kept z (updDesc q index f s) := by
  simp (maxDischargeDepth := 40) +contextual [updDesc, h]

@[simp] theorem finishDesc_kept {z s : State} (h : Kept z s) (q : Nat) (index : BitVec 32) (st : Byte) (result :
    Word) : Kept z (finishDesc q index st result s) := by
  simp (maxDischargeDepth := 40) +contextual [finishDesc, h]

@[simp] theorem leaveFaults_kept {z s : State} (h : Kept z s) (q : Fin 512) : Kept z (leaveFaults q s) := by
  simp (maxDischargeDepth := 40) +contextual [leaveFaults, h]

@[simp] theorem discardAhead_kept {z s : State} (h : Kept z s) (q : Nat) : Kept z (discardAhead q s) := by
  simp (maxDischargeDepth := 40) +contextual [discardAhead, h]

@[simp] theorem withdrawHeld_kept {z s : State} (h : Kept z s) (q : Nat) : Kept z (withdrawHeld q s) := by
  unfold withdrawHeld
  refine kept_foldl' _ _ (by simp (maxDischargeDepth := 40) +contextual [h]) ?_
  intro t ht x
  (repeat' split) <;> simp (maxDischargeDepth := 40) +contextual [ht]

@[simp] theorem enterFenced_kept {z s : State} (h : Kept z s) (q : Nat) : Kept z (enterFenced q s) := by
  simp (maxDischargeDepth := 40) +contextual [enterFenced, h]

@[simp] theorem withdrawWork_kept {z s : State} (h : Kept z s) (q : Fin 512) : Kept z (withdrawWork q s) := by
  simp (maxDischargeDepth := 40) +contextual [withdrawWork, h]

@[simp] theorem beginFence_kept {z s : State} (h : Kept z s) (q : Fin 512) : Kept z (beginFence q s) := by
  simp (maxDischargeDepth := 40) +contextual [beginFence, h]

@[simp] theorem enterRunning_kept {z s : State} (h : Kept z s) (q : Nat) : Kept z (enterRunning q s) := by
  simp (maxDischargeDepth := 40) +contextual [enterRunning, h]

@[simp] theorem runOrIdle_kept {z s : State} (h : Kept z s) (q : Nat) : Kept z (runOrIdle q s) := by
  simp (maxDischargeDepth := 40) +contextual [runOrIdle, h]

@[simp] theorem writeRecord_kept {z s : State} (h : Kept z s) (q : Nat) (d : DescEx) (st : Byte) : Kept z
    (writeRecord q d st s) := by
  simp (maxDischargeDepth := 40) +contextual [writeRecord, h]

@[simp] theorem afterStatus_kept {z s : State} (h : Kept z s) (q : Fin 512) (raw : Descriptor) (st : Byte) : Kept
    z (afterStatus q raw st s) := by
  simp (maxDischargeDepth := 40) +contextual [afterStatus, h]

@[simp] theorem completeHead_kept {z s : State} (h : Kept z s) (q : Fin 512) : Kept z (completeHead q s) := by
  unfold completeHead
  (repeat' split) <;> simp (maxDischargeDepth := 40) +contextual [h]

@[simp] theorem completeUpTo_kept {z s : State} (h : Kept z s) (a0 : Nat) (a1 : Fin 512) : Kept z (completeUpTo a0
    a1 s) := by
  induction a0 generalizing s with
  | zero => simpa [completeUpTo] using h
  | succ n ih =>
    unfold completeUpTo
    exact ih (by simp [h])

/-! ### Xlt -/

@[simp] theorem cacheTouch_kept {z s : State} (h : Kept z s) (p : Byte) (fva : Nat) : Kept z (cacheTouch p fva s)
    := by
  unfold cacheTouch
  (repeat' split) <;> simp (maxDischargeDepth := 40) +contextual [h]

@[simp] theorem cacheLeaf_kept {z s : State} (h : Kept z s) (p : Byte) (fva : Nat) (big : Bool) (w : Word) : Kept
    z (cacheLeaf p fva big w s) := by
  simp (maxDischargeDepth := 40) +contextual [cacheLeaf, h]

@[simp] theorem cacheDrop_kept {z s : State} (h : Kept z s) (p : Byte) (first : Nat) (count : Nat) : Kept z
    (cacheDrop p first count s) := by
  simp (maxDischargeDepth := 40) +contextual [cacheDrop, h]

@[simp] theorem giveAdvice_kept {z s : State} (h : Kept z s) (p : Byte) (first : Nat) (count : Nat) (hint : Nat) :
    Kept z (giveAdvice p first count hint s) := by
  simp (maxDischargeDepth := 40) +contextual [giveAdvice, h]

@[simp] theorem openNew_kept {z s : State} (h : Kept z s) (f : XltFault) : Kept z (openNew f s) := by
  simp (maxDischargeDepth := 40) +contextual [openNew, h]

@[simp] theorem raiseFault_kept {z s : State} (h : Kept z s) (q : Fin 512) (p : Byte) (fva : Nat) (reason : Nat)
    (level : Nat) (k : Access) (silent : Bool) : Kept z (raiseFault q p fva reason level k silent s) := by
  simp (maxDischargeDepth := 40) +contextual [raiseFault, h]

@[simp] theorem parkQueue_kept {z s : State} (h : Kept z s) (q : Fin 512) : Kept z (parkQueue q s) := by
  simp (maxDischargeDepth := 40) +contextual [parkQueue, h]

@[simp] theorem walkFor_kept {z s : State} (h : Kept z s) (q : Fin 512) (fva : Nat) (k : Access) (ahead : Bool) :
    Kept z (walkFor q fva k ahead s) := by
  simp only [walkFor]
  (repeat' split) <;> simp (maxDischargeDepth := 40) +contextual [h]

@[simp] theorem walkNext_kept {z s : State} (h : Kept z s) (q : Fin 512) (fva : Nat) (k : Access) : Kept z
    (walkNext q fva k s) := by
  simp (maxDischargeDepth := 40) +contextual [walkNext, h]

@[simp] theorem evRingWrite_kept {z s : State} (h : Kept z s) (ring : Nat) (ptrs : Nat) (rec : List Byte) : Kept z
    (evRingWrite ring ptrs rec s).2 := by
  simp (maxDischargeDepth := 40) +contextual [evRingWrite, h]

@[simp] theorem noteRingFull_kept {z s : State} (h : Kept z s) : Kept z (noteRingFull s) := by
  simp (maxDischargeDepth := 40) +contextual [noteRingFull, h]

@[simp] theorem writeEvRing_kept {z s : State} (h : Kept z s) (ring : Nat) (ptrs : Nat) (v : Word) : Kept z
    (writeEvRing ring ptrs v s).2 := by
  simp (maxDischargeDepth := 40) +contextual [writeEvRing, h]

@[simp] theorem writeFaultRing_kept {z s : State} (h : Kept z s) (v : Word) : Kept z (writeFaultRing v s) := by
  simp (maxDischargeDepth := 40) +contextual [writeFaultRing, h]

@[simp] theorem writeSettleRing_kept {z s : State} (h : Kept z s) (v : Word) : Kept z (writeSettleRing v s) := by
  simp (maxDischargeDepth := 40) +contextual [writeSettleRing, h]

@[simp] theorem badResume_kept {z s : State} (h : Kept z s) : Kept z (badResume s) := by
  simp (maxDischargeDepth := 40) +contextual [badResume, h]

@[simp] theorem forceWalk_kept {z s : State} (h : Kept z s) (f : XltFault) : Kept z (forceWalk f s) := by
  simp (maxDischargeDepth := 40) +contextual [forceWalk, h]

@[simp] theorem retryFault_kept {z s : State} (h : Kept z s) (f : XltFault) : Kept z (retryFault f s) := by
  simp (maxDischargeDepth := 40) +contextual [retryFault, h]

@[simp] theorem abortWork_kept {z s : State} (h : Kept z s) (q : Fin 512) (index : BitVec 32) : Kept z (abortWork
    q index s) := by
  simp (maxDischargeDepth := 40) +contextual [abortWork, h]

@[simp] theorem abortFault_kept {z s : State} (h : Kept z s) (f : XltFault) : Kept z (abortFault f s) := by
  unfold abortFault
  refine kept_foldl' _ _ (by simp (maxDischargeDepth := 40) +contextual [h]) ?_
  intro t ht x
  (repeat' split) <;> simp (maxDischargeDepth := 40) +contextual [ht]

@[simp] theorem writeResume_kept {z s : State} (h : Kept z s) (v : Word) : Kept z (writeResume v s) := by
  unfold writeResume
  (repeat' split) <;> simp (maxDischargeDepth := 40) +contextual [h]

/-! ### Requester -/

@[simp] theorem putRequest_kept {z s : State} (h : Kept z s) (r : Request) : Kept z (putRequest r s) := by
  simp (maxDischargeDepth := 40) +contextual [putRequest, h]

@[simp] theorem countFrame_kept {z s : State} (h : Kept z s) (who : Requester) : Kept z (countFrame who s) := by
  unfold countFrame
  (repeat' split) <;> simp (maxDischargeDepth := 40) +contextual [h]

@[simp] theorem sendCopy_kept {z s : State} (h : Kept z s) (r : Request) : Kept z (sendCopy r s) := by
  simp (maxDischargeDepth := 40) +contextual [sendCopy, h]

@[simp] theorem sendFirst_kept {z s : State} (h : Kept z s) (r : Request) : Kept z (sendFirst r s) := by
  simp (maxDischargeDepth := 40) +contextual [sendFirst, h]

@[simp] theorem trySend_kept {z s : State} (h : Kept z s) (r : Request) : Kept z (trySend r s) := by
  simp (maxDischargeDepth := 40) +contextual [trySend, h]

@[simp] theorem takeUp_kept {z s : State} (h : Kept z s) (r : Request) : Kept z (takeUp r s) := by
  simp (maxDischargeDepth := 40) +contextual [takeUp, h]

@[simp] theorem issue_kept {z s : State} (h : Kept z s) (r : Request) : Kept z (issue r s) := by
  simp (maxDischargeDepth := 40) +contextual [issue, h]

@[simp] theorem logHost_kept {z s : State} (h : Kept z s) (w : Nat) (write : Bool) (fa : Nat) (seq : Seq) (st :
    Byte) : Kept z (logHost w write fa seq st s) := by
  simp (maxDischargeDepth := 40) +contextual [logHost, h]

@[simp] theorem answerHost_kept {z s : State} (h : Kept z s) (hpa : Word) (write : Bool) (data : List Slot)
    (poisoned : Bool) : Kept z (answerHost hpa write data poisoned s) := by
  simp (maxDischargeDepth := 40) +contextual [answerHost, h]

@[simp] theorem windowOutcome_kept {z s : State} (h : Kept z s) (w : Nat) (r : Request) (st : Byte) (data : List
    Slot) : Kept z (windowOutcome w r st data s) := by
  unfold windowOutcome
  (repeat' split) <;> simp (maxDischargeDepth := 40) +contextual [h]

@[simp] theorem noteWithdraws_kept {z s : State} (h : Kept z s) (r : Request) (st : Byte) : Kept z (noteWithdraws
    r st s) := by
  simp (maxDischargeDepth := 40) +contextual [noteWithdraws, h]

@[simp] theorem sendQuery_kept {z s : State} (h : Kept z s) (x : Settlement) : Kept z (sendQuery x s) := by
  simp (maxDischargeDepth := 40) +contextual [sendQuery, h]

@[simp] theorem beginSettle_kept {z s : State} (h : Kept z s) (r : Request) (t0 : Nat) : Kept z (beginSettle r t0
    s) := by
  simp (maxDischargeDepth := 40) +contextual [beginSettle, h]

@[simp] theorem endOne_kept {z s : State} (h : Kept z s) (r : Request) (st : Byte) (data : List Slot) : Kept z
    (endOne r st data s) := by
  unfold endOne
  (repeat' split) <;> simp (maxDischargeDepth := 40) +contextual [h]

@[simp] theorem cancelHeld_kept {z s : State} (h : Kept z s) (who : Requester) : Kept z (cancelHeld who s) := by
  unfold cancelHeld
  (repeat' split) <;> simp (maxDischargeDepth := 40) +contextual [h]

@[simp] theorem endRequest_kept {z s : State} (h : Kept z s) (r : Request) (st : Byte) (data : List Slot) : Kept z
    (endRequest r st data s) := by
  simp (maxDischargeDepth := 40) +contextual [endRequest, h]

@[simp] theorem takeResponse_kept {z s : State} (h : Kept z s) (f : Frame) (r : Request) : Kept z (takeResponse f
    r s) := by
  simp (maxDischargeDepth := 40) +contextual [takeResponse, h]

@[simp] theorem responseArrives_kept {z s : State} (h : Kept z s) (f : Frame) : Kept z (responseArrives f s) := by
  simp only [responseArrives]
  (repeat' split) <;> simp (maxDischargeDepth := 40) +contextual [h]

@[simp] theorem settle_kept {z s : State} (h : Kept z s) (x : Settlement) (outcome : Nat) (result : Nat) : Kept z
    (settle x outcome result s) := by
  simp (maxDischargeDepth := 40) +contextual [settle, h]

@[simp] theorem statusAnswer_kept {z s : State} (h : Kept z s) (x : Settlement) (f : Frame) : Kept z (statusAnswer
    x f s) := by
  simp (maxDischargeDepth := 40) +contextual [statusAnswer, h]

@[simp] theorem releaseSettle_kept {z s : State} (h : Kept z s) : Kept z (releaseSettle s) := by
  unfold releaseSettle
  (repeat' split) <;> simp (maxDischargeDepth := 40) +contextual [h]

@[simp] theorem windowAccess_kept {z s : State} (h : Kept z s) (hpa : Nat) (write : Bool) (ty : BitVec 6) (build :
    Nat → Nat × Byte × List Slot) : Kept z (windowAccess hpa write ty build s) := by
  unfold windowAccess
  (repeat' split) <;> simp (maxDischargeDepth := 40) +contextual [h]

/-! ### Porter -/

@[simp] theorem cfgBad_kept {z s : State} (h : Kept z s) (q : Nat) : Kept z (cfgBad q s) := by
  simp (maxDischargeDepth := 40) +contextual [cfgBad, h]

@[simp] theorem writeQcfg_kept {z s : State} (h : Kept z s) (q : Nat) (v : Word) : Kept z (writeQcfg q v s) := by
  simp (maxDischargeDepth := 40) +contextual [writeQcfg, h]

@[simp] theorem writeQreg_kept {z s : State} (h : Kept z s) (q : Nat) (o : Nat) (v : Word) : Kept z (writeQreg q o
    v s) := by
  simp (maxDischargeDepth := 40) +contextual [writeQreg, h]

@[simp] theorem ctlBad_kept {z s : State} (h : Kept z s) (q : Nat) : Kept z (ctlBad q s) := by
  simp (maxDischargeDepth := 40) +contextual [ctlBad, h]

@[simp] theorem writeQctl_kept {z s : State} (h : Kept z s) (q : Fin 512) (v : Word) : Kept z (writeQctl q v s)
    := by
  unfold writeQctl
  (repeat' split) <;> simp (maxDischargeDepth := 40) +contextual [h]

@[simp] theorem bar2Write_kept {z s : State} (h : Kept z s) (f : State → State) (hf : ∀ t, Kept z t → Kept z (f
    t)) : Kept z (bar2Write s f) := by
  simp (maxDischargeDepth := 40) +contextual [bar2Write, h, hf]

@[simp] theorem acceptDoorbell_kept {z s : State} (h : Kept z s) (q : Nat) (new : BitVec 32) : Kept z
    (acceptDoorbell q new s) := by
  simp (maxDischargeDepth := 40) +contextual [acceptDoorbell, h]

@[simp] theorem refuseDoorbell_kept {z s : State} (h : Kept z s) (q : Nat) : Kept z (refuseDoorbell q s) := by
  simp (maxDischargeDepth := 40) +contextual [refuseDoorbell, h]

@[simp] theorem writeDoorbell_kept {z s : State} (h : Kept z s) (q : Nat) (full : Bool) (val : Word) : Kept z
    (writeDoorbell q full val s) := by
  simp (maxDischargeDepth := 40) +contextual [writeDoorbell, h]

@[simp] theorem writeCmplHead_kept {z s : State} (h : Kept z s) (q : Nat) (full : Bool) (val : Word) : Kept z
    (writeCmplHead q full val s) := by
  simp (maxDischargeDepth := 40) +contextual [writeCmplHead, h]

@[simp] theorem fetchDescs_kept {z s : State} (h : Kept z s) (q : Nat) (host : List Descriptor) : Kept z
    (fetchDescs q host s) := by
  simp (maxDischargeDepth := 40) +contextual [fetchDescs, h]

@[simp] theorem markStarted_kept {z s : State} (h : Kept z s) (q : Nat) (d : DescEx) : Kept z (markStarted q d s)
    := by
  simp (maxDischargeDepth := 40) +contextual [markStarted, h]

@[simp] theorem startDone_kept {z s : State} (h : Kept z s) (q : Nat) (d : DescEx) (st : Byte) : Kept z (startDone
    q d st s) := by
  simp (maxDischargeDepth := 40) +contextual [startDone, h]

@[simp] theorem startCommand_kept {z s : State} (h : Kept z s) (q : Fin 512) (op : Nat) (f : DescEx → State →
    State) (hf : ∀ x0 t, Kept z t → Kept z (f x0 t)) : Kept z (startCommand q op f s) := by
  unfold startCommand
  (repeat' split) <;> simp (maxDischargeDepth := 40) +contextual [h, hf]

@[simp] theorem prefetchPage_kept {z s : State} (h : Kept z s) (p : Byte) (page : Nat) : Kept z (prefetchPage p
    page s) := by
  unfold prefetchPage
  (repeat' split) <;> simp (maxDischargeDepth := 40) +contextual [h]

@[simp] theorem useLeaf_kept {z s : State} (h : Kept z s) (t : Target) : Kept z (useLeaf t s) := by
  unfold useLeaf
  (repeat' split) <;> simp (maxDischargeDepth := 40) +contextual [h]

@[simp] theorem sendDesc_kept {z s : State} (h : Kept z s) (q : Fin 512) (d : DescEx) (kind : ReqKind) (f : Frame)
    (t : Target) (n : Nat) (note : DescEx → DescEx) : Kept z (sendDesc q d kind f t n note s) := by
  simp (maxDischargeDepth := 40) +contextual [sendDesc, h]

@[simp] theorem placeFails_kept {z s : State} (h : Kept z s) (q : Nat) (d : DescEx) : Kept z (placeFails q d s)
    := by
  simp (maxDischargeDepth := 40) +contextual [placeFails, h]

@[simp] theorem issueRead_kept {z s : State} (h : Kept z s) (q : Fin 512) (d : DescEx) (a : Nat) (n : Nat) (list :
    Bool) : Kept z (issueRead q d a n list s) := by
  unfold issueRead
  (repeat' split) <;> simp (maxDischargeDepth := 40) +contextual [h]

@[simp] theorem issueWrite_kept {z s : State} (h : Kept z s) (q : Fin 512) (d : DescEx) (a : Nat) (bs : List Byte)
    (flagged : Bool) : Kept z (issueWrite q d a bs flagged s) := by
  unfold issueWrite
  (repeat' split) <;> simp (maxDischargeDepth := 40) +contextual [h]

@[simp] theorem issueAdd_kept {z s : State} (h : Kept z s) (q : Fin 512) (d : DescEx) (a : Nat) (v : Nat) : Kept z
    (issueAdd q d a v s) := by
  unfold issueAdd
  (repeat' split) <;> simp (maxDischargeDepth := 40) +contextual [h]

@[simp] theorem copyPiece_kept {z s : State} (h : Kept z s) (q : Fin 512) (d : DescEx) (src : Nat) (dst : Nat)
    (left : Nat) : Kept z (copyPiece q d src dst left s) := by
  simp (maxDischargeDepth := 40) +contextual [copyPiece, h]

@[simp] theorem movePiece_kept {z s : State} (h : Kept z s) (q : Fin 512) (d : DescEx) : Kept z (movePiece q d s)
    := by
  simp (maxDischargeDepth := 40) +contextual [movePiece, h]

@[simp] theorem queueIssue_kept {z s : State} (h : Kept z s) (q : Fin 512) : Kept z (queueIssue q s) := by
  unfold queueIssue
  (repeat' split) <;> simp (maxDischargeDepth := 40) +contextual [h]

@[simp] theorem countPorterTurn_kept {z s : State} (h : Kept z s) (q : Fin 512) : Kept z (countPorterTurn q s)
    := by
  simp (maxDischargeDepth := 40) +contextual [countPorterTurn, h]

@[simp] theorem requestIssue_kept {z s : State} (h : Kept z s) (who : Requester) : Kept z (requestIssue who s)
    := by
  unfold requestIssue
  (repeat' split) <;> simp (maxDischargeDepth := 40) +contextual [h]

/-! ### Routes -/

@[simp] theorem quietWalk_kept {z s : State} (h : Kept z s) (p : Byte) (a : Nat) (k : Access) : Kept z (quietWalk
    p a k s) := by
  unfold quietWalk
  (repeat' split) <;> simp (maxDischargeDepth := 40) +contextual [h]

@[simp] theorem queueFa_kept {z s : State} (h : Kept z s) (q : Fin 512) (index : BitVec 32) (a : Nat) (k : Access)
    : Kept z (queueFa q index a k s).2 := by
  simp only [queueFa]
  (repeat' split) <;> simp (maxDischargeDepth := 40) +contextual [h]

@[simp] theorem routeRun_kept {z s : State} (h : Kept z s) (q : Fin 512) (d : DescEx) : Kept z (routeRun q d s)
    := by
  simp only [routeRun]
  (repeat' split) <;> simp (maxDischargeDepth := 40) +contextual [h]

@[simp] theorem walkNamed_kept {z s : State} (h : Kept z s) (p : Byte) (a : Nat) : Kept z (walkNamed p a s) := by
  simp (maxDischargeDepth := 40) +contextual [walkNamed, h]

@[simp] theorem preloadTarget_kept {z s : State} (h : Kept z s) (q : Fin 512) (a : Nat) : Kept z (preloadTarget q
    a s) := by
  unfold preloadTarget
  (repeat' split) <;> simp (maxDischargeDepth := 40) +contextual [h]

@[simp] theorem routePreload_kept {z s : State} (h : Kept z s) (q : Fin 512) (d : DescEx) : Kept z (routePreload q
    d s) := by
  simp (maxDischargeDepth := 40) +contextual [routePreload, h]

@[simp] theorem runPlace_kept {z s : State} (h : Kept z s) (r : RunRec) (a : Nat) (k : Access) : Kept z (runPlace
    r a k s).2 := by
  unfold runPlace
  have hq := queueFa_kept h r.queue r.index a k
  split <;> simp_all

@[simp] theorem roomsFilled_kept {z s : State} (h : Kept z s) (r : RunRec) (st : Byte) (bs : List Byte) : Kept z
    (roomsFilled r st bs s) := by
  simp (maxDischargeDepth := 40) +contextual [roomsFilled, h]

@[simp] theorem roomLoadDone_kept {z s : State} (h : Kept z s) (q : Fin 512) : Kept z (roomLoadDone q s) := by
  unfold roomLoadDone
  split
  · exact h
  · rename_i r _
    have hq := runPlace_kept h r r.roomSrc .c
    split
    · simp [h]
    · split <;> rename_i he <;> rw [he] at hq
      · exact hq
      · simp [show Kept z _ from hq]
      · simp (maxDischargeDepth := 40) +contextual [show Kept z _ from hq]

@[simp] theorem endRun_kept {z s : State} (h : Kept z s) (r : RunRec) (st : Byte) (result : Nat) : Kept z (endRun
    r st result s) := by
  simp (maxDischargeDepth := 40) +contextual [endRun, h]

@[simp] theorem roomsSaved_kept {z s : State} (h : Kept z s) (r : RunRec) : Kept z (roomsSaved r s) := by
  unfold roomsSaved
  try dsimp only
  (repeat' split) <;> first
    | (simp (maxDischargeDepth := 40) +contextual [h]; done)
    | (have ht := Kept.of_snd (runPlace_kept h ..) (by assumption); first
      | exact ht
      | simp (maxDischargeDepth := 40) +contextual [h, ht])

@[simp] theorem clearArray_kept {z s : State} (h : Kept z s) : Kept z (clearArray s) := by
  simp (maxDischargeDepth := 40) +contextual [clearArray, h]

@[simp] theorem ropeStart_kept {z s : State} (h : Kept z s) (x : Ready) (r : Option RunRec) : Kept z (ropeStart x
    r s) := by
  simp only [ropeStart]
  (repeat' split) <;> simp (maxDischargeDepth := 40) +contextual [h]

@[simp] theorem startRun_kept {z s : State} (h : Kept z s) (x : Ready) (swap : Bool) : Kept z (startRun x swap s)
    := by
  simp only [startRun]
  (repeat' split) <;> simp (maxDischargeDepth := 40) +contextual [h]

@[simp] theorem ropeMem_kept {z s : State} (h : Kept z s) (bs : List Byte) : Kept z (ropeMem bs s) := by
  exact ⟨h.pending, h.clock, fun w => by
    have v := h.wf w
    rw [memWf_iff] at v ⊢
    exact ⟨writeCells_wf _ _ _ rfl, v.2⟩, h.retired⟩

@[simp] theorem ropeRunStart_kept {z s : State} (h : Kept z s) : Kept z (ropeRunStart s) := by
  simp only [ropeRunStart]
  (repeat' split) <;> simp (maxDischargeDepth := 40) +contextual [h]

@[simp] theorem runStart_kept {z s : State} (h : Kept z s) : Kept z (runStart s) := by
  unfold runStart
  (repeat' split) <;> simp (maxDischargeDepth := 40) +contextual [h]

@[simp] theorem loadPlace_kept {z s : State} (h : Kept z s) (t : LoadTarget) : Kept z (loadPlace t s).2 := by
  unfold loadPlace
  try dsimp only
  (repeat' split) <;> first
    | (simp (maxDischargeDepth := 40) +contextual [h]; done)
    | (have ht := Kept.of_snd (queueFa_kept h ..) (by assumption); first
      | exact ht
      | simp (maxDischargeDepth := 40) +contextual [h, ht])

@[simp] theorem noteHeader_kept {z s : State} (h : Kept z s) (t : LoadTarget) (fa : Nat) (crc : Nat) : Kept z
    (noteHeader t fa crc s) := by
  unfold noteHeader
  (repeat' split) <;> simp (maxDischargeDepth := 40) +contextual [h]

@[simp] theorem loadFails_kept {z s : State} (h : Kept z s) : Kept z (loadFails s) := by
  simp (maxDischargeDepth := 40) +contextual [loadFails, h]

@[simp] theorem beginLoad_kept {z s : State} (h : Kept z s) (t : LoadTarget) (fa : Nat) (crc : Nat) : Kept z
    (beginLoad t fa crc s) := by
  simp (maxDischargeDepth := 40) +contextual [beginLoad, h]

@[simp] theorem readHeader_kept {z s : State} (h : Kept z s) (t : LoadTarget) : Kept z (readHeader t s) := by
  unfold readHeader
  try dsimp only
  (repeat' split) <;> first
    | (simp (maxDischargeDepth := 40) +contextual [h]; done)
    | (have ht := Kept.of_snd (loadPlace_kept h ..) (by assumption); first
      | exact ht
      | simp (maxDischargeDepth := 40) +contextual [h, ht])

@[simp] theorem columnIn_kept {z s : State} (h : Kept z s) (r : RunRec) (cell : Nat) : Kept z (columnIn r cell s)
    := by
  unfold columnIn
  try dsimp only
  (repeat' split) <;> first
    | (simp (maxDischargeDepth := 40) +contextual [h]; done)
    | (have ht := Kept.of_snd (runPlace_kept h ..) (by assumption); first
      | exact ht
      | simp (maxDischargeDepth := 40) +contextual [h, ht])

@[simp] theorem columnOut_kept {z s : State} (h : Kept z s) (r : RunRec) (cell : Nat) : Kept z (columnOut r cell
    s) := by
  unfold columnOut
  try dsimp only
  (repeat' split) <;> first
    | (simp (maxDischargeDepth := 40) +contextual [h]; done)
    | (have ht := Kept.of_snd (runPlace_kept h ..) (by assumption); first
      | exact ht
      | simp (maxDischargeDepth := 40) +contextual [h, ht])

@[simp] theorem ropeColumnOut_kept {z s : State} (h : Kept z s) (cell : Nat) : Kept z (ropeColumnOut cell s) := by
  unfold ropeColumnOut
  (repeat' split) <;> simp (maxDischargeDepth := 40) +contextual [h]

@[simp] theorem columnBusTransfer_kept {z s : State} (h : Kept z s) (cell : Nat) (inward : Bool) : Kept z
    (columnBusTransfer cell inward s) := by
  unfold columnBusTransfer
  (repeat' split) <;> simp (maxDischargeDepth := 40) +contextual [h]

@[simp] theorem arrayFree_kept {z s : State} (h : Kept z s) : Kept z (arrayFree s) := by
  simp (maxDischargeDepth := 40) +contextual [arrayFree, h]

@[simp] theorem endBatch_kept {z s : State} (h : Kept z s) : Kept z (endBatch s) := by
  unfold endBatch
  (repeat' split) <;> simp (maxDischargeDepth := 40) +contextual [h]

@[simp] theorem afterRun_kept {z s : State} (h : Kept z s) : Kept z (afterRun s) := by
  simp (maxDischargeDepth := 40) +contextual [afterRun, h]

end Sys2Proof.Machine
end

