-- ==== Sys2Proof/Laws/KeptCaravan.lean ====
section
/-! SUPPORT. What every command keeps (Laws/Kept.lean), carried through the caravan: one lemma for each operation. -/
set_option maxRecDepth 4000
namespace Sys2Proof.Machine

/-! ### Caravan -/

@[simp] theorem putColl_kept {z s : State} (h : Kept z s) (c : Coll) : Kept z (putColl c s) := by
  simp (maxDischargeDepth := 40) +contextual [putColl, h]

@[simp] theorem putChunk_kept {z s : State} (h : Kept z s) (c : Coll) (k : CollChunk) : Kept z (putChunk c k s)
    := by
  unfold putChunk
  (repeat' split) <;> simp (maxDischargeDepth := 40) +contextual [h]

@[simp] theorem stage_kept {z s : State} (h : Kept z s) (c : Coll) (k : CollChunk) (i : Nat) (off : Nat) (bs :
    List Byte) : Kept z (stage c k i off bs s) := by
  simp (maxDischargeDepth := 40) +contextual [stage, h]

@[simp] theorem sendColl_kept {z s : State} (h : Kept z s) (f : Frame) : Kept z (sendColl f s) := by
  unfold sendColl
  (repeat' split) <;> simp (maxDischargeDepth := 40) +contextual [h]

@[simp] theorem fanOut_kept {z s : State} (h : Kept z s) (c : Coll) (f : Frame) (j : Nat) : Kept z (fanOut c f j
    s) := by
  simp (maxDischargeDepth := 40) +contextual [fanOut, h]

@[simp] theorem fanOnward_kept {z s : State} (h : Kept z s) (c : Coll) (f : Frame) : Kept z (fanOnward c f s)
    := by
  simp (maxDischargeDepth := 40) +contextual [fanOnward, h]

@[simp] theorem sealAnswer_kept {z s : State} (h : Kept z s) (f : Frame) (status : Byte) : Kept z (sealAnswer f
    status s) := by
  simp (maxDischargeDepth := 40) +contextual [sealAnswer, h]

@[simp] theorem endMember_kept {z s : State} (h : Kept z s) (m : CollMember) (st : Byte) : Kept z (endMember m st
    s) := by
  simp (maxDischargeDepth := 40) +contextual [endMember, h]

@[simp] theorem endColl_kept {z s : State} (h : Kept z s) (c : Coll) (st : Byte) : Kept z (endColl c st s) := by
  simp (maxDischargeDepth := 40) +contextual [endColl, h]

@[simp] theorem groupVoid_kept {z s : State} (h : Kept z s) (c : Coll) (reason : Byte) : Kept z (groupVoid c
    reason s) := by
  simp (maxDischargeDepth := 40) +contextual [groupVoid, h]

@[simp] theorem failColl_kept {z s : State} (h : Kept z s) (c : Coll) (st : Byte) : Kept z (failColl c st s) := by
  unfold failColl
  (repeat' split) <;> simp (maxDischargeDepth := 40) +contextual [h]

@[simp] theorem collUnreachable_kept {z s : State} (h : Kept z s) (f : Frame) : Kept z (collUnreachable f s) := by
  unfold collUnreachable
  (repeat' split) <;> simp (maxDischargeDepth := 40) +contextual [h]

@[simp] theorem endMemberAlone_kept {z s : State} (h : Kept z s) (c : Coll) (li : Nat) (st : Byte) : Kept z
    (endMemberAlone c li st s) := by
  unfold endMemberAlone
  (repeat' split) <;> simp (maxDischargeDepth := 40) +contextual [h]

@[simp] theorem completeMembers_kept {z s : State} (h : Kept z s) (c : Coll) : Kept z (completeMembers c s) := by
  unfold completeMembers
  (repeat' split) <;> simp (maxDischargeDepth := 40) +contextual [h]

@[simp] theorem dropChunk_kept {z s : State} (h : Kept z s) (c : Coll) (k : Nat) : Kept z (dropChunk c k s) := by
  unfold dropChunk
  (repeat' split) <;> simp (maxDischargeDepth := 40) +contextual [h]

@[simp] theorem collStart_kept {z s : State} (h : Kept z s) (q : Fin 512) (d : DescEx) : Kept z (collStart q d s)
    := by
  unfold collStart
  dsimp only
  repeat' (first | with_reducible apply kept_ite2 | split)
  all_goals simp (maxDischargeDepth := 40) +contextual [h]

@[simp] theorem collectiveAdmit_kept {z s : State} (h : Kept z s) : Kept z (collectiveAdmit s) := by
  unfold collectiveAdmit
  (repeat' split) <;> simp (maxDischargeDepth := 40) +contextual [h]

@[simp] theorem collArrives_kept {z s : State} (h : Kept z s) (f : Frame) (act_ : State → State) (hact_ : ∀ t,
    Kept z t → Kept z (act_ t)) : Kept z (collArrives f act_ s) := by
  simp only [collArrives]
  (repeat' split) <;> simp (maxDischargeDepth := 40) +contextual [h, hact_]

@[simp] theorem noteOffer_kept {z s : State} (h : Kept z s) (c : Coll) (k : CollChunk) (f : Frame) : Kept z
    (noteOffer c k f s) := by
  simp only [noteOffer]
  (repeat' split) <;> simp (maxDischargeDepth := 40) +contextual [h]

@[simp] theorem holdFrame_kept {z s : State} (h : Kept z s) (f : Frame) : Kept z (holdFrame f s) := by
  simp (maxDischargeDepth := 40) +contextual [holdFrame, h]

@[simp] theorem keepEarly_kept {z s : State} (h : Kept z s) (f : Frame) : Kept z (keepEarly f s) := by
  unfold keepEarly
  (repeat' split) <;> simp (maxDischargeDepth := 40) +contextual [h]

@[simp] theorem offerArrives_kept {z s : State} (h : Kept z s) (f : Frame) : Kept z (offerArrives f s) := by
  unfold offerArrives
  (repeat' split) <;> simp (maxDischargeDepth := 40) +contextual [h]

@[simp] theorem memberFa_kept {z s : State} (h : Kept z s) (c : Coll) (m : CollMember) (a : Nat) : Kept z
    (memberFa c m a s).2 := by
  simp only [memberFa]
  (repeat' split) <;> simp (maxDischargeDepth := 40) +contextual [h]

@[simp] theorem piecesFa_kept {z s : State} (h : Kept z s) (c : Coll) (m : CollMember) (u : Nat) (a : Nat) (a4 :
    List (Nat × Nat)) : Kept z (piecesFa c m u a a4 s).2 := by
  induction a4 generalizing s with
  | nil => simpa [piecesFa] using h
  | cons p t ih =>
    have hm := memberFa_kept h c m (a + u * p.1)
    unfold piecesFa
    split <;> rename_i he <;> rw [he] at hm
    · exact hm
    · rename_i fa t1
      have hp := ih (s := t1) hm
      split <;> rename_i he <;> rw [he] at hp <;> exact hp

@[simp] theorem askInput_kept {z s : State} (h : Kept z s) (c : Coll) (k : CollChunk) (st : CollStepSt) (i :
    CollIn) : Kept z (askInput c k st i s).2 := by
  unfold askInput
  dsimp only
  split <;> simp [h]

@[simp] theorem askInputs_kept {z s : State} (h : Kept z s) (c : Coll) (k : CollChunk) (st : CollStepSt) (a3 :
    List CollIn) : Kept z (askInputs c k st a3 s).2 := by
  induction a3 generalizing s with
  | nil => simpa [askInputs] using h
  | cons i t ih =>
    have hi := askInput_kept h c k st i
    unfold askInputs
    split <;> rename_i he <;> rw [he] at hi
    · exact hi
    · rename_i l t1
      have hp := ih (s := t1) hi
      split <;> rename_i he <;> rw [he] at hp <;> exact hp

@[simp] theorem dealRooms_kept {z s : State} (h : Kept z s) (need : List Nat) (rows : List (List Nat)) : Kept z
    (dealRooms need rows s).2 := by
  simp (maxDischargeDepth := 40) +contextual [dealRooms, h]

@[simp] theorem inviteInput_kept {z s : State} (h : Kept z s) (c : Coll) (k : CollChunk) (st : CollStepSt) (i :
    CollIn) (repeated : Bool) : Kept z (inviteInput c k st i repeated s) := by
  simp (maxDischargeDepth := 40) +contextual [inviteInput, h]

theorem grantRows_kept {z : State} (h k n : Nat) (s : State) (acc : List (List Nat)) (hz : Kept z s)
    (r : List (List Nat) × State) (e : grantRows h k n s acc = some r) : Kept z r.2 := by
  induction n generalizing s acc with
  | zero => simp only [grantRows, Option.some.injEq] at e; subst e; exact hz
  | succ n ih =>
    unfold grantRows at e
    split at e
    · cases e
    · exact ih _ _ (by simp [hz]) e

@[simp] theorem sendInvite_kept {z s : State} (h : Kept z s) (c : Coll) (k : CollChunk) (st : CollStepSt) : Kept z
    (sendInvite c k st s) := by
  unfold sendInvite
  dsimp only
  split
  · exact h
  · have hq := askInputs_kept h c k st st.inputs
    split <;> rename_i ha <;> rw [ha] at hq
    · split
      · simp [show Kept z _ from hq]
      · exact hq
    · split
      · exact hq
      · rename_i rows t e
        have hk : Kept z t := grantRows_kept _ _ _ _ _ hq _ e
        have hd := dealRooms_kept hk (st.inputs.map (fun i => ceilDiv (roundRange c st i).2 32768)) rows
        generalize dealRooms (st.inputs.map (fun i => ceilDiv (roundRange c st i).2 32768)) rows t = g at hd ⊢
        obtain ⟨given, u⟩ := g
        refine kept_foldl' _ _ (by simp [hd]) ?_
        intro t ht x
        simp [ht]

@[simp] theorem answerInvite_kept {z s : State} (h : Kept z s) (c : Coll) (f : Frame) (bs : List Byte) : Kept z
    (answerInvite c f bs s) := by
  simp (maxDischargeDepth := 40) +contextual [answerInvite, h]

@[simp] theorem inviteArrives_kept {z s : State} (h : Kept z s) (f : Frame) : Kept z (inviteArrives f s) := by
  unfold inviteArrives
  (repeat' split) <;> simp (maxDischargeDepth := 40) +contextual [h]

@[simp] theorem putInput_kept {z s : State} (h : Kept z s) (c : Coll) (k : CollChunk) (st : CollStepSt) (i :
    CollIn) : Kept z (putInput c k st i s) := by
  simp (maxDischargeDepth := 40) +contextual [putInput, h]

@[simp] theorem repeatInvite_kept {z s : State} (h : Kept z s) (c : Coll) (k : CollChunk) (st : CollStepSt) (i :
    CollIn) (fail : Byte) : Kept z (repeatInvite c k st i fail s) := by
  simp (maxDischargeDepth := 40) +contextual [repeatInvite, h]

@[simp] theorem verifyInput_kept {z s : State} (h : Kept z s) (c : Coll) (k : CollChunk) (st : CollStepSt) (i :
    CollIn) : Kept z (verifyInput c k st i s) := by
  unfold verifyInput
  (repeat' split) <;> simp (maxDischargeDepth := 40) +contextual [h]

@[simp] theorem dataArrives_kept {z s : State} (h : Kept z s) (f : Frame) : Kept z (dataArrives f s) := by
  simp only [dataArrives]
  (repeat' split) <;> simp (maxDischargeDepth := 40) +contextual [h]

@[simp] theorem payPieces_kept {z s : State} (h : Kept z s) (c : Coll) (k : CollChunk) (m : CollMember) (a3 : List
    (Nat × Nat)) : Kept z (payPieces c k m a3 s).2 := by
  induction a3 generalizing s with
  | nil => simpa [payPieces] using h
  | cons p t ih =>
    have hm := memberFa_kept h c m (recvAt c m k.number s + p.1)
    unfold payPieces
    split <;> rename_i he <;> rw [he] at hm
    · exact ih (by simp [show Kept z _ from hm])
    · exact hm

@[simp] theorem payMember_kept {z s : State} (h : Kept z s) (c : Coll) (n : Nat) (m : CollMember) : Kept z
    (payMember c n m s) := by
  unfold payMember
  split <;> simp [h]

@[simp] theorem deliverTo_kept {z s : State} (h : Kept z s) (c : Coll) (n : Nat) (m : CollMember) : Kept z
    (deliverTo c n m s) := by
  unfold deliverTo
  (repeat' split) <;> simp (maxDischargeDepth := 40) +contextual [h]

@[simp] theorem spreadTo_kept {z s : State} (h : Kept z s) (c : Coll) (k : CollChunk) (anchor : Bool) (t : Eid ×
    Nat × Nat × Nat) : Kept z (spreadTo c k anchor t s) := by
  simp (maxDischargeDepth := 40) +contextual [spreadTo, h]

@[simp] theorem resultExists_kept {z s : State} (h : Kept z s) (c : Coll) (k : CollChunk) : Kept z (resultExists c
    k s) := by
  simp (maxDischargeDepth := 40) +contextual [resultExists, h]

@[simp] theorem anchorsExist_kept {z s : State} (h : Kept z s) (c : Coll) (k : CollChunk) : Kept z (anchorsExist c
    k s) := by
  simp (maxDischargeDepth := 40) +contextual [anchorsExist, h]

@[simp] theorem stepDone_kept {z s : State} (h : Kept z s) (c : Coll) (k : CollChunk) (st : CollStepSt) (out :
    List Byte) : Kept z (stepDone c k st out s) := by
  simp (maxDischargeDepth := 40) +contextual [stepDone, h]

@[simp] theorem stepStaged_kept {z s : State} (h : Kept z s) (c : Coll) (k : CollChunk) (st : CollStepSt) (out :
    List Byte) : Kept z (stepStaged c k st out s) := by
  simp (maxDischargeDepth := 40) +contextual [stepStaged, h]

@[simp] theorem stepRunEnds_kept {z s : State} (h : Kept z s) (g : Nat) (epoch : Nat) (chunk : Nat) (stage : Nat)
    (anchor : Bool) : Kept z (stepRunEnds g epoch chunk stage anchor s) := by
  unfold stepRunEnds
  (repeat' split) <;> simp (maxDischargeDepth := 40) +contextual [h]

@[simp] theorem runEnd_kept {z s : State} (h : Kept z s) : Kept z (runEnd s) := by
  unfold runEnd
  (repeat' split) <;> simp (maxDischargeDepth := 40) +contextual [h]

@[simp] theorem spreadArrives_kept {z s : State} (h : Kept z s) (c : Coll) (k : CollChunk) (f : Frame) : Kept z
    (spreadArrives c k f s) := by
  simp (maxDischargeDepth := 40) +contextual [spreadArrives, h]

@[simp] theorem putLanded_kept {z s : State} (h : Kept z s) (f : Frame) (l : Landed) : Kept z (putLanded f l s)
    := by
  simp (maxDischargeDepth := 40) +contextual [putLanded, h]

@[simp] theorem takeLanded_kept {z s : State} (h : Kept z s) (f : Frame) : Kept z (takeLanded f s).2 := by
  unfold takeLanded
  (repeat' split) <;> simp (maxDischargeDepth := 40) +contextual [h]

@[simp] theorem memberLands_kept {z s : State} (h : Kept z s) (f : Frame) : Kept z (memberLands f s) := by
  unfold memberLands
  try dsimp only
  (repeat' split) <;> first
    | (simp (maxDischargeDepth := 40) +contextual [h]; done)
    | (have ht := Kept.of_snd (takeLanded_kept h ..) (by assumption); first
      | exact ht
      | simp (maxDischargeDepth := 40) +contextual [h, ht])

@[simp] theorem collResult_kept {z s : State} (h : Kept z s) (f : Frame) : Kept z (collResult f s) := by
  unfold collResult
  (repeat' split) <;> simp (maxDischargeDepth := 40) +contextual [h]

@[simp] theorem sendMemberSeal_kept {z s : State} (h : Kept z s) (c : Coll) (n : Nat) (m : CollMember) (w :
    SealWait) : Kept z (sendMemberSeal c n m w s) := by
  unfold sendMemberSeal
  try dsimp only
  (repeat' split) <;> first
    | (simp (maxDischargeDepth := 40) +contextual [h]; done)
    | (have ht := Kept.of_snd (memberFa_kept h ..) (by assumption); first
      | exact ht
      | simp (maxDischargeDepth := 40) +contextual [h, ht])

@[simp] theorem pumpMember_kept {z s : State} (h : Kept z s) (c : Coll) (m : CollMember) : Kept z (pumpMember c m
    s) := by
  simp only [pumpMember]
  (repeat' split) <;> simp (maxDischargeDepth := 40) +contextual [h]

@[simp] theorem pumpSeals_kept {z s : State} (h : Kept z s) (c : Coll) : Kept z (pumpSeals c s) := by
  unfold pumpSeals
  (repeat' split) <;> simp (maxDischargeDepth := 40) +contextual [h]

@[simp] theorem settleChunk_kept {z s : State} (h : Kept z s) (c : Coll) (n : Nat) : Kept z (settleChunk c n s)
    := by
  unfold settleChunk
  (repeat' split) <;> simp (maxDischargeDepth := 40) +contextual [h]

@[simp] theorem sendSeals_kept {z s : State} (h : Kept z s) (c : Coll) (k : CollChunk) : Kept z (sendSeals c k s)
    := by
  simp (maxDischargeDepth := 40) +contextual [sendSeals, h]

@[simp] theorem pumpGroup_kept {z s : State} (h : Kept z s) (g : Nat) : Kept z (pumpGroup g s) := by
  unfold pumpGroup
  refine kept_foldl' _ _ h ?_
  intro t ht c
  refine kept_ite ht (pumpSeals_kept ?_ c)
  refine kept_foldl' _ _ ht ?_
  intro u hu k
  repeat' (first | with_reducible apply kept_ite2 | split)
  all_goals simp [hu]

@[simp] theorem sealChunk_kept {z s : State} (h : Kept z s) (c : Coll) (k : CollChunk) : Kept z (sealChunk c k s)
    := by
  simp (maxDischargeDepth := 40) +contextual [sealChunk, h]

@[simp] theorem redoStep_kept {z s : State} (h : Kept z s) (k : CollChunk) : Kept z (redoStep k s).2 := by
  unfold redoStep
  (repeat' split) <;> simp (maxDischargeDepth := 40) +contextual [h]

@[simp] theorem voidAttempt_kept {z s : State} (h : Kept z s) (c : Coll) (k : CollChunk) : Kept z (voidAttempt c k
    s) := by
  simp (maxDischargeDepth := 40) +contextual [voidAttempt, h]

@[simp] theorem stepFailed_kept {z s : State} (h : Kept z s) (c : Coll) (k : CollChunk) : Kept z (stepFailed c k
    s) := by
  simp (maxDischargeDepth := 40) +contextual [stepFailed, h]

@[simp] theorem stepResult_kept {z s : State} (h : Kept z s) (c : Coll) (k : CollChunk) (x : CollStepSt) : Kept z
    (stepResult c k x s) := by
  unfold stepResult
  (repeat' split) <;> simp (maxDischargeDepth := 40) +contextual [h]

@[simp] theorem readbackDone_kept {z s : State} (h : Kept z s) (c : Coll) (k : CollChunk) (clean : Bool) : Kept z
    (readbackDone c k clean s) := by
  simp (maxDischargeDepth := 40) +contextual [readbackDone, h]

@[simp] theorem refuseSeal_kept {z s : State} (h : Kept z s) (c : Coll) (k : CollChunk) (f : Frame) : Kept z
    (refuseSeal c k f s) := by
  simp (maxDischargeDepth := 40) +contextual [refuseSeal, h]

@[simp] theorem partSealArrives_kept {z s : State} (h : Kept z s) (c : Coll) (k : CollChunk) (f : Frame) : Kept z
    (partSealArrives c k f s) := by
  unfold partSealArrives
  (repeat' split) <;> simp (maxDischargeDepth := 40) +contextual [h]

@[simp] theorem sealArrives_kept {z s : State} (h : Kept z s) (f : Frame) : Kept z (sealArrives f s) := by
  unfold sealArrives
  try dsimp only
  (repeat' split) <;> first
    | (simp (maxDischargeDepth := 40) +contextual [h]; done)
    | (have ht := Kept.of_snd (takeLanded_kept h ..) (by assumption); first
      | exact ht
      | simp (maxDischargeDepth := 40) +contextual [h, ht])

@[simp] theorem answerSeal_kept {z s : State} (h : Kept z s) (l : Landed) (f : Frame) : Kept z (answerSeal l f s)
    := by
  simp (maxDischargeDepth := 40) +contextual [answerSeal, h]

@[simp] theorem resendTo_kept {z s : State} (h : Kept z s) (c : Coll) (k : CollChunk) (w : SealWait) (data : Bool)
    : Kept z (resendTo c k w data s) := by
  simp only [resendTo]
  (repeat' split) <;> simp (maxDischargeDepth := 40) +contextual [h]

@[simp] theorem sealFailed_kept {z s : State} (h : Kept z s) (c : Coll) (k : CollChunk) (w : SealWait) (silent :
    Bool) : Kept z (sealFailed c k w silent s) := by
  simp (maxDischargeDepth := 40) +contextual [sealFailed, h]

@[simp] theorem memberSignalled_kept {z s : State} (h : Kept z s) (c : Coll) (li : Nat) (n : Nat) : Kept z
    (memberSignalled c li n s) := by
  unfold memberSignalled
  (repeat' split) <;> simp (maxDischargeDepth := 40) +contextual [h]

@[simp] theorem sealAnswered_kept {z s : State} (h : Kept z s) (c : Coll) (k : CollChunk) (w : SealWait) (st :
    Byte) : Kept z (sealAnswered c k w st s) := by
  simp (maxDischargeDepth := 40) +contextual [sealAnswered, h]

@[simp] theorem voidChunk_kept {z s : State} (h : Kept z s) (c : Coll) (k : CollChunk) (f : Frame) : Kept z
    (voidChunk c k f s) := by
  unfold voidChunk
  (repeat' split) <;> simp (maxDischargeDepth := 40) +contextual [h]

@[simp] theorem voidLanded_kept {z s : State} (h : Kept z s) (f : Frame) : Kept z (voidLanded f s) := by
  unfold voidLanded
  try dsimp only
  (repeat' split) <;> first
    | (simp (maxDischargeDepth := 40) +contextual [h]; done)
    | (have ht := Kept.of_snd (takeLanded_kept h ..) (by assumption); first
      | exact ht
      | simp (maxDischargeDepth := 40) +contextual [h, ht])

@[simp] theorem sealsFirst_kept {z s : State} (h : Kept z s) (f : Frame) : Kept z (sealsFirst f s) := by
  simp (maxDischargeDepth := 40) +contextual [sealsFirst, h]

@[simp] theorem voidArrives_kept {z s : State} (h : Kept z s) (f : Frame) : Kept z (voidArrives f s) := by
  simp only [voidArrives]
  (repeat' split) <;> simp (maxDischargeDepth := 40) +contextual [h]

@[simp] theorem takeHeld_kept {z s : State} (h : Kept z s) (f : Frame) : Kept z (takeHeld f s) := by
  simp (maxDischargeDepth := 40) +contextual [takeHeld, h]

@[simp] theorem drainHeld_kept {z s : State} (h : Kept z s) (a0 : Nat) : Kept z (drainHeld a0 s) := by
  induction a0 generalizing s with
  | zero => simpa [drainHeld] using h
  | succ n ih =>
    unfold drainHeld
    split
    · exact h
    · exact ih (by simp [h])

@[simp] theorem withHeld_kept {z s : State} (h : Kept z s) (f : State → State) (hf : ∀ t, Kept z t → Kept z (f t))
    : Kept z (withHeld f s) := by
  simp (maxDischargeDepth := 40) +contextual [withHeld, h, hf]

@[simp] theorem collectiveStart_kept {z s : State} (h : Kept z s) (g : Nat) : Kept z (collectiveStart g s) := by
  simp only [collectiveStart]
  (repeat' split) <;> simp (maxDischargeDepth := 40) +contextual [h]

@[simp] theorem resumeMember_kept {z s : State} (h : Kept z s) (c : Coll) (m : CollMember) : Kept z (resumeMember
    c m s) := by
  unfold resumeMember
  dsimp only
  apply pumpMember_kept
  refine kept_foldl' _ _ (by simp +contextual [h]) ?_
  intro t ht x
  split <;> simp [ht]

@[simp] theorem caravanIssue_kept {z s : State} (h : Kept z s) (q : Fin 512) : Kept z (caravanIssue q s) := by
  simp (maxDischargeDepth := 40) +contextual [caravanIssue, h]

@[simp] theorem storeAckArrives_kept {z s : State} (h : Kept z s) (f : Frame) : Kept z (storeAckArrives f s) := by
  unfold storeAckArrives
  (repeat' split) <;> simp (maxDischargeDepth := 40) +contextual [h]

@[simp] theorem writeGroup_kept {z s : State} (h : Kept z s) (g : Nat) (word : Nat) (v : Word) : Kept z
    (writeGroup g word v s) := by
  simp (maxDischargeDepth := 40) +contextual [writeGroup, h]

@[simp] theorem writeQuota_kept {z s : State} (h : Kept z s) (n : Nat) (v : Word) : Kept z (writeQuota n v s)
    := by
  simp (maxDischargeDepth := 40) +contextual [writeQuota, h]

@[simp] theorem fenceColls_kept {z s : State} (h : Kept z s) (p : Byte) (st : Byte) : Kept z (fenceColls p st s)
    := by
  simp (maxDischargeDepth := 40) +contextual [fenceColls, h]

@[simp] theorem settleOos_kept {z s : State} (h : Kept z s) (f : State → State) (hf : ∀ t, Kept z t → Kept z (f
    t)) : Kept z (settleOos f s) := by
  simp (maxDischargeDepth := 40) +contextual [settleOos, h, hf]

end Sys2Proof.Machine
end

