-- ==== Sys2Proof/Laws/KeptFabric.lean ====
section
/-! SUPPORT. What every command keeps (Laws/Kept.lean), carried through the switch core, links, time, counters, rope
pairs and withdrawals: one lemma for each operation. -/
set_option maxRecDepth 4000
namespace Sys2Proof.Machine

/-! ### Switch -/

@[simp] theorem meterFrame_kept {z s : State} (h : Kept z s) (input : Nat) (f : Frame) : Kept z (meterFrame input
    f s).2 := by
  simp only [meterFrame]
  (repeat' split) <;> simp (maxDischargeDepth := 40) +contextual [h]

@[simp] theorem takeCells_kept {z s : State} (h : Kept z s) (l : List Nat) (refs : Nat) : Kept z (takeCells l refs
    s) := by
  simp (maxDischargeDepth := 40) +contextual [takeCells, h]

@[simp] theorem lendOne_kept {z s : State} (h : Kept z s) (n : Nat) (key : Nat) : Kept z (lendOne n key s) := by
  simp (maxDischargeDepth := 40) +contextual [lendOne, h]

@[simp] theorem lendAll_kept {z s : State} (h : Kept z s) (n : Nat) : Kept z (lendAll n s) := by
  simp (maxDischargeDepth := 40) +contextual [lendAll, h]

@[simp] theorem returnCredits_kept {z s : State} (h : Kept z s) (input : Nat) (c : BitVec 3) (vc : Bool) (paid :
    Bool) (n : Nat) : Kept z (returnCredits input c vc paid n s) := by
  simp (maxDischargeDepth := 40) +contextual [returnCredits, h]

@[simp] theorem dropCells_kept {z s : State} (h : Kept z s) (e : Buffered) : Kept z (dropCells e s) := by
  simp (maxDischargeDepth := 40) +contextual [dropCells, h]

@[simp] theorem removeBuffered_kept {z s : State} (h : Kept z s) (e : Buffered) : Kept z (removeBuffered e s)
    := by
  simp (maxDischargeDepth := 40) +contextual [removeBuffered, h]

@[simp] theorem coreAnswer_kept {z s : State} (h : Kept z s) (f : Frame) (status : Byte) : Kept z (coreAnswer f
    status s) := by
  simp (maxDischargeDepth := 40) +contextual [coreAnswer, h]

@[simp] theorem noRoute_kept {z s : State} (h : Kept z s) (f : Frame) (status : Byte) (unreachable : Bool) (hops :
    Bool) : Kept z (noRoute f status unreachable hops s) := by
  simp (maxDischargeDepth := 40) +contextual [noRoute, h]

@[simp] theorem noteFlying_kept {z s : State} (h : Kept z s) : Kept z (noteFlying s) := by
  simp (maxDischargeDepth := 40) +contextual [noteFlying, h]

@[simp] theorem noteWay_kept {z s : State} (h : Kept z s) (w : Nat × Bool) : Kept z (noteWay s w) := by
  simp (maxDischargeDepth := 40) +contextual [noteWay, h]

@[simp] theorem countLost_kept {z s : State} (h : Kept z s) (r : Replicas) : Kept z (countLost r s) := by
  simp (maxDischargeDepth := 40) +contextual [countLost, h]

@[simp] theorem storeCopies_kept {z s : State} (h : Kept z s) (x : Entry) (f : Frame) (copies : List Copy) : Kept
    z (storeCopies x f copies s) := by
  simp (maxDischargeDepth := 40) +contextual [storeCopies, h]

@[simp] theorem redDrops_kept {z s : State} (h : Kept z s) (f : Frame) (output : Nat) : Kept z (redDrops f output
    s).2 := by
  simp only [redDrops]
  (repeat' split) <;> simp (maxDischargeDepth := 40) +contextual [h]

@[simp] theorem discardEntry_kept {z s : State} (h : Kept z s) (x : Entry) (f : Frame) : Kept z (discardEntry x f
    s) := by
  simp (maxDischargeDepth := 40) +contextual [discardEntry, h]

@[simp] theorem admitFrame_kept {z s : State} (h : Kept z s) (x : Entry) (f : Frame) : Kept z (admitFrame x f s)
    := by
  unfold admitFrame
  (repeat' split) <;> simp (maxDischargeDepth := 40) +contextual [h]

@[simp] theorem storeHeld_kept {z s : State} (h : Kept z s) (x : Entry) (f : Frame) : Kept z (storeHeld x f s)
    := by
  simp (maxDischargeDepth := 40) +contextual [storeHeld, h]

@[simp] theorem takeCoreIn_kept {z s : State} (h : Kept z s) (x : CoreFrame) : Kept z (takeCoreIn x s) := by
  simp (maxDischargeDepth := 40) +contextual [takeCoreIn, h]

@[simp] theorem enterCore_kept {z s : State} (h : Kept z s) (x : CoreFrame) : Kept z (enterCore x s) := by
  simp (maxDischargeDepth := 40) +contextual [enterCore, h]

@[simp] theorem ingress_kept {z s : State} (h : Kept z s) (input : Nat) (f : Frame) : Kept z (ingress input f s)
    := by
  unfold ingress
  (repeat' split) <;> simp (maxDischargeDepth := 40) +contextual [h]

@[simp] theorem takeOwed_kept {z s : State} (h : Kept z s) (p : Nat) : Kept z (takeOwed p s) := by
  simp (maxDischargeDepth := 40) +contextual [takeOwed, h]

@[simp] theorem putLink_kept {z s : State} (h : Kept z s) (p : Nat) (k : Link) : Kept z (putLink p k s) := by
  simp (maxDischargeDepth := 40) +contextual [putLink, h]

@[simp] theorem sendFlit_kept {z s : State} (h : Kept z s) (p : Nat) (x : FlitSpec) : Kept z (sendFlit p x s)
    := by
  simp (maxDischargeDepth := 40) +contextual [sendFlit, h]

@[simp] theorem sendFlits_kept {z s : State} (h : Kept z s) (p : Nat) (frame : Nat × List Nat) (a2 : List (List
    Slot)) (a3 : Bool) : Kept z (sendFlits p frame a2 a3 s) := by
  induction a2 generalizing a3 s with
  | nil => simpa [sendFlits] using h
  | cons v t ih =>
    unfold sendFlits
    exact ih (by simp [h]) _

@[simp] theorem sendOwed_kept {z s : State} (h : Kept z s) (p : Nat) : Kept z (sendOwed p s) := by
  simp (maxDischargeDepth := 40) +contextual [sendOwed, h]

@[simp] theorem countTurn_kept {z s : State} (h : Kept z s) (output : Nat) (c : BitVec 3) : Kept z (countTurn
    output c s) := by
  simp (maxDischargeDepth := 40) +contextual [countTurn, h]

@[simp] theorem countDepart_kept {z s : State} (h : Kept z s) (output : Nat) (c : BitVec 3) : Kept z (countDepart
    output c s) := by
  simp (maxDischargeDepth := 40) +contextual [countDepart, h]

@[simp] theorem beginSend_kept {z s : State} (h : Kept z s) (output : Nat) (f : Frame) : Kept z (beginSend output
    f s) := by
  simp (maxDischargeDepth := 40) +contextual [beginSend, h]

@[simp] theorem deliver_kept {z s : State} (h : Kept z s) (output : Nat) (uid : Nat) (f : Frame) : Kept z (deliver
    output uid f s) := by
  simp (maxDischargeDepth := 40) +contextual [deliver, h]

@[simp] theorem profDepart_kept {z s : State} (h : Kept z s) (output : Nat) (f : Frame) : Kept z (profDepart
    output f s) := by
  simp (maxDischargeDepth := 40) +contextual [profDepart, h]

@[simp] theorem noteQuery_kept {z s : State} (h : Kept z s) (output : Nat) (e : Buffered) (f : Frame) : Kept z
    (noteQuery output e f s) := by
  simp (maxDischargeDepth := 40) +contextual [noteQuery, h]

@[simp] theorem expireOne_kept {z s : State} (h : Kept z s) (e : Buffered) : Kept z (expireOne e s) := by
  simp (maxDischargeDepth := 40) +contextual [expireOne, h]

@[simp] theorem expireHeads_kept {z s : State} (h : Kept z s) (output : Nat) : Kept z (expireHeads output s) := by
  simp (maxDischargeDepth := 40) +contextual [expireHeads, h]

@[simp] theorem depart_kept {z s : State} (h : Kept z s) (output : Nat) : Kept z (depart output s) := by
  simp only [depart]
  (repeat' split) <;> simp (maxDischargeDepth := 40) +contextual [h]

@[simp] theorem expire_kept {z s : State} (h : Kept z s) (pos : Nat) : Kept z (expire pos s) := by
  unfold expire
  (repeat' split) <;> simp (maxDischargeDepth := 40) +contextual [h]

@[simp] theorem auditCell_kept {z s : State} (h : Kept z s) (e : Nat × BufCell) : Kept z (auditCell s e) := by
  simp (maxDischargeDepth := 40) +contextual [auditCell, h]

@[simp] theorem writeCmapCtl_kept {z s : State} (h : Kept z s) (v : Word) : Kept z (writeCmapCtl v s) := by
  unfold writeCmapCtl
  (repeat' split) <;> simp (maxDischargeDepth := 40) +contextual [h]

@[simp] theorem plainWrite_kept {z s : State} (h : Kept z s) (o : Nat) (v : Word) : Kept z (plainWrite o v s)
    := by
  unfold plainWrite
  (repeat' split) <;> simp (maxDischargeDepth := 40) +contextual [h]

@[simp] theorem writeClassCfg_kept {z s : State} (h : Kept z s) (c : Nat) (v : Word) : Kept z (writeClassCfg c v
    s) := by
  simp (maxDischargeDepth := 40) +contextual [writeClassCfg, h]

@[simp] theorem refreshBuckets_kept {z s : State} (h : Kept z s) (n : Nat) : Kept z (refreshBuckets n s) := by
  simp (maxDischargeDepth := 40) +contextual [refreshBuckets, h]

@[simp] theorem writeMeter_kept {z s : State} (h : Kept z s) (n : Nat) (burst : Bool) (v : Word) : Kept z
    (writeMeter n burst v s) := by
  simp (maxDischargeDepth := 40) +contextual [writeMeter, h]

@[simp] theorem writeRed_kept {z s : State} (h : Kept z s) (k : Nat) (v : Word) : Kept z (writeRed k v s) := by
  simp (maxDischargeDepth := 40) +contextual [writeRed, h]

@[simp] theorem releaseHeld_kept {z s : State} (h : Kept z s) : Kept z (releaseHeld s) := by
  simp (maxDischargeDepth := 40) +contextual [releaseHeld, h]

@[simp] theorem noteDrained_kept {z s : State} (h : Kept z s) : Kept z (noteDrained s) := by
  simp (maxDischargeDepth := 40) +contextual [noteDrained, h]

@[simp] theorem writeEntry_kept {z s : State} (h : Kept z s) (p : Nat) (v : Word) : Kept z (writeEntry p v s)
    := by
  simp (maxDischargeDepth := 40) +contextual [writeEntry, h]

/-! ### TimeSync -/

@[simp] theorem measureFails_kept {z s : State} (h : Kept z s) : Kept z (measureFails s) := by
  simp (maxDischargeDepth := 40) +contextual [measureFails, h]

@[simp] theorem enterHoldover_kept {z s : State} (h : Kept z s) : Kept z (enterHoldover s) := by
  simp (maxDischargeDepth := 40) +contextual [enterHoldover, h]

@[simp] theorem parentLeft_kept {z s : State} (h : Kept z s) (p : Nat) : Kept z (parentLeft p s) := by
  simp (maxDischargeDepth := 40) +contextual [parentLeft, h]

@[simp] theorem beginMeasure_kept {z s : State} (h : Kept z s) : Kept z (beginMeasure s) := by
  simp (maxDischargeDepth := 40) +contextual [beginMeasure, h]

@[simp] theorem parentUp_kept {z s : State} (h : Kept z s) (p : Nat) : Kept z (parentUp p s) := by
  simp (maxDischargeDepth := 40) +contextual [parentUp, h]

@[simp] theorem stepForward_kept {z s : State} (h : Kept z s) (behind : Int) : Kept z (stepForward behind s) := by
  simp (maxDischargeDepth := 40) +contextual [stepForward, h]

@[simp] theorem correctRate_kept {z s : State} (h : Kept z s) : Kept z (correctRate s) := by
  simp (maxDischargeDepth := 40) +contextual [correctRate, h]

@[simp] theorem discipline_kept {z s : State} (h : Kept z s) (x : TimeStamps) : Kept z (discipline x s) := by
  simp (maxDischargeDepth := 40) +contextual [discipline, h]

@[simp] theorem sendTsync_kept {z s : State} (h : Kept z s) (p : Nat) (ty : Nat) (t : Word) : Kept z (sendTsync p
    ty t s) := by
  simp (maxDischargeDepth := 40) +contextual [sendTsync, h]

@[simp] theorem sendStamp_kept {z s : State} (h : Kept z s) (p : Nat) : Kept z (sendStamp p s) := by
  simp (maxDischargeDepth := 40) +contextual [sendStamp, h]

@[simp] theorem startExchange_kept {z s : State} (h : Kept z s) (forMeasure : Bool) : Kept z (startExchange
    forMeasure s) := by
  simp (maxDischargeDepth := 40) +contextual [startExchange, h]

@[simp] theorem takeExchange_kept {z s : State} (h : Kept z s) (x : TimeStamps) (rooted : Bool) : Kept z
    (takeExchange x rooted s) := by
  simp (maxDischargeDepth := 40) +contextual [takeExchange, h]

@[simp] theorem endExchange_kept {z s : State} (h : Kept z s) : Kept z (endExchange s) := by
  unfold endExchange
  (repeat' split) <;> simp (maxDischargeDepth := 40) +contextual [h]

@[simp] theorem parentStamp_kept {z s : State} (h : Kept z s) (t : Word) (rooted : Bool) : Kept z (parentStamp t
    rooted s) := by
  simp (maxDischargeDepth := 40) +contextual [parentStamp, h]

@[simp] theorem takeTsync_kept {z s : State} (h : Kept z s) (p : Nat) (ctl : Slot) : Kept z (takeTsync p ctl s)
    := by
  simp only [takeTsync]
  (repeat' split) <;> simp (maxDischargeDepth := 40) +contextual [h]

/-! ### Links -/

@[simp] theorem notePortSwap_kept {z s : State} (h : Kept z s) (p : Nat) : Kept z (notePortSwap p s) := by
  simp (maxDischargeDepth := 40) +contextual [notePortSwap, h]

@[simp] theorem setPortState_kept {z s : State} (h : Kept z s) (p : Nat) (x : PortState) : Kept z (setPortState p
    x s) := by
  simp (maxDischargeDepth := 40) +contextual [setPortState, h]

@[simp] theorem setStage_kept {z s : State} (h : Kept z s) (p : Nat) (x : PortState) : Kept z (setStage p x s)
    := by
  simp (maxDischargeDepth := 40) +contextual [setStage, h]

@[simp] theorem reroute_kept {z s : State} (h : Kept z s) (e : Buffered) (port : Nat) (group : Nat) (f : Frame) :
    Kept z (reroute e port group f s) := by
  simp (maxDischargeDepth := 40) +contextual [reroute, h]

@[simp] theorem replaceBy_kept {z s : State} (h : Kept z s) (e : Buffered) (copies : List Copy) : Kept z
    (replaceBy e copies s) := by
  simp (maxDischargeDepth := 40) +contextual [replaceBy, h]

@[simp] theorem redoCopy_kept {z s : State} (h : Kept z s) (e : Buffered) (r : Replicas) : Kept z (redoCopy e r s)
    := by
  simp (maxDischargeDepth := 40) +contextual [redoCopy, h]

@[simp] theorem reassignOne_kept {z s : State} (h : Kept z s) (e : Buffered) : Kept z (reassignOne s e) := by
  simp only [reassignOne]
  (repeat' split) <;> simp (maxDischargeDepth := 40) +contextual [h]

@[simp] theorem reassign_kept {z s : State} (h : Kept z s) (p : Nat) : Kept z (reassign p s) := by
  simp (maxDischargeDepth := 40) +contextual [reassign, h]

@[simp] theorem endCut_kept {z s : State} (h : Kept z s) (o : Nat) (aborted : Bool) : Kept z (endCut o aborted s)
    := by
  simp (maxDischargeDepth := 40) +contextual [endCut, h]

@[simp] theorem abortInFrame_kept {z s : State} (h : Kept z s) (p : Nat) : Kept z (abortInFrame p s) := by
  simp only [abortInFrame]
  (repeat' split) <;> simp (maxDischargeDepth := 40) +contextual [h]

@[simp] theorem loseCut_kept {z s : State} (h : Kept z s) (o : Nat) : Kept z (loseCut o s) := by
  unfold loseCut
  (repeat' split) <;> simp (maxDischargeDepth := 40) +contextual [h]

@[simp] theorem dropLink_kept {z s : State} (h : Kept z s) (p : Nat) : Kept z (dropLink p s) := by
  simp (maxDischargeDepth := 40) +contextual [dropLink, h]

@[simp] theorem enterLost_kept {z s : State} (h : Kept z s) (p : Nat) : Kept z (enterLost p s) := by
  simp (maxDischargeDepth := 40) +contextual [enterLost, h]

@[simp] theorem enterDown_kept {z s : State} (h : Kept z s) (p : Nat) (held : Bool) : Kept z (enterDown p held s)
    := by
  simp (maxDischargeDepth := 40) +contextual [enterDown, h]

@[simp] theorem enterRetrain_kept {z s : State} (h : Kept z s) (p : Nat) (all : Bool) : Kept z (enterRetrain p all
    s) := by
  simp (maxDischargeDepth := 40) +contextual [enterRetrain, h]

@[simp] theorem startTraining_kept {z s : State} (h : Kept z s) (p : Nat) : Kept z (startTraining p s) := by
  simp (maxDischargeDepth := 40) +contextual [startTraining, h]

@[simp] theorem advance_kept {z s : State} (h : Kept z s) (p : Nat) (frm : PortState) (onto : PortState) : Kept z
    (advance p frm onto s) := by
  simp (maxDischargeDepth := 40) +contextual [advance, h]

@[simp] theorem trainFail_kept {z s : State} (h : Kept z s) (p : Nat) : Kept z (trainFail p s) := by
  simp (maxDischargeDepth := 40) +contextual [trainFail, h]

@[simp] theorem grantInit_kept {z s : State} (h : Kept z s) (p : Nat) : Kept z (grantInit p s) := by
  simp (maxDischargeDepth := 40) +contextual [grantInit, h]

@[simp] theorem sendInit_kept {z s : State} (h : Kept z s) (p : Nat) : Kept z (sendInit p s) := by
  simp (maxDischargeDepth := 40) +contextual [sendInit, h]

@[simp] theorem deskewed_kept {z s : State} (h : Kept z s) (p : Nat) (blocks : List AlignRx) : Kept z (deskewed p
    blocks s) := by
  simp (maxDischargeDepth := 40) +contextual [deskewed, h]

@[simp] theorem addCredits_kept {z s : State} (h : Kept z s) (p : Nat) (credits : Nat) : Kept z (addCredits p
    credits s) := by
  simp (maxDischargeDepth := 40) +contextual [addCredits, h]

@[simp] theorem resend_kept {z s : State} (h : Kept z s) (p : Nat) : Kept z (resend p s) := by
  simp (maxDischargeDepth := 40) +contextual [resend, h]

@[simp] theorem linkInitDone_kept {z s : State} (h : Kept z s) (p : Nat) : Kept z (linkInitDone p s) := by
  simp (maxDischargeDepth := 40) +contextual [linkInitDone, h]

@[simp] theorem initReceived_kept {z s : State} (h : Kept z s) (p : Nat) (rec : Slot) (credits : BitVec 96) (acked
    : Bool) : Kept z (initReceived p rec credits acked s) := by
  simp (maxDischargeDepth := 40) +contextual [initReceived, h]

@[simp] theorem beginCut_kept {z s : State} (h : Kept z s) (p : Nat) (f : Frame) : Kept z (beginCut p f s) := by
  unfold beginCut
  (repeat' split) <;> simp (maxDischargeDepth := 40) +contextual [h]

@[simp] theorem sendOn_kept {z s : State} (h : Kept z s) (p : Nat) (x : Slot) : Kept z (sendOn p x s) := by
  simp only [sendOn]
  (repeat' split) <;> simp (maxDischargeDepth := 40) +contextual [h]

@[simp] theorem frameWhole_kept {z s : State} (h : Kept z s) (p : Nat) : Kept z (frameWhole p s) := by
  simp only [frameWhole]
  (repeat' split) <;> simp (maxDischargeDepth := 40) +contextual [h]

@[simp] theorem takeSlot_kept {z s : State} (h : Kept z s) (p : Nat) (abortAt : Nat) (start : Nat) (valid : Nat)
    (i : Nat × Slot) : Kept z (takeSlot p abortAt start valid s i) := by
  simp (maxDischargeDepth := 40) +contextual [takeSlot, h]

@[simp] theorem countWords_kept {z s : State} (h : Kept z s) (p : Nat) (words : List CodewordRx) : Kept z
    (countWords p words s) := by
  simp (maxDischargeDepth := 40) +contextual [countWords, h]

@[simp] theorem replayOrRetrain_kept {z s : State} (h : Kept z s) (p : Nat) : Kept z (replayOrRetrain p s) := by
  simp (maxDischargeDepth := 40) +contextual [replayOrRetrain, h]

@[simp] theorem acceptFlit_kept {z s : State} (h : Kept z s) (p : Nat) (ctl : Slot) (slots : List Slot) : Kept z
    (acceptFlit p ctl slots s) := by
  simp only [acceptFlit]
  (repeat' split) <;> simp (maxDischargeDepth := 40) +contextual [h]

@[simp] theorem flitAt_kept {z s : State} (h : Kept z s) (p : Nat) (ctl : Slot) (slots : List Slot) (words : List
    CodewordRx) : Kept z (flitAt p ctl slots words s) := by
  simp only [flitAt]
  (repeat' split) <;> simp (maxDischargeDepth := 40) +contextual [h]

@[simp] theorem writePortCfg_kept {z s : State} (h : Kept z s) (p : Nat) (v : Word) : Kept z (writePortCfg p v s)
    := by
  simp (maxDischargeDepth := 40) +contextual [writePortCfg, h]

@[simp] theorem portRefuse_kept {z s : State} (h : Kept z s) (p : Nat) : Kept z (portRefuse p s) := by
  simp (maxDischargeDepth := 40) +contextual [portRefuse, h]

@[simp] theorem portRetrain_kept {z s : State} (h : Kept z s) (p : Nat) : Kept z (portRetrain p s) := by
  simp (maxDischargeDepth := 40) +contextual [portRetrain, h]

@[simp] theorem clearTestCounts_kept {z s : State} (h : Kept z s) (p : Nat) : Kept z (clearTestCounts p s) := by
  simp (maxDischargeDepth := 40) +contextual [clearTestCounts, h]

@[simp] theorem writePortTest_kept {z s : State} (h : Kept z s) (p : Nat) (v : Word) : Kept z (writePortTest p v
    s) := by
  simp (maxDischargeDepth := 40) +contextual [writePortTest, h]

/-! ### Clock -/

@[simp] theorem countTime_kept {z s : State} (h : Kept z s) : Kept z (countTime s) := by
  simp (maxDischargeDepth := 40) +contextual [countTime, h]

@[simp] theorem countPort_kept {z s : State} (h : Kept z s) (e : Nat × Link) : Kept z (countPort s e) := by
  simp (maxDischargeDepth := 40) +contextual [countPort, h]

@[simp] theorem countClocks_kept {z s : State} (h : Kept z s) (e : Nat × Word) : Kept z (countClocks s e) := by
  simp (maxDischargeDepth := 40) +contextual [countClocks, h]

@[simp] theorem measureDone_kept {z s : State} (h : Kept z s) (r : Int × Int × Int × Nat) : Kept z (measureDone r
    s) := by
  simp (maxDischargeDepth := 40) +contextual [measureDone, h]

@[simp] theorem writeTimCtl_kept {z s : State} (h : Kept z s) (v : Word) : Kept z (writeTimCtl v s) := by
  simp (maxDischargeDepth := 40) +contextual [writeTimCtl, h]

@[simp] theorem writeTimCfg_kept {z s : State} (h : Kept z s) (v : Word) : Kept z (writeTimCfg v s) := by
  simp (maxDischargeDepth := 40) +contextual [writeTimCfg, h]

@[simp] theorem queryTimeArrives_kept {z s : State} (h : Kept z s) (port : Nat) (f : Frame) : Kept z
    (queryTimeArrives port f s) := by
  simp (maxDischargeDepth := 40) +contextual [queryTimeArrives, h]

/-! ### Counters -/

@[simp] theorem writeCntCtl_kept {z s : State} (h : Kept z s) (v : Word) : Kept z (writeCntCtl v s) := by
  simp (maxDischargeDepth := 40) +contextual [writeCntCtl, h]

@[simp] theorem takeLatch_kept {z s : State} (h : Kept z s) : Kept z (takeLatch s) := by
  simp (maxDischargeDepth := 40) +contextual [takeLatch, h]

@[simp] theorem writeProfSel_kept {z s : State} (h : Kept z s) (b : Nat) (i : Nat) (v : Word) : Kept z
    (writeProfSel b i v s) := by
  simp (maxDischargeDepth := 40) +contextual [writeProfSel, h]

/-! ### Rope -/

@[simp] theorem writeMode_kept {z s : State} (h : Kept z s) (v : Word) : Kept z (writeMode v s) := by
  simp (maxDischargeDepth := 40) +contextual [writeMode, h]

@[simp] theorem writeRopeCfg_kept {z s : State} (h : Kept z s) (v : Word) : Kept z (writeRopeCfg v s) := by
  simp (maxDischargeDepth := 40) +contextual [writeRopeCfg, h]

@[simp] theorem ropeDiffers_kept {z s : State} (h : Kept z s) (c : RopeChunk) (crc : Word) : Kept z (ropeDiffers c
    crc s) := by
  simp (maxDischargeDepth := 40) +contextual [ropeDiffers, h]

@[simp] theorem writeRopeCtl_kept {z s : State} (h : Kept z s) (v : Word) : Kept z (writeRopeCtl v s) := by
  unfold writeRopeCtl
  (repeat' split) <;> simp (maxDischargeDepth := 40) +contextual [h]

/-! ### Withdraw -/

@[simp] theorem updWithdraw_kept {z s : State} (h : Kept z s) (w : Withdraw) (f : Withdraw → Withdraw) : Kept z
    (updWithdraw w f s) := by
  simp (maxDischargeDepth := 40) +contextual [updWithdraw, h]

@[simp] theorem withdrawUnsent_kept {z s : State} (h : Kept z s) (p : Byte) (first : Nat) (count : Nat) : Kept z
    (withdrawUnsent p first count s) := by
  unfold withdrawUnsent
  refine kept_foldl' _ _ (by simp (maxDischargeDepth := 40) +contextual [h]) ?_
  intro t ht x
  (repeat' split) <;> simp (maxDischargeDepth := 40) +contextual [ht]

@[simp] theorem discardRange_kept {z s : State} (h : Kept z s) (p : Byte) (first : Nat) (count : Nat) : Kept z
    (discardRange p first count s) := by
  simp (maxDischargeDepth := 40) +contextual [discardRange, h]

@[simp] theorem sendInvals_kept {z s : State} (h : Kept z s) (p : Byte) (tag : BitVec 16) (first : Nat) (count :
    Nat) : Kept z (sendInvals p tag first count s) := by
  simp (maxDischargeDepth := 40) +contextual [sendInvals, h]

@[simp] theorem beginWithdraw_kept {z s : State} (h : Kept z s) (w : Withdraw) : Kept z (beginWithdraw w s) := by
  simp (maxDischargeDepth := 40) +contextual [beginWithdraw, h]

@[simp] theorem dropWithdraw_kept {z s : State} (h : Kept z s) (w : Withdraw) : Kept z (dropWithdraw w s) := by
  simp (maxDischargeDepth := 40) +contextual [dropWithdraw, h]

@[simp] theorem endWithdraw_kept {z s : State} (h : Kept z s) (w : Withdraw) (st : Byte) : Kept z (endWithdraw w
    st s) := by
  simp (maxDischargeDepth := 40) +contextual [endWithdraw, h]

@[simp] theorem migrateLeaf_kept {z s : State} (h : Kept z s) (w : Withdraw) (d : DescEx) (big : Bool) (leaf :
    Word) (at_ : Nat) : Kept z (migrateLeaf w d big leaf at_ s) := by
  simp (maxDischargeDepth := 40) +contextual [migrateLeaf, h]

@[simp] theorem startWithdraw_kept {z s : State} (h : Kept z s) (w : Withdraw) : Kept z (startWithdraw w s) := by
  unfold startWithdraw
  (repeat' split) <;> simp (maxDischargeDepth := 40) +contextual [h]

@[simp] theorem startWaiting_kept {z s : State} (h : Kept z s) : Kept z (startWaiting s) := by
  simp (maxDischargeDepth := 40) +contextual [startWaiting, h]

@[simp] theorem submitWithdraw_kept {z s : State} (h : Kept z s) (w : Withdraw) : Kept z (submitWithdraw w s)
    := by
  simp (maxDischargeDepth := 40) +contextual [submitWithdraw, h]

@[simp] theorem endMigrate_kept {z s : State} (h : Kept z s) (w : Withdraw) (st : Byte) : Kept z (endMigrate w st
    s) := by
  simp (maxDischargeDepth := 40) +contextual [endMigrate, h]

@[simp] theorem withdrawOver_kept {z s : State} (h : Kept z s) (w : Withdraw) (st : Byte) : Kept z (withdrawOver w
    st s) := by
  simp (maxDischargeDepth := 40) +contextual [withdrawOver, h]

end Sys2Proof.Machine
end

