-- ==== Sys2Proof/Laws/KeptPart.lean ====
section
/-! SUPPORT. What every command keeps (Laws/Kept.lean), carried through tenants, stacks, the side band, resets,
updates, the host port, bring-up and the register map: one lemma for each operation. -/
set_option maxRecDepth 4000
namespace Sys2Proof.Machine

/-! ### Tenants -/

@[simp] theorem freshInstall_kept {z s : State} (h : Kept z s) (slot : Nat) (p : Byte) : Kept z (freshInstall slot
    p s) := by
  simp (maxDischargeDepth := 40) +contextual [freshInstall, h]

@[simp] theorem installKeys_kept {z s : State} (h : Kept z s) (msg : InstallMsg) : Kept z (installKeys msg s).2
    := by
  simp only [installKeys]
  (repeat' split) <;> simp (maxDischargeDepth := 40) +contextual [h]

@[simp] theorem takePermit_kept {z s : State} (h : Kept z s) (rec_ : BitVec 192) : Kept z (takePermit rec_ s).2
    := by
  simp only [takePermit]
  (repeat' split) <;> simp (maxDischargeDepth := 40) +contextual [h]

@[simp] theorem dropPermit_kept {z s : State} (h : Kept z s) (number : BitVec 16) (mac : BitVec 128) : Kept z
    (dropPermit number mac s).2 := by
  unfold dropPermit
  (repeat' split) <;> simp (maxDischargeDepth := 40) +contextual [h]

@[simp] theorem secDone_kept {z s : State} (h : Kept z s) (op : Nat) (st : Byte) : Kept z (secDone op st s) := by
  simp (maxDischargeDepth := 40) +contextual [secDone, h]

@[simp] theorem secRuns_kept {z s : State} (h : Kept z s) (op : Nat) (slot : Nat) (tag : BitVec 16) (waiting :
    List Nat) : Kept z (secRuns op slot tag waiting s) := by
  simp (maxDischargeDepth := 40) +contextual [secRuns, h]

@[simp] theorem secBind_kept {z s : State} (h : Kept z s) (slot : Nat) (p : Byte) (gen : Byte) : Kept z (secBind
    slot p gen s) := by
  simp (maxDischargeDepth := 40) +contextual [secBind, h]

@[simp] theorem secOpen_kept {z s : State} (h : Kept z s) (slot : Nat) : Kept z (secOpen slot s) := by
  simp (maxDischargeDepth := 40) +contextual [secOpen, h]

@[simp] theorem secGrant_kept {z s : State} (h : Kept z s) (op : Nat) (slot : Nat) (first : Nat) (count : Nat) :
    Kept z (secGrant op slot first count s) := by
  simp (maxDischargeDepth := 40) +contextual [secGrant, h]

@[simp] theorem secRelease_kept {z s : State} (h : Kept z s) (slot : Nat) (first : Nat) (count : Nat) : Kept z
    (secRelease slot first count s) := by
  simp (maxDischargeDepth := 40) +contextual [secRelease, h]

@[simp] theorem sendRotation_kept {z s : State} (h : Kept z s) (op : Nat) (p : Byte) (epoch : BitVec 32) : Kept z
    (sendRotation op p epoch s) := by
  simp (maxDischargeDepth := 40) +contextual [sendRotation, h]

@[simp] theorem secRotation_kept {z s : State} (h : Kept z s) (op : Nat) (slot : Nat) (mgmt : Nat) (epoch : BitVec
    32) : Kept z (secRotation op slot mgmt epoch s) := by
  simp (maxDischargeDepth := 40) +contextual [secRotation, h]

@[simp] theorem secStage_kept {z s : State} (h : Kept z s) (slot : Nat) : Kept z (secStage slot s) := by
  simp (maxDischargeDepth := 40) +contextual [secStage, h]

@[simp] theorem releaseIv_kept {z s : State} (h : Kept z s) (slot : Nat) (p : Byte) : Kept z (releaseIv slot p s)
    := by
  simp (maxDischargeDepth := 40) +contextual [releaseIv, h]

@[simp] theorem secSwitch_kept {z s : State} (h : Kept z s) (slot : Nat) : Kept z (secSwitch slot s) := by
  simp (maxDischargeDepth := 40) +contextual [secSwitch, h]

@[simp] theorem fenceQueues_kept {z s : State} (h : Kept z s) (p : Byte) : Kept z (fenceQueues p s) := by
  simp (maxDischargeDepth := 40) +contextual [fenceQueues, h]

@[simp] theorem fenceRequests_kept {z s : State} (h : Kept z s) (p : Byte) : Kept z (fenceRequests p s) := by
  simp (maxDischargeDepth := 40) +contextual [fenceRequests, h]

@[simp] theorem closePartition_kept {z s : State} (h : Kept z s) (slot : Nat) : Kept z (closePartition slot s)
    := by
  simp (maxDischargeDepth := 40) +contextual [closePartition, h]

@[simp] theorem secClose_kept {z s : State} (h : Kept z s) (slot : Nat) : Kept z (secClose slot s) := by
  simp (maxDischargeDepth := 40) +contextual [secClose, h]

@[simp] theorem beginSecCmd_kept {z s : State} (h : Kept z s) (v : Word) : Kept z (beginSecCmd v s) := by
  unfold beginSecCmd
  (repeat' split) <;> simp (maxDischargeDepth := 40) +contextual [h]

@[simp] theorem writeSecCmd_kept {z s : State} (h : Kept z s) (v : Word) : Kept z (writeSecCmd v s) := by
  unfold writeSecCmd
  (repeat' split) <;> simp (maxDischargeDepth := 40) +contextual [h]

@[simp] theorem takeHeldCmd_kept {z s : State} (h : Kept z s) : Kept z (takeHeldCmd s) := by
  unfold takeHeldCmd
  (repeat' split) <;> simp (maxDischargeDepth := 40) +contextual [h]

@[simp] theorem secCommand_kept {z s : State} (h : Kept z s) (side : Side) (w : Word) : Kept z (secCommand side w
    s) := by
  simp (maxDischargeDepth := 40) +contextual [secCommand, h]

@[simp] theorem rotationAnswered_kept {z s : State} (h : Kept z s) (r : SecRun) (i : Nat) (st : Byte) : Kept z
    (rotationAnswered r i st s) := by
  simp (maxDischargeDepth := 40) +contextual [rotationAnswered, h]

@[simp] theorem closeDrained_kept {z s : State} (h : Kept z s) (slot : Nat) : Kept z (closeDrained slot s) := by
  simp (maxDischargeDepth := 40) +contextual [closeDrained, h]

@[simp] theorem answerHeld_kept {z s : State} (h : Kept z s) (p : Byte) : Kept z (answerHeld p s) := by
  simp (maxDischargeDepth := 40) +contextual [answerHeld, h]

/-! ### Stacks -/

@[simp] theorem scrubLine_kept {z s : State} (h : Kept z s) (l : Nat) : Kept z (scrubLine l s) := by
  simp only [scrubLine]
  (repeat' split) <;> simp (maxDischargeDepth := 40) +contextual [h]

@[simp] theorem scrubRead_kept {z s : State} (h : Kept z s) (k : Nat) : Kept z (scrubRead k s) := by
  simp (maxDischargeDepth := 40) +contextual [scrubRead, h]

@[simp] theorem beginStackFence_kept {z s : State} (h : Kept z s) (k : Nat) : Kept z (beginStackFence k s) := by
  simp (maxDischargeDepth := 40) +contextual [beginStackFence, h]

@[simp] theorem wantRetrain_kept {z s : State} (h : Kept z s) (k : Nat) : Kept z (wantRetrain k s) := by
  simp (maxDischargeDepth := 40) +contextual [wantRetrain, h]

@[simp] theorem writeMemClear_kept {z s : State} (h : Kept z s) (v : Word) : Kept z (writeMemClear v s) := by
  simp (maxDischargeDepth := 40) +contextual [writeMemClear, h]

@[simp] theorem regClearDone_kept {z s : State} (h : Kept z s) (p : Nat) : Kept z (regClearDone p s) := by
  simp (maxDischargeDepth := 40) +contextual [regClearDone, h]

@[simp] theorem keeperClearDone_kept {z s : State} (h : Kept z s) (p : Nat) : Kept z (keeperClearDone p s) := by
  simp (maxDischargeDepth := 40) +contextual [keeperClearDone, h]

@[simp] theorem writeMemInject_kept {z s : State} (h : Kept z s) (k : Nat) (v : Word) : Kept z (writeMemInject k v
    s) := by
  unfold writeMemInject
  (repeat' split) <;> simp (maxDischargeDepth := 40) +contextual [h]

/-! ### SideBand -/

@[simp] theorem sbVendor_kept {z s : State} (h : Kept z s) (inst : Byte) (f : State → State) (hf : ∀ t, Kept z t →
    Kept z (f t)) : Kept z (sbVendor inst f s) := by
  simp (maxDischargeDepth := 40) +contextual [sbVendor, h, hf]

@[simp] theorem sbAnswer_kept {z s : State} (h : Kept z s) (inst : Byte) (st : Byte) (body : List Byte) : Kept z
    (sbAnswer inst st body s) := by
  simp (maxDischargeDepth := 40) +contextual [sbAnswer, h]

@[simp] theorem ownChanged_kept {z s : State} (h : Kept z s) : Kept z (ownChanged s) := by
  simp (maxDischargeDepth := 40) +contextual [ownChanged, h]

@[simp] theorem startCapture_kept {z s : State} (h : Kept z s) : Kept z (startCapture s).2 := by
  unfold startCapture
  (repeat' split) <;> simp (maxDischargeDepth := 40) +contextual [h]

@[simp] theorem captureRequest_kept {z s : State} (h : Kept z s) : Kept z (captureRequest s) := by
  simp (maxDischargeDepth := 40) +contextual [captureRequest, h]

@[simp] theorem mctpControl_kept {z s : State} (h : Kept z s) (f : State → List Byte × State) (hf : ∀ t, Kept z t
    → Kept z (f t).2) : Kept z (mctpControl f s) := by
  simp (maxDischargeDepth := 40) +contextual [mctpControl, h, hf]

/-! ### Resets -/

@[simp] theorem resetReg_kept {z s : State} (h : Kept z s) (d : Dom) (o : Nat) : Kept z (resetReg d s o) := by
  unfold resetReg
  (repeat' split) <;> simp (maxDischargeDepth := 40) +contextual [h]

@[simp] theorem resetRegs_kept {z s : State} (h : Kept z s) (d : Dom) : Kept z (resetRegs d s) := by
  simp (maxDischargeDepth := 40) +contextual [resetRegs, h]

@[simp] theorem holdReset_kept {z s : State} (h : Kept z s) (d : Dom) (t : Nat) : Kept z (holdReset d t s) := by
  simp (maxDischargeDepth := 40) +contextual [holdReset, h]

@[simp] theorem leaveReset_kept {z s : State} (h : Kept z s) (d : Dom) : Kept z (leaveReset d s) := by
  simp (maxDischargeDepth := 40) +contextual [leaveReset, h]

@[simp] theorem logReset_kept {z s : State} (h : Kept z s) (d : Dom) : Kept z (logReset d s) := by
  simp (maxDischargeDepth := 40) +contextual [logReset, h]

@[simp] theorem escalate_kept {z s : State} (h : Kept z s) (d : Dom) : Kept z (escalate d s) := by
  unfold escalate
  (repeat' split) <;> simp (maxDischargeDepth := 40) +contextual [h]

@[simp] theorem countReset_kept {z s : State} (h : Kept z s) (d : Dom) : Kept z (countReset d s) := by
  simp (maxDischargeDepth := 40) +contextual [countReset, h]

@[simp] theorem abandonSwap_kept {z s : State} (h : Kept z s) (d : Dom) : Kept z (abandonSwap d s) := by
  unfold abandonSwap
  (repeat' split) <;> simp (maxDischargeDepth := 40) +contextual [h]

@[simp] theorem startReset_kept {z s : State} (h : Kept z s) (d : Dom) (cause : ResetCause) (work : State → State)
    (hwork : ∀ t, Kept z t → Kept z (work t)) : Kept z (startReset d cause work s) := by
  simp (maxDischargeDepth := 40) +contextual [startReset, h, hwork]

@[simp] theorem malformedReset_kept {z s : State} (h : Kept z s) (inst : Byte) : Kept z (malformedReset inst s)
    := by
  simp (maxDischargeDepth := 40) +contextual [malformedReset, h]

@[simp] theorem resetRow_kept {z s : State} (h : Kept z s) (d : Dom) (cause : ResetCause) (work : State → State)
    (hwork : ∀ t, Kept z t → Kept z (work t)) : Kept z (resetRow d cause work s) := by
  unfold resetRow
  (repeat' split) <;> simp (maxDischargeDepth := 40) +contextual [h, hwork]

@[simp] theorem resetAll_kept {z s : State} (h : Kept z s) : Kept z (resetAll s) := by
  refine ⟨h.pending, h.clock, ?_, h.retired⟩
  intro w
  have v := (memWf_iff s).1 (h.wf w)
  exact (memWf_iff _).2 ⟨rfl, v.2⟩

@[simp] theorem pwrReset_kept {z s : State} (h : Kept z s) : Kept z (pwrReset s) := by
  simp (maxDischargeDepth := 40) +contextual [pwrReset, h]

@[simp] theorem kprLoses_kept {z s : State} (h : Kept z s) : Kept z (kprLoses s) := by
  simp (maxDischargeDepth := 40) +contextual [kprLoses, h]

@[simp] theorem kprReset_kept {z s : State} (h : Kept z s) (cause : ResetCause) : Kept z (kprReset cause s) := by
  simp (maxDischargeDepth := 40) +contextual [kprReset, h]

@[simp] theorem abortFaults_kept {z s : State} (h : Kept z s) : Kept z (abortFaults s) := by
  simp (maxDischargeDepth := 40) +contextual [abortFaults, h]

@[simp] theorem endOwnRequests_kept {z s : State} (h : Kept z s) : Kept z (endOwnRequests s) := by
  simp (maxDischargeDepth := 40) +contextual [endOwnRequests, h]

@[simp] theorem eptLoses_kept {z s : State} (h : Kept z s) : Kept z (eptLoses s) := by
  simp (maxDischargeDepth := 40) +contextual [eptLoses, h]

@[simp] theorem eptReset_kept {z s : State} (h : Kept z s) (cause : ResetCause) : Kept z (eptReset cause s) := by
  simp (maxDischargeDepth := 40) +contextual [eptReset, h]

@[simp] theorem aryQueue_kept {z s : State} (h : Kept z s) (q : Fin 512) : Kept z (aryQueue q s) := by
  simp (maxDischargeDepth := 40) +contextual [aryQueue, h]

@[simp] theorem endColls_kept {z s : State} (h : Kept z s) : Kept z (endColls s) := by
  simp (maxDischargeDepth := 40) +contextual [endColls, h]

@[simp] theorem detachRequests_kept {z s : State} (h : Kept z s) : Kept z (detachRequests s) := by
  simp (maxDischargeDepth := 40) +contextual [detachRequests, h]

@[simp] theorem aryLoses_kept {z s : State} (h : Kept z s) : Kept z (aryLoses s) := by
  simp (maxDischargeDepth := 40) +contextual [aryLoses, h]

@[simp] theorem aryReset_kept {z s : State} (h : Kept z s) (cause : ResetCause) : Kept z (aryReset cause s) := by
  simp (maxDischargeDepth := 40) +contextual [aryReset, h]

@[simp] theorem aryRestart_kept {z s : State} (h : Kept z s) (q : Fin 512) : Kept z (aryRestart s q) := by
  simp (maxDischargeDepth := 40) +contextual [aryRestart, h]

@[simp] theorem prtLoses_kept {z s : State} (h : Kept z s) (p : Nat) : Kept z (prtLoses p s) := by
  simp (maxDischargeDepth := 40) +contextual [prtLoses, h]

@[simp] theorem prtReset_kept {z s : State} (h : Kept z s) (p : Nat) (cause : ResetCause) : Kept z (prtReset p
    cause s) := by
  simp (maxDischargeDepth := 40) +contextual [prtReset, h]

@[simp] theorem trainEnabled_kept {z s : State} (h : Kept z s) (p : Nat) : Kept z (trainEnabled p s) := by
  simp (maxDischargeDepth := 40) +contextual [trainEnabled, h]

@[simp] theorem writeRetired_kept {z s : State} (h : Kept z s) (v : Word) (collide : Word) : Kept z (writeRetired
    v collide s) := by
  simp (maxDischargeDepth := 40) +contextual [writeRetired, h]

@[simp] theorem countKept_kept {z s : State} (h : Kept z s) (o : Nat) (v : Word) (collide : Word) : Kept z
    (countKept o v collide s) := by
  unfold countKept
  (repeat' split) <;> simp (maxDischargeDepth := 40) +contextual [h]

@[simp] theorem stkLoses_kept {z s : State} (h : Kept z s) (k : Nat) : Kept z (stkLoses k s) := by
  simp (maxDischargeDepth := 40) +contextual [stkLoses, h]

@[simp] theorem stkReset_kept {z s : State} (h : Kept z s) (k : Nat) (cause : ResetCause) : Kept z (stkReset k
    cause s) := by
  simp (maxDischargeDepth := 40) +contextual [stkReset, h]

@[simp] theorem retrainTimeout_kept {z s : State} (h : Kept z s) (k : Nat) : Kept z (retrainTimeout k s) := by
  simp (maxDischargeDepth := 40) +contextual [retrainTimeout, h]

@[simp] theorem heartbeatReset_kept {z s : State} (h : Kept z s) (a0 : Beating) : Kept z (heartbeatReset a0 s)
    := by
  unfold heartbeatReset
  (repeat' split) <;> simp (maxDischargeDepth := 40) +contextual [h]

@[simp] theorem writeReset_kept {z s : State} (h : Kept z s) (v : Word) : Kept z (writeReset v s) := by
  unfold writeReset
  (repeat' split) <;> simp (maxDischargeDepth := 40) +contextual [h]

/-! ### Firmware -/

@[simp] theorem refuseImage_kept {z s : State} (h : Kept z s) (c : Nat) (img : FirmwareImage) : Kept z
    (refuseImage c img s) := by
  simp (maxDischargeDepth := 40) +contextual [refuseImage, h]

@[simp] theorem storeImage_kept {z s : State} (h : Kept z s) (c : Nat) (img : FirmwareImage) : Kept z (storeImage
    c img s) := by
  simp (maxDischargeDepth := 40) +contextual [storeImage, h]

@[simp] theorem toggleSlot_kept {z s : State} (h : Kept z s) (c : Nat) : Kept z (toggleSlot c s) := by
  simp (maxDischargeDepth := 40) +contextual [toggleSlot, h]

@[simp] theorem activate_kept {z s : State} (h : Kept z s) (c : Nat) (img : FirmwareImage) : Kept z (activate c
    img s) := by
  simp (maxDischargeDepth := 40) +contextual [activate, h]

@[simp] theorem adoptReg_kept {z s : State} (h : Kept z s) (o : Nat) (v : Word) : Kept z (adoptReg o v s) := by
  simp (maxDischargeDepth := 40) +contextual [adoptReg, h]

@[simp] theorem adoptImage_kept {z s : State} (h : Kept z s) (new : Image) : Kept z (adoptImage new s) := by
  simp (maxDischargeDepth := 40) +contextual [adoptImage, h]

@[simp] theorem writeLibrary_kept {z s : State} (h : Kept z s) (l : List Host.Cell) : Kept z (writeLibrary l s)
    := by
  simp (maxDischargeDepth := 40) +contextual [writeLibrary, h]

@[simp] theorem swapEffect_kept {z s : State} (h : Kept z s) (c : Nat) : Kept z (swapEffect c s) := by
  simp only [swapEffect]
  (repeat' split) <;> simp (maxDischargeDepth := 40) +contextual [h]

@[simp] theorem restartQueue_kept {z s : State} (h : Kept z s) (q : Nat) : Kept z (restartQueue s q) := by
  simp (maxDischargeDepth := 40) +contextual [restartQueue, h]

@[simp] theorem swapDone_kept {z s : State} (h : Kept z s) : Kept z (swapDone s) := by
  unfold swapDone
  (repeat' split) <;> simp (maxDischargeDepth := 40) +contextual [h]

/-! ### HostPort -/

@[simp] theorem dropCacheReads_kept {z s : State} (h : Kept z s) : Kept z (dropCacheReads s) := by
  unfold dropCacheReads
  refine kept_foldl' _ _ (by simp (maxDischargeDepth := 40) +contextual [h]) ?_
  intro t ht x
  (repeat' split) <;> simp (maxDischargeDepth := 40) +contextual [ht]

@[simp] theorem linkDown_kept {z s : State} (h : Kept z s) : Kept z (linkDown s) := by
  simp (maxDischargeDepth := 40) +contextual [linkDown, h]

@[simp] theorem hostPortReset_kept {z s : State} (h : Kept z s) : Kept z (hostPortReset s) := by
  simp (maxDischargeDepth := 40) +contextual [hostPortReset, h]

@[simp] theorem putDecoder_kept {z s : State} (h : Kept z s) (w : Nat) (d : Decoder) : Kept z (putDecoder w d s)
    := by
  simp (maxDischargeDepth := 40) +contextual [putDecoder, h]

@[simp] theorem writeHstWin_kept {z s : State} (h : Kept z s) (w : Nat) (v : Word) : Kept z (writeHstWin w v s)
    := by
  simp (maxDischargeDepth := 40) +contextual [writeHstWin, h]

/-! ### Power -/

@[simp] theorem powerOff_kept {z s : State} (h : Kept z s) : Kept z (powerOff s) := by
  simp (maxDischargeDepth := 40) +contextual [powerOff, h]

@[simp] theorem takeTemp_kept {z s : State} (h : Kept z s) (t : Nat) : Kept z (takeTemp t s) := by
  simp (maxDischargeDepth := 40) +contextual [takeTemp, h]

@[simp] theorem putStep_kept {z s : State} (h : Kept z s) (n : Nat) : Kept z (putStep n s) := by
  simp (maxDischargeDepth := 40) +contextual [putStep, h]

@[simp] theorem loadReg_kept {z s : State} (h : Kept z s) (o : Nat) : Kept z (loadReg s o) := by
  unfold loadReg
  (repeat' split) <;> simp (maxDischargeDepth := 40) +contextual [h]

@[simp] theorem loadImage_kept {z s : State} (h : Kept z s) : Kept z (loadImage s) := by
  unfold loadImage
  refine kept_foldl' _ _ (by simp (maxDischargeDepth := 40) +contextual [h]) ?_
  intro t ht x
  (repeat' split) <;> simp (maxDischargeDepth := 40) +contextual [ht]

@[simp] theorem loadStrict_kept {z s : State} (h : Kept z s) : Kept z (loadStrict s) := by
  simp (maxDischargeDepth := 40) +contextual [loadStrict, h]

@[simp] theorem applyRetired_kept {z s : State} (h : Kept z s) : Kept z (applyRetired s) := by
  simp (maxDischargeDepth := 40) +contextual [applyRetired, h]

@[simp] theorem stageEffect_kept {z s : State} (h : Kept z s) (n : Nat) : Kept z (stageEffect n s) := by
  simp (maxDischargeDepth := 40) +contextual [stageEffect, h]

@[simp] theorem nextStage_kept {z s : State} (h : Kept z s) : Kept z (nextStage s) := by
  simp (maxDischargeDepth := 40) +contextual [nextStage, h]

@[simp] theorem stageFails_kept {z s : State} (h : Kept z s) : Kept z (stageFails s) := by
  simp (maxDischargeDepth := 40) +contextual [stageFails, h]

@[simp] theorem otherSlot_kept {z s : State} (h : Kept z s) (c : Nat) : Kept z (otherSlot c s) := by
  simp (maxDischargeDepth := 40) +contextual [otherSlot, h]

@[simp] theorem verified_kept {z s : State} (h : Kept z s) : Kept z (verified s) := by
  simp (maxDischargeDepth := 40) +contextual [verified, h]

@[simp] theorem stageDone_kept {z s : State} (h : Kept z s) (result : StageResult) : Kept z (stageDone result s)
    := by
  unfold stageDone
  (repeat' split) <;> simp (maxDischargeDepth := 40) +contextual [h]

/-! ### RegMap -/

@[simp] theorem readReg_kept {z s : State} (h : Kept z s) (o : Nat) : Kept z (readReg o s).2 := by
  unfold readReg
  (repeat' split) <;> simp (maxDischargeDepth := 40) +contextual [h]

@[simp] theorem readHalf_kept {z s : State} (h : Kept z s) (o : Nat) : Kept z (readHalf o s).2 := by
  simp (maxDischargeDepth := 40) +contextual [readHalf, h]

@[simp] theorem writeErrLog_kept {z s : State} (h : Kept z s) (a : Nat) (b : Nat) (hi : Nat) (lo : Nat) (v : Word)
    (collide : Word) : Kept z (writeErrLog a b hi lo v collide s) := by
  simp (maxDischargeDepth := 40) +contextual [writeErrLog, h]

@[simp] theorem writeHostLog_kept {z s : State} (h : Kept z s) (v : Word) (collide : Word) : Kept z (writeHostLog
    v collide s) := by
  simp (maxDischargeDepth := 40) +contextual [writeHostLog, h]

@[simp] theorem writePortCtl_kept {z s : State} (h : Kept z s) (p : Nat) (v : Word) : Kept z (writePortCtl p v s)
    := by
  unfold writePortCtl
  (repeat' split) <;> simp (maxDischargeDepth := 40) +contextual [h]

@[simp] theorem writePort_kept {z s : State} (h : Kept z s) (o : Nat) (v : Word) : Kept z (writePort o v s) := by
  simp (maxDischargeDepth := 40) +contextual [writePort, h]

@[simp] theorem writeQueueReg_kept {z s : State} (h : Kept z s) (o : Nat) (v : Word) : Kept z (writeQueueReg o v
    s) := by
  simp (maxDischargeDepth := 40) +contextual [writeQueueReg, h]

@[simp] theorem writeMemReg_kept {z s : State} (h : Kept z s) (o : Nat) (v : Word) (collide : Word) : Kept z
    (writeMemReg o v collide s) := by
  simp (maxDischargeDepth := 40) +contextual [writeMemReg, h]

@[simp] theorem writeCntReg_kept {z s : State} (h : Kept z s) (o : Nat) (v : Word) : Kept z (writeCntReg o v s)
    := by
  simp (maxDischargeDepth := 40) +contextual [writeCntReg, h]

@[simp] theorem writeDbgReg_kept {z s : State} (h : Kept z s) (o : Nat) (v : Word) : Kept z (writeDbgReg o v s)
    := by
  simp (maxDischargeDepth := 40) +contextual [writeDbgReg, h]

@[simp] theorem regEffect_kept {z s : State} (h : Kept z s) (o : Nat) (val : Word) (collide : Word) : Kept z
    (regEffect o val collide s) := by
  have hk := countKept_kept h o val collide
  unfold regEffect
  dsimp only
  generalize countKept o val collide s = t at hk ⊢
  generalize val &&& ~~~keptBits o val collide s = w
  repeat' with_reducible apply kept_ite2
  all_goals simp [hk]

@[simp] theorem regWriteFrom_kept {z s : State} (h : Kept z s) (side : Side) (o : Nat) (d : RegDesc) (val : Word)
    (collide : Word) : Kept z (regWriteFrom side o d val collide s) := by
  simp (maxDischargeDepth := 40) +contextual [regWriteFrom, h]

@[simp] theorem badAccess_kept {z s : State} (h : Kept z s) (side : Side) : Kept z (badAccess side s) := by
  unfold badAccess
  (repeat' split) <;> simp (maxDischargeDepth := 40) +contextual [h]

@[simp] theorem halfWrite_kept {z s : State} (h : Kept z s) (o : Nat) (val : Word) : Kept z (halfWrite o val s)
    := by
  simp (maxDischargeDepth := 40) +contextual [halfWrite, h]

@[simp] theorem registerWrite_kept {z s : State} (h : Kept z s) (side : Side) (o : Nat) (full : Bool) (val : Word)
    (collide : Word) : Kept z (registerWrite side o full val collide s) := by
  unfold registerWrite
  (repeat' split) <;> simp (maxDischargeDepth := 40) +contextual [h]

@[simp] theorem readRegs_kept {z s : State} (h : Kept z s) (a0 : List Nat) : Kept z (readRegs a0 s).2 := by
  induction a0 generalizing s with
  | nil => simpa [readRegs] using h
  | cons o t ih =>
    unfold readRegs
    exact ih (by simp [h])

@[simp] theorem writeRegs_kept {z s : State} (h : Kept z s) (a0 : List (Nat × Word)) : Kept z (writeRegs a0 s)
    := by
  induction a0 generalizing s with
  | nil => simpa [writeRegs] using h
  | cons o t ih =>
    unfold writeRegs
    apply ih
    split <;> simp [h]

@[simp] theorem regWriteMessage_kept {z s : State} (h : Kept z s) (inst : Byte) (o : Nat) (n : Nat) (words : List
    Word) : Kept z (regWriteMessage inst o n words s) := by
  simp (maxDischargeDepth := 40) +contextual [regWriteMessage, h]

end Sys2Proof.Machine
end

