-- ==== Sys2Proof/Laws/KeptExecA.lean ====
section
/-! SUPPORT. Every command answers a next state that keeps what Laws/Kept.lean says (first half of the commands). -/
set_option maxRecDepth 4000
namespace Sys2Proof.Machine

/-- A command answers a next state, and keeps what its effect keeps. -/
theorem act_kept {s : State} {f : State → State} (h : Kept s (f s)) : ∃ t, act s f = .next t ∧ Kept s t :=
  ⟨_, rfl, kept_ite h (Kept.refl s)⟩

@[simp] theorem settleOos_kept' {z s : State} {f : State → State} (h : Kept z (f s)) : Kept z (settleOos f s) := by
  unfold settleOos
  dsimp only
  exact kept_ite (kept_foldl' _ _ h (fun t ht x => by simp [ht])) h

/-! ### Target -/

theorem execStatusQuery_kept (f : Frame) (s : State) : ∃ t, execStatusQuery f s = .next t ∧ Kept s t := by
  exact act_kept (by simp (maxDischargeDepth := 40) +contextual)

theorem execLedgerRetentionExpiry_kept (src : BitVec 16) (sid : BitVec 16) (s : State) : ∃ t,
    execLedgerRetentionExpiry src sid s = .next t ∧ Kept s t := by
  refine act_kept ?_
  dsimp only
  repeat' (first | with_reducible apply kept_ite2 | split)
  all_goals simp (maxDischargeDepth := 40) +contextual

theorem execQuarantineEnd_kept (s : State) : ∃ t, execQuarantineEnd s = .next t ∧ Kept s t := by
  refine act_kept ?_
  dsimp only
  repeat' (first | with_reducible apply kept_ite2 | split)
  all_goals simp (maxDischargeDepth := 40) +contextual

/-! ### Attest -/

theorem execGetCerts_kept (tr : Transport) (s : State) : ∃ t, execGetCerts tr s = .next t ∧ Kept s t := by
  exact act_kept (by simp (maxDischargeDepth := 40) +contextual)

theorem execGetReport_kept (tr : Transport) (nonce : BitVec 256) (partition : BitVec 8) (s : State) : ∃ t,
    execGetReport tr nonce partition s = .next t ∧ Kept s t := by
  exact act_kept (by simp (maxDischargeDepth := 40) +contextual)

theorem execKeyExchange_kept (tr : Transport) (pub : List Byte) (nonce : BitVec 256) (s : State) : ∃ t,
    execKeyExchange tr pub nonce s = .next t ∧ Kept s t := by
  exact act_kept (by simp (maxDischargeDepth := 40) +contextual)

theorem execEndSession_kept (env : Envelope) (s : State) : ∃ t, execEndSession env s = .next t ∧ Kept s t := by
  exact act_kept (by simp (maxDischargeDepth := 40) +contextual)

theorem execSessionTimeout_kept (sess : Fin 4) (s : State) : ∃ t, execSessionTimeout sess s = .next t ∧ Kept s t
    := by
  refine act_kept ?_
  (repeat' split) <;> simp (maxDischargeDepth := 40) +contextual

/-! ### Cells -/

theorem execCellNop_kept (cell : Fin 4096) (s : State) : ∃ t, execCellNop cell s = .next t ∧ Kept s t := by
  exact act_kept (by simp (maxDischargeDepth := 40) +contextual)

theorem execMov_kept (cell : Fin 4096) (s : State) : ∃ t, execMov cell s = .next t ∧ Kept s t := by
  exact act_kept (by simp (maxDischargeDepth := 40) +contextual)

theorem execOplus_kept (cell : Fin 4096) (s : State) : ∃ t, execOplus cell s = .next t ∧ Kept s t := by
  exact act_kept (by simp (maxDischargeDepth := 40) +contextual)

theorem execOtimes_kept (cell : Fin 4096) (s : State) : ∃ t, execOtimes cell s = .next t ∧ Kept s t := by
  exact act_kept (by simp (maxDischargeDepth := 40) +contextual)

theorem execMac_kept (cell : Fin 4096) (s : State) : ∃ t, execMac cell s = .next t ∧ Kept s t := by
  exact act_kept (by simp (maxDischargeDepth := 40) +contextual)

theorem execDot_kept (cell : Fin 4096) (s : State) : ∃ t, execDot cell s = .next t ∧ Kept s t := by
  exact act_kept (by simp (maxDischargeDepth := 40) +contextual)

theorem execSub_kept (cell : Fin 4096) (s : State) : ∃ t, execSub cell s = .next t ∧ Kept s t := by
  exact act_kept (by simp (maxDischargeDepth := 40) +contextual)

theorem execCmpsel_kept (cell : Fin 4096) (s : State) : ∃ t, execCmpsel cell s = .next t ∧ Kept s t := by
  exact act_kept (by simp (maxDischargeDepth := 40) +contextual)

theorem execLogic_kept (cell : Fin 4096) (s : State) : ∃ t, execLogic cell s = .next t ∧ Kept s t := by
  exact act_kept (by simp (maxDischargeDepth := 40) +contextual)

theorem execShift_kept (cell : Fin 4096) (s : State) : ∃ t, execShift cell s = .next t ∧ Kept s t := by
  exact act_kept (by simp (maxDischargeDepth := 40) +contextual)

theorem execCmp_kept (cell : Fin 4096) (s : State) : ∃ t, execCmp cell s = .next t ∧ Kept s t := by
  exact act_kept (by simp (maxDischargeDepth := 40) +contextual)

theorem execSel_kept (cell : Fin 4096) (s : State) : ∃ t, execSel cell s = .next t ∧ Kept s t := by
  exact act_kept (by simp (maxDischargeDepth := 40) +contextual)

theorem execPerm_kept (cell : Fin 4096) (s : State) : ∃ t, execPerm cell s = .next t ∧ Kept s t := by
  exact act_kept (by simp (maxDischargeDepth := 40) +contextual)

theorem execCvt_kept (cell : Fin 4096) (s : State) : ∃ t, execCvt cell s = .next t ∧ Kept s t := by
  exact act_kept (by simp (maxDischargeDepth := 40) +contextual)

theorem execAnchor_kept (cell : Fin 4096) (s : State) : ∃ t, execAnchor cell s = .next t ∧ Kept s t := by
  exact act_kept (by simp (maxDischargeDepth := 40) +contextual)

theorem execTofix_kept (cell : Fin 4096) (s : State) : ∃ t, execTofix cell s = .next t ∧ Kept s t := by
  exact act_kept (by simp (maxDischargeDepth := 40) +contextual)

theorem execFromfix_kept (cell : Fin 4096) (s : State) : ∃ t, execFromfix cell s = .next t ∧ Kept s t := by
  exact act_kept (by simp (maxDischargeDepth := 40) +contextual)

theorem execScale_kept (cell : Fin 4096) (s : State) : ∃ t, execScale cell s = .next t ∧ Kept s t := by
  exact act_kept (by simp (maxDischargeDepth := 40) +contextual)

theorem execRand_kept (cell : Fin 4096) (s : State) : ∃ t, execRand cell s = .next t ∧ Kept s t := by
  exact act_kept (by simp (maxDischargeDepth := 40) +contextual)

theorem execSetidx_kept (cell : Fin 4096) (s : State) : ∃ t, execSetidx cell s = .next t ∧ Kept s t := by
  exact act_kept (by simp (maxDischargeDepth := 40) +contextual)

theorem execLdi_kept (cell : Fin 4096) (s : State) : ∃ t, execLdi cell s = .next t ∧ Kept s t := by
  exact act_kept (by simp (maxDischargeDepth := 40) +contextual)

theorem execHred_kept (cell : Fin 4096) (s : State) : ∃ t, execHred cell s = .next t ∧ Kept s t := by
  exact act_kept (by simp (maxDischargeDepth := 40) +contextual)

theorem execInstructionResultWrite_kept (s : State) : ∃ t, execInstructionResultWrite s = .next t ∧ Kept s t := by
  exact act_kept (by simp (maxDischargeDepth := 40) +contextual)

/-! ### Xlt -/

theorem execXltWalk_kept (q : Fin 512) (fva : Word) (kind : Access) (ahead : Bool) (s : State) : ∃ t, execXltWalk
    q fva kind ahead s = .next t ∧ Kept s t := by
  exact act_kept (by simp (maxDischargeDepth := 40) +contextual)

theorem execFaultGatherExpiry_kept (tag : BitVec 16) (s : State) : ∃ t, execFaultGatherExpiry tag s = .next t ∧
    Kept s t := by
  refine act_kept ?_
  dsimp only
  repeat' (first | with_reducible apply kept_ite2 | split)
  all_goals simp (maxDischargeDepth := 40) +contextual

theorem execFaultRecordPost_kept (s : State) : ∃ t, execFaultRecordPost s = .next t ∧ Kept s t := by
  refine act_kept ?_
  dsimp only
  repeat' (first | with_reducible apply kept_ite2 | split)
  all_goals simp (maxDischargeDepth := 40) +contextual

theorem execPendingFaultCreate_kept (s : State) : ∃ t, execPendingFaultCreate s = .next t ∧ Kept s t := by
  refine act_kept ?_
  dsimp only
  repeat' (first | with_reducible apply kept_ite2 | split)
  all_goals simp (maxDischargeDepth := 40) +contextual

theorem execFaultRingEnable_kept (side : Side) (val : Word) (s : State) : ∃ t, execFaultRingEnable side val s =
    .next t ∧ Kept s t := by
  exact act_kept (by simp (maxDischargeDepth := 40) +contextual)

theorem execSettleRingEnable_kept (side : Side) (val : Word) (s : State) : ∃ t, execSettleRingEnable side val s =
    .next t ∧ Kept s t := by
  exact act_kept (by simp (maxDischargeDepth := 40) +contextual)

theorem execRetry_kept (side : Side) (tag : BitVec 16) (s : State) : ∃ t, execRetry side tag s = .next t ∧ Kept s
    t := by
  exact act_kept (by simp (maxDischargeDepth := 40) +contextual)

theorem execAbort_kept (side : Side) (tag : BitVec 16) (s : State) : ∃ t, execAbort side tag s = .next t ∧ Kept s
    t := by
  exact act_kept (by simp (maxDischargeDepth := 40) +contextual)

/-! ### Requester -/

theorem execLoadRsp_kept (f : Frame) (s : State) : ∃ t, execLoadRsp f s = .next t ∧ Kept s t := by
  exact act_kept (by simp (maxDischargeDepth := 40) +contextual)

theorem execBulkAck_kept (f : Frame) (s : State) : ∃ t, execBulkAck f s = .next t ∧ Kept s t := by
  exact act_kept (by simp (maxDischargeDepth := 40) +contextual)

theorem execAtomicRsp_kept (f : Frame) (s : State) : ∃ t, execAtomicRsp f s = .next t ∧ Kept s t := by
  exact act_kept (by simp (maxDischargeDepth := 40) +contextual)

theorem execFlaggedStoreRelease_kept (who : Requester) (s : State) : ∃ t, execFlaggedStoreRelease who s = .next t
    ∧ Kept s t := by
  refine act_kept ?_
  (repeat' split) <;> simp (maxDischargeDepth := 40) +contextual

theorem execRequestRetryTimeout_kept (who : Requester) (seq : BitVec 24) (s : State) : ∃ t,
    execRequestRetryTimeout who seq s = .next t ∧ Kept s t := by
  refine act_kept ?_
  (repeat' split) <;> simp (maxDischargeDepth := 40) +contextual

theorem execRequestFinalTimeout_kept (who : Requester) (seq : BitVec 24) (s : State) : ∃ t,
    execRequestFinalTimeout who seq s = .next t ∧ Kept s t := by
  refine act_kept ?_
  (repeat' split) <;> simp (maxDischargeDepth := 40) +contextual

theorem execRetryBusyBackoff_kept (who : Requester) (seq : BitVec 24) (s : State) : ∃ t, execRetryBusyBackoff who
    seq s = .next t ∧ Kept s t := by
  refine act_kept ?_
  (repeat' split) <;> simp (maxDischargeDepth := 40) +contextual

theorem execFenceRequestDeadline_kept (who : Requester) (seq : BitVec 24) (s : State) : ∃ t,
    execFenceRequestDeadline who seq s = .next t ∧ Kept s t := by
  refine act_kept ?_
  (repeat' split) <;> simp (maxDischargeDepth := 40) +contextual

theorem execStatusQueryRetry_kept (who : Requester) (seq : BitVec 24) (s : State) : ∃ t, execStatusQueryRetry who
    seq s = .next t ∧ Kept s t := by
  refine act_kept ?_
  dsimp only
  repeat' (first | with_reducible apply kept_ite2 | split)
  all_goals simp (maxDischargeDepth := 40) +contextual

theorem execStatusRsp_kept (f : Frame) (s : State) : ∃ t, execStatusRsp f s = .next t ∧ Kept s t := by
  refine act_kept (whenTrue_kept (Kept.refl s) _ _ (fun t ht => ?_))
  dsimp only
  split <;> simp [ht]

theorem execSettlementDeadline_kept (who : Requester) (seq : BitVec 24) (s : State) : ∃ t, execSettlementDeadline
    who seq s = .next t ∧ Kept s t := by
  refine act_kept ?_
  (repeat' split) <;> simp (maxDischargeDepth := 40) +contextual

theorem execSettlementRecordPost_kept (s : State) : ∃ t, execSettlementRecordPost s = .next t ∧ Kept s t := by
  refine act_kept ?_
  dsimp only
  repeat' (first | with_reducible apply kept_ite2 | split)
  all_goals simp (maxDischargeDepth := 40) +contextual

theorem execCxlMemRead_kept (hpa : Word) (s : State) : ∃ t, execCxlMemRead hpa s = .next t ∧ Kept s t := by
  exact act_kept (by simp (maxDischargeDepth := 40) +contextual)

theorem execCxlMemWrite_kept (hpa : Word) (data : BitVec 512) (mask : BitVec 64) (s : State) : ∃ t,
    execCxlMemWrite hpa data mask s = .next t ∧ Kept s t := by
  exact act_kept (by simp (maxDischargeDepth := 40) +contextual)

/-! ### Porter -/

theorem execQcfgWrite_kept (side : Side) (q : Fin 512) (val : Word) (s : State) : ∃ t, execQcfgWrite side q val s
    = .next t ∧ Kept s t := by
  exact act_kept (by simp (maxDischargeDepth := 40) +contextual)

theorem execFence_kept (side : Side) (q : Fin 512) (s : State) : ∃ t, execFence side q s = .next t ∧ Kept s t
    := by
  exact act_kept (by simp (maxDischargeDepth := 40) +contextual)

theorem execRestart_kept (side : Side) (q : Fin 512) (s : State) : ∃ t, execRestart side q s = .next t ∧ Kept s t
    := by
  exact act_kept (by simp (maxDischargeDepth := 40) +contextual)

theorem execResetPtrs_kept (side : Side) (q : Fin 512) (s : State) : ∃ t, execResetPtrs side q s = .next t ∧ Kept
    s t := by
  exact act_kept (by simp (maxDischargeDepth := 40) +contextual)

theorem execQueueFenced_kept (q : Fin 512) (s : State) : ∃ t, execQueueFenced q s = .next t ∧ Kept s t := by
  exact act_kept (by simp (maxDischargeDepth := 40) +contextual)

theorem execDoorbellWrite_kept (q : Fin 512) (full : Bool) (val : Word) (s : State) : ∃ t, execDoorbellWrite q
    full val s = .next t ∧ Kept s t := by
  exact act_kept (by simp (maxDischargeDepth := 40) +contextual)

theorem execCmplHeadWrite_kept (q : Fin 512) (full : Bool) (val : Word) (s : State) : ∃ t, execCmplHeadWrite q
    full val s = .next t ∧ Kept s t := by
  exact act_kept (by simp (maxDischargeDepth := 40) +contextual)

theorem execMemoryDoorbellPoll_kept (q : Fin 512) (s : State) : ∃ t, execMemoryDoorbellPoll q s = .next t ∧ Kept s
    t := by
  exact act_kept (by simp (maxDischargeDepth := 40) +contextual)

theorem execDescriptorFetch_kept (q : Fin 512) (host : List (BitVec 512)) (s : State) : ∃ t, execDescriptorFetch q
    host s = .next t ∧ Kept s t := by
  exact act_kept (by simp (maxDischargeDepth := 40) +contextual)

theorem execNop_kept (q : Fin 512) (s : State) : ∃ t, execNop q s = .next t ∧ Kept s t := by
  exact act_kept (by simp (maxDischargeDepth := 40) +contextual)

theorem execCopy_kept (q : Fin 512) (s : State) : ∃ t, execCopy q s = .next t ∧ Kept s t := by
  exact act_kept (by simp (maxDischargeDepth := 40) +contextual)

theorem execGather_kept (q : Fin 512) (s : State) : ∃ t, execGather q s = .next t ∧ Kept s t := by
  exact act_kept (by simp (maxDischargeDepth := 40) +contextual)

theorem execScatter_kept (q : Fin 512) (s : State) : ∃ t, execScatter q s = .next t ∧ Kept s t := by
  exact act_kept (by simp (maxDischargeDepth := 40) +contextual)

theorem execFill_kept (q : Fin 512) (s : State) : ∃ t, execFill q s = .next t ∧ Kept s t := by
  exact act_kept (by simp (maxDischargeDepth := 40) +contextual)

theorem execSignal_kept (q : Fin 512) (s : State) : ∃ t, execSignal q s = .next t ∧ Kept s t := by
  exact act_kept (by simp (maxDischargeDepth := 40) +contextual)

theorem execWait_kept (q : Fin 512) (s : State) : ∃ t, execWait q s = .next t ∧ Kept s t := by
  exact act_kept (by simp (maxDischargeDepth := 40) +contextual)

theorem execPrefetch_kept (q : Fin 512) (s : State) : ∃ t, execPrefetch q s = .next t ∧ Kept s t := by
  exact act_kept (by simp (maxDischargeDepth := 40) +contextual)

theorem execAdvise_kept (q : Fin 512) (s : State) : ∃ t, execAdvise q s = .next t ∧ Kept s t := by
  exact act_kept (by simp (maxDischargeDepth := 40) +contextual)

theorem execRekey_kept (q : Fin 512) (s : State) : ∃ t, execRekey q s = .next t ∧ Kept s t := by
  exact act_kept (by simp (maxDischargeDepth := 40) +contextual)

theorem execWaitPoll_kept (q : Fin 512) (s : State) : ∃ t, execWaitPoll q s = .next t ∧ Kept s t := by
  refine act_kept ?_
  (repeat' split) <;> simp (maxDischargeDepth := 40) +contextual

theorem execWaitTimeout_kept (q : Fin 512) (s : State) : ∃ t, execWaitTimeout q s = .next t ∧ Kept s t := by
  refine act_kept ?_
  dsimp only
  repeat' (first | with_reducible apply kept_ite2 | split)
  all_goals simp (maxDischargeDepth := 40) +contextual

theorem execDescriptorComplete_kept (q : Fin 512) (s : State) : ∃ t, execDescriptorComplete q s = .next t ∧ Kept s
    t := by
  exact act_kept (by simp (maxDischargeDepth := 40) +contextual)

/-! ### Routes -/

theorem execRouteRun_kept (q : Fin 512) (s : State) : ∃ t, execRouteRun q s = .next t ∧ Kept s t := by
  exact act_kept (by simp (maxDischargeDepth := 40) +contextual)

theorem execRoutePreload_kept (q : Fin 512) (s : State) : ∃ t, execRoutePreload q s = .next t ∧ Kept s t := by
  exact act_kept (by simp (maxDischargeDepth := 40) +contextual)

theorem execRoomGrant_kept (s : State) : ∃ t, execRoomGrant s = .next t ∧ Kept s t := by
  refine act_kept ?_
  dsimp only
  repeat' (first | with_reducible apply kept_ite2 | split)
  all_goals first
    | exact Kept.refl s
    | (rename_i r l t e
       unfold grantAllRows at e
       split at e
       · simp only [Option.some.injEq, Prod.mk.injEq] at e
         obtain ⟨_, rfl⟩ := e
         simp [takeRooms]
       · cases e)

theorem execRoomSaveDone_kept (q : Fin 512) (s : State) : ∃ t, execRoomSaveDone q s = .next t ∧ Kept s t := by
  refine act_kept ?_
  (repeat' split) <;> simp (maxDischargeDepth := 40) +contextual

theorem execRunStart_kept (s : State) : ∃ t, execRunStart s = .next t ∧ Kept s t := by
  exact act_kept (by simp (maxDischargeDepth := 40) +contextual)

theorem execShadowLoadStart_kept (s : State) : ∃ t, execShadowLoadStart s = .next t ∧ Kept s t := by
  refine act_kept ?_
  (repeat' split) <;> simp (maxDischargeDepth := 40) +contextual

theorem execShadowLoadDone_kept (s : State) : ∃ t, execShadowLoadDone s = .next t ∧ Kept s t := by
  exact act_kept (by simp (maxDischargeDepth := 40) +contextual)

theorem execRunLimitExpiry_kept (s : State) : ∃ t, execRunLimitExpiry s = .next t ∧ Kept s t := by
  refine act_kept ?_
  (repeat' split) <;> simp (maxDischargeDepth := 40) +contextual

/-! ### Caravan -/

theorem execCollStart_kept (q : Fin 512) (s : State) : ∃ t, execCollStart q s = .next t ∧ Kept s t := by
  exact act_kept (by simp (maxDischargeDepth := 40) +contextual)

theorem execAdmitTimeout_kept (g : Fin 256) (epoch : BitVec 8) (s : State) : ∃ t, execAdmitTimeout g epoch s =
    .next t ∧ Kept s t := by
  refine act_kept ?_
  (repeat' split) <;> simp (maxDischargeDepth := 40) +contextual

theorem execSendOffer_kept (g : Fin 256) (epoch : BitVec 8) (st : CollStep) (s : State) : ∃ t, execSendOffer g
    epoch st s = .next t ∧ Kept s t := by
  refine act_kept ?_
  dsimp only
  repeat' (first | with_reducible apply kept_ite2 | split)
  all_goals simp (maxDischargeDepth := 40) +contextual

theorem execSendInvite_kept (g : Fin 256) (epoch : BitVec 8) (st : CollStep) (s : State) : ∃ t, execSendInvite g
    epoch st s = .next t ∧ Kept s t := by
  refine act_kept ?_
  (repeat' split) <;> simp (maxDischargeDepth := 40) +contextual

theorem execCollData_kept (f : Frame) (s : State) : ∃ t, execCollData f s = .next t ∧ Kept s t := by
  exact act_kept (by simp (maxDischargeDepth := 40) +contextual)

theorem execInviteRepeatTimeout_kept (g : Fin 256) (epoch : BitVec 8) (st : CollStep) (input : BitVec 16) (s :
    State) : ∃ t, execInviteRepeatTimeout g epoch st input s = .next t ∧ Kept s t := by
  refine act_kept ?_
  (repeat' split) <;> simp (maxDischargeDepth := 40) +contextual

theorem execRunEnd_kept (s : State) : ∃ t, execRunEnd s = .next t ∧ Kept s t := by
  exact act_kept (by simp (maxDischargeDepth := 40) +contextual)

theorem execSealSignal_kept (g : Fin 256) (epoch : BitVec 8) (chunk : Nat) (s : State) : ∃ t, execSealSignal g
    epoch chunk s = .next t ∧ Kept s t := by
  refine act_kept ?_
  (repeat' split) <;> simp (maxDischargeDepth := 40) +contextual

theorem execSealWaitTimeout_kept (g : Fin 256) (epoch : BitVec 8) (chunk : Nat) (s : State) : ∃ t,
    execSealWaitTimeout g epoch chunk s = .next t ∧ Kept s t := by
  refine act_kept ?_
  (repeat' split) <;> simp (maxDischargeDepth := 40) +contextual

theorem execCollectiveStart_kept (g : Fin 256) (s : State) : ∃ t, execCollectiveStart g s = .next t ∧ Kept s t
    := by
  exact act_kept (by simp (maxDischargeDepth := 40) +contextual)

theorem execCollectiveAdmit_kept (s : State) : ∃ t, execCollectiveAdmit s = .next t ∧ Kept s t := by
  exact act_kept (by simp (maxDischargeDepth := 40) +contextual)

theorem execRequestIssue_kept (who : Requester) (s : State) : ∃ t, execRequestIssue who s = .next t ∧ Kept s t
    := by
  refine act_kept ?_
  (repeat' split) <;> simp (maxDischargeDepth := 40) +contextual

theorem execOffer_kept (f : Frame) (s : State) : ∃ t, execOffer f s = .next t ∧ Kept s t := by
  exact act_kept (by simp (maxDischargeDepth := 40) +contextual)

theorem execInvite_kept (f : Frame) (s : State) : ∃ t, execInvite f s = .next t ∧ Kept s t := by
  exact act_kept (by simp (maxDischargeDepth := 40) +contextual)

theorem execStepResultStaged_kept (g : Fin 256) (epoch : BitVec 8) (st : CollStep) (s : State) : ∃ t,
    execStepResultStaged g epoch st s = .next t ∧ Kept s t := by
  refine act_kept ?_
  (repeat' split) <;> simp (maxDischargeDepth := 40) +contextual

theorem execCollResult_kept (f : Frame) (s : State) : ∃ t, execCollResult f s = .next t ∧ Kept s t := by
  exact act_kept (by simp (maxDischargeDepth := 40) +contextual)

theorem execChunkReadbackDone_kept (g : Fin 256) (epoch : BitVec 8) (chunk : Nat) (clean : Bool) (s : State) : ∃
    t, execChunkReadbackDone g epoch chunk clean s = .next t ∧ Kept s t := by
  refine act_kept ?_
  (repeat' split) <;> simp (maxDischargeDepth := 40) +contextual

theorem execSeal_kept (f : Frame) (s : State) : ∃ t, execSeal f s = .next t ∧ Kept s t := by
  exact act_kept (by simp (maxDischargeDepth := 40) +contextual)

theorem execStoreAck_kept (f : Frame) (s : State) : ∃ t, execStoreAck f s = .next t ∧ Kept s t := by
  exact act_kept (by simp (maxDischargeDepth := 40) +contextual)

theorem execSealRepeatTimeout_kept (g : Fin 256) (epoch : BitVec 8) (chunk : Nat) (eid : BitVec 16) (s : State) :
    ∃ t, execSealRepeatTimeout g epoch chunk eid s = .next t ∧ Kept s t := by
  refine act_kept ?_
  (repeat' split) <;> simp (maxDischargeDepth := 40) +contextual

theorem execVoid_kept (f : Frame) (s : State) : ∃ t, execVoid f s = .next t ∧ Kept s t := by
  exact act_kept (by simp (maxDischargeDepth := 40) +contextual)

theorem execGroupWrite_kept (side : Side) (g : Fin 256) (word : Fin 3) (val : Word) (s : State) : ∃ t,
    execGroupWrite side g word val s = .next t ∧ Kept s t := by
  exact act_kept (by simp (maxDischargeDepth := 40) +contextual)

theorem execQuotaWrite_kept (side : Side) (n : Fin 64) (val : Word) (s : State) : ∃ t, execQuotaWrite side n val s
    = .next t ∧ Kept s t := by
  exact act_kept (by simp (maxDischargeDepth := 40) +contextual)

/-! ### Switch -/

theorem execFrameIngress_kept (input : Fin 48) (f : Frame) (s : State) : ∃ t, execFrameIngress input f s = .next t
    ∧ Kept s t := by
  exact act_kept (by simp (maxDischargeDepth := 40) +contextual)

theorem execFrameDepart_kept (output : Fin 48) (s : State) : ∃ t, execFrameDepart output s = .next t ∧ Kept s t
    := by
  exact act_kept (by simp (maxDischargeDepth := 40) +contextual)

theorem execFrameAgeExpiry_kept (pos : Nat) (s : State) : ∃ t, execFrameAgeExpiry pos s = .next t ∧ Kept s t := by
  exact act_kept (by simp (maxDischargeDepth := 40) +contextual)

theorem execBufferAudit_kept (s : State) : ∃ t, execBufferAudit s = .next t ∧ Kept s t := by
  exact act_kept (by simp (maxDischargeDepth := 40) +contextual)

theorem execCmapSample_kept (s : State) : ∃ t, execCmapSample s = .next t ∧ Kept s t := by
  exact act_kept (by simp (maxDischargeDepth := 40) +contextual)

theorem execSnap_kept (side : Side) (s : State) : ∃ t, execSnap side s = .next t ∧ Kept s t := by
  exact act_kept (by simp (maxDischargeDepth := 40) +contextual)

theorem execSnapClear_kept (side : Side) (s : State) : ∃ t, execSnapClear side s = .next t ∧ Kept s t := by
  exact act_kept (by simp (maxDischargeDepth := 40) +contextual)

theorem execCmapSnapshotTake_kept (s : State) : ∃ t, execCmapSnapshotTake s = .next t ∧ Kept s t := by
  exact act_kept (by simp (maxDischargeDepth := 40) +contextual)

theorem execClassCfgWrite_kept (side : Side) (c : Fin 8) (val : Word) (s : State) : ∃ t, execClassCfgWrite side c
    val s = .next t ∧ Kept s t := by
  exact act_kept (by simp (maxDischargeDepth := 40) +contextual)

theorem execMeterWrite_kept (side : Side) (n : Fin 128) (burst : Bool) (val : Word) (s : State) : ∃ t,
    execMeterWrite side n burst val s = .next t ∧ Kept s t := by
  exact act_kept (by simp (maxDischargeDepth := 40) +contextual)

theorem execRedWrite_kept (side : Side) (k : Fin 3) (val : Word) (s : State) : ∃ t, execRedWrite side k val s =
    .next t ∧ Kept s t := by
  exact act_kept (by simp (maxDischargeDepth := 40) +contextual)

theorem execLock_kept (side : Side) (s : State) : ∃ t, execLock side s = .next t ∧ Kept s t := by
  exact act_kept (by simp (maxDischargeDepth := 40) +contextual)

theorem execRouteEntryWrite_kept (side : Side) (p : BitVec 12) (val : Word) (s : State) : ∃ t, execRouteEntryWrite
    side p val s = .next t ∧ Kept s t := by
  exact act_kept (by simp (maxDischargeDepth := 40) +contextual)

theorem execDrained_kept (s : State) : ∃ t, execDrained s = .next t ∧ Kept s t := by
  exact act_kept (by simp (maxDischargeDepth := 40) +contextual)

/-! ### Links -/

theorem execSignalDetect_kept (p : Fin 36) (lanes : BitVec 8) (s : State) : ∃ t, execSignalDetect p lanes s =
    .next t ∧ Kept s t := by
  exact act_kept (by simp (maxDischargeDepth := 40) +contextual)

theorem execCalibrateDone_kept (p : Fin 36) (s : State) : ∃ t, execCalibrateDone p s = .next t ∧ Kept s t := by
  exact act_kept (by simp (maxDischargeDepth := 40) +contextual)

theorem execAlignDone_kept (p : Fin 36) (s : State) : ∃ t, execAlignDone p s = .next t ∧ Kept s t := by
  exact act_kept (by simp (maxDischargeDepth := 40) +contextual)

theorem execFecLockDone_kept (p : Fin 36) (s : State) : ∃ t, execFecLockDone p s = .next t ∧ Kept s t := by
  exact act_kept (by simp (maxDischargeDepth := 40) +contextual)

theorem execDeskewDone_kept (p : Fin 36) (blocks : List AlignRx) (s : State) : ∃ t, execDeskewDone p blocks s =
    .next t ∧ Kept s t := by
  exact act_kept (by simp (maxDischargeDepth := 40) +contextual)

theorem execInitRecord_kept (p : Fin 36) (record : BitVec 256) (credits : BitVec 96) (acked : Bool) (s : State) :
    ∃ t, execInitRecord p record credits acked s = .next t ∧ Kept s t := by
  exact act_kept (by simp (maxDischargeDepth := 40) +contextual)

theorem execTrainingTimeout_kept (p : Fin 36) (s : State) : ∃ t, execTrainingTimeout p s = .next t ∧ Kept s t
    := by
  refine act_kept ?_
  dsimp only
  repeat' (first | with_reducible apply kept_ite2 | split)
  all_goals simp (maxDischargeDepth := 40) +contextual

theorem execFlitReceive_kept (p : Fin 36) (ctl : BitVec 256) (slots : List (BitVec 256)) (words : List CodewordRx)
    (s : State) : ∃ t, execFlitReceive p ctl slots words s = .next t ∧ Kept s t := by
  exact act_kept (by simp (maxDischargeDepth := 40) +contextual)

theorem execReplayTimeout_kept (p : Fin 36) (s : State) : ∃ t, execReplayTimeout p s = .next t ∧ Kept s t := by
  exact act_kept (by simp (maxDischargeDepth := 40) +contextual)

theorem execLaneFail_kept (p : Fin 36) (lane : Fin 8) (s : State) : ∃ t, execLaneFail p lane s = .next t ∧ Kept s
    t := by
  exact act_kept (by simp (maxDischargeDepth := 40) +contextual)

theorem execPortLost_kept (p : Fin 36) (s : State) : ∃ t, execPortLost p s = .next t ∧ Kept s t := by
  exact act_kept (by simp (maxDischargeDepth := 40) +contextual)

theorem execIdleEntry_kept (p : Fin 36) (s : State) : ∃ t, execIdleEntry p s = .next t ∧ Kept s t := by
  exact act_kept (by simp (maxDischargeDepth := 40) +contextual)

theorem execWake_kept (p : Fin 36) (s : State) : ∃ t, execWake p s = .next t ∧ Kept s t := by
  exact act_kept (by simp (maxDischargeDepth := 40) +contextual)

theorem execWakeReceive_kept (p : Fin 36) (s : State) : ∃ t, execWakeReceive p s = .next t ∧ Kept s t := by
  exact act_kept (by simp (maxDischargeDepth := 40) +contextual)

theorem execWakeTimeout_kept (p : Fin 36) (s : State) : ∃ t, execWakeTimeout p s = .next t ∧ Kept s t := by
  refine act_kept ?_
  dsimp only
  repeat' (first | with_reducible apply kept_ite2 | split)
  all_goals simp (maxDischargeDepth := 40) +contextual

theorem execPortCfgWrite_kept (side : Side) (p : Fin 36) (val : Word) (s : State) : ∃ t, execPortCfgWrite side p
    val s = .next t ∧ Kept s t := by
  exact act_kept (by simp (maxDischargeDepth := 40) +contextual)

theorem execPortRetrain_kept (side : Side) (p : Fin 36) (s : State) : ∃ t, execPortRetrain side p s = .next t ∧
    Kept s t := by
  exact act_kept (by simp (maxDischargeDepth := 40) +contextual)

theorem execDown_kept (side : Side) (p : Fin 36) (s : State) : ∃ t, execDown side p s = .next t ∧ Kept s t := by
  exact act_kept (by simp (maxDischargeDepth := 40) +contextual)

theorem execClearCounts_kept (side : Side) (p : Fin 36) (s : State) : ∃ t, execClearCounts side p s = .next t ∧
    Kept s t := by
  exact act_kept (by simp (maxDischargeDepth := 40) +contextual)

theorem execPortTestWrite_kept (side : Side) (p : Fin 36) (val : Word) (s : State) : ∃ t, execPortTestWrite side p
    val s = .next t ∧ Kept s t := by
  exact act_kept (by simp (maxDischargeDepth := 40) +contextual)

theorem execCheckerSync_kept (p : Fin 36) (lane : Fin 8) (s : State) : ∃ t, execCheckerSync p lane s = .next t ∧
    Kept s t := by
  exact act_kept (by simp (maxDischargeDepth := 40) +contextual)

theorem execCheckerSyncLost_kept (p : Fin 36) (lane : LaneErrors) (s : State) : ∃ t, execCheckerSyncLost
    p lane s = .next t ∧ Kept s t := by
  refine act_kept ?_
  dsimp only
  repeat' (first | with_reducible apply kept_ite2 | split)
  all_goals simp (maxDischargeDepth := 40) +contextual

/-! ### Clock -/

theorem execMeasure_kept (side : Side) (s : State) : ∃ t, execMeasure side s = .next t ∧ Kept s t := by
  exact act_kept (by simp (maxDischargeDepth := 40) +contextual)

theorem execMeasureExchange_kept (x : Unit) (s : State) : ∃ t, execMeasureExchange x s = .next t ∧ Kept s t := by
  refine act_kept ?_
  dsimp only
  repeat' (first | with_reducible apply kept_ite2 | split)
  all_goals simp (maxDischargeDepth := 40) +contextual

theorem execMeasureDone_kept (s : State) : ∃ t, execMeasureDone s = .next t ∧ Kept s t := by
  exact act_kept (by simp (maxDischargeDepth := 40) +contextual)

theorem execLockExchange_kept (x y : Unit) (s : State) : ∃ t, execLockExchange x y s = .next t ∧ Kept s t := by
  refine act_kept ?_
  dsimp only
  repeat' (first | with_reducible apply kept_ite2 | split)
  all_goals simp (maxDischargeDepth := 40) +contextual

theorem execTimCfgWrite_kept (side : Side) (val : Word) (s : State) : ∃ t, execTimCfgWrite side val s = .next t ∧
    Kept s t := by
  exact act_kept (by simp (maxDischargeDepth := 40) +contextual)

theorem execTimeSyncPulse_kept (s : State) : ∃ t, execTimeSyncPulse s = .next t ∧ Kept s t := by
  exact act_kept (by simp (maxDischargeDepth := 40) +contextual)

theorem execTimeSyncEdge_kept (s : State) : ∃ t, execTimeSyncEdge s = .next t ∧ Kept s t := by
  exact act_kept (by simp (maxDischargeDepth := 40) +contextual)

theorem execTimeQuery_kept (port : Fin 8) (f : Frame) (s : State) : ∃ t, execTimeQuery port f s = .next t ∧ Kept s
    t := by
  exact act_kept (by simp (maxDischargeDepth := 40) +contextual)

/-! ### Counters -/

theorem execLatch_kept (side : Side) (s : State) : ∃ t, execLatch side s = .next t ∧ Kept s t := by
  exact act_kept (by simp (maxDischargeDepth := 40) +contextual)

theorem execCounterLatchTake_kept (s : State) : ∃ t, execCounterLatchTake s = .next t ∧ Kept s t := by
  exact act_kept (by simp (maxDischargeDepth := 40) +contextual)

theorem execProfSelWrite_kept (side : Side) (b : Fin 14) (i : Fin 64) (val : Word) (s : State) : ∃ t,
    execProfSelWrite side b i val s = .next t ∧ Kept s t := by
  exact act_kept (by simp (maxDischargeDepth := 40) +contextual)

end Sys2Proof.Machine
end

