-- ==== Sys2Proof/Laws/KeptExecB.lean ====
section
/-! SUPPORT. Every command answers a next state that keeps what Laws/Kept.lean says (second half of the commands). -/
set_option maxRecDepth 4000
namespace Sys2Proof.Machine

/-! ### Rope -/

theorem execModeWrite_kept (side : Side) (val : Word) (s : State) : ∃ t, execModeWrite side val s = .next t ∧ Kept
    s t := by
  exact act_kept (by simp (maxDischargeDepth := 40) +contextual)

theorem execRopeCfgWrite_kept (side : Side) (val : Word) (s : State) : ∃ t, execRopeCfgWrite side val s = .next t
    ∧ Kept s t := by
  exact act_kept (by simp (maxDischargeDepth := 40) +contextual)

theorem execRopePairForm_kept (peer : Word) (peerConsents : Bool) (s : State) : ∃ t, execRopePairForm peer
    peerConsents s = .next t ∧ Kept s t := by
  exact act_kept (by simp (maxDischargeDepth := 40) +contextual)

theorem execRopeCrcCompare_kept (crc : Word) (s : State) : ∃ t, execRopeCrcCompare crc s = .next t ∧ Kept s t
    := by
  refine act_kept ?_
  dsimp only
  repeat' (first | with_reducible apply kept_ite2 | split)
  all_goals simp (maxDischargeDepth := 40) +contextual

theorem execRopeCaptureDone_kept (sigs : List (BitVec 32)) (s : State) : ∃ t, execRopeCaptureDone sigs s = .next t
    ∧ Kept s t := by
  refine act_kept ?_
  (repeat' split) <;> simp (maxDischargeDepth := 40) +contextual

theorem execRelease_kept (side : Side) (s : State) : ∃ t, execRelease side s = .next t ∧ Kept s t := by
  exact act_kept (by simp (maxDischargeDepth := 40) +contextual)

theorem execRearm_kept (side : Side) (s : State) : ∃ t, execRearm side s = .next t ∧ Kept s t := by
  exact act_kept (by simp (maxDischargeDepth := 40) +contextual)

theorem execRopeInputReceive_kept (kind : RopeInput) (bytes : List Byte) (s : State) : ∃ t, execRopeInputReceive
    kind bytes s = .next t ∧ Kept s t := by
  exact act_kept (by simp (maxDischargeDepth := 40) +contextual)

/-! ### Withdraw -/

theorem execUnmap_kept (q : Fin 512) (s : State) : ∃ t, execUnmap q s = .next t ∧ Kept s t := by
  exact act_kept (by simp (maxDischargeDepth := 40) +contextual)

theorem execMigrate_kept (q : Fin 512) (s : State) : ∃ t, execMigrate q s = .next t ∧ Kept s t := by
  exact act_kept (by simp (maxDischargeDepth := 40) +contextual)

theorem execXltInvalDone_kept (f : Frame) (s : State) : ∃ t, execXltInvalDone f s = .next t ∧ Kept s t := by
  refine act_kept ?_
  dsimp only
  repeat' (first | with_reducible apply kept_ite2 | split)
  all_goals simp (maxDischargeDepth := 40) +contextual

theorem execUnmapComplete_kept (q : Fin 512) (s : State) : ∃ t, execUnmapComplete q s = .next t ∧ Kept s t := by
  refine act_kept ?_
  (repeat' split) <;> simp (maxDischargeDepth := 40) +contextual

theorem execUnmapTimeout_kept (q : Fin 512) (s : State) : ∃ t, execUnmapTimeout q s = .next t ∧ Kept s t := by
  refine act_kept ?_
  dsimp only
  repeat' (first | with_reducible apply kept_ite2 | split)
  all_goals simp (maxDischargeDepth := 40) +contextual

theorem execMigrateWithdrawDone_kept (q : Fin 512) (s : State) : ∃ t, execMigrateWithdrawDone q s = .next t ∧ Kept
    s t := by
  refine act_kept ?_
  (repeat' split) <;> simp (maxDischargeDepth := 40) +contextual

theorem execMigrateCopyDone_kept (q : Fin 512) (s : State) : ∃ t, execMigrateCopyDone q s = .next t ∧ Kept s t
    := by
  refine act_kept ?_
  dsimp only
  repeat' (first | with_reducible apply kept_ite2 | split)
  all_goals simp (maxDischargeDepth := 40) +contextual

/-! ### Tenants -/

theorem execInstall_kept (env : Envelope) (msg : InstallMsg) (s : State) : ∃ t, execInstall env msg s = .next t ∧
    Kept s t := by
  exact act_kept (by simp (maxDischargeDepth := 40) +contextual)

theorem execPermit_kept (env : Envelope) (rec_ : BitVec 192) (s : State) : ∃ t, execPermit env rec_ s = .next t ∧
    Kept s t := by
  exact act_kept (by simp (maxDischargeDepth := 40) +contextual)

theorem execRevoke_kept (env : Envelope) (number : BitVec 16) (mac : BitVec 128) (s : State) : ∃ t, execRevoke env
    number mac s = .next t ∧ Kept s t := by
  exact act_kept (by simp (maxDischargeDepth := 40) +contextual)

theorem execBind_kept (side : Side) (slot : Fin 64) (partition : BitVec 8) (gen : BitVec 8) (s : State) : ∃ t,
    execBind side slot partition gen s = .next t ∧ Kept s t := by
  exact act_kept (by simp (maxDischargeDepth := 40) +contextual)

theorem execOpenSlot_kept (side : Side) (slot : Fin 64) (s : State) : ∃ t, execOpenSlot side slot s = .next t ∧
    Kept s t := by
  exact act_kept (by simp (maxDischargeDepth := 40) +contextual)

theorem execOpenDigestDone_kept (s : State) : ∃ t, execOpenDigestDone s = .next t ∧ Kept s t := by
  refine act_kept ?_
  dsimp only
  repeat' (first | with_reducible apply kept_ite2 | split)
  all_goals simp (maxDischargeDepth := 40) +contextual

theorem execGrant_kept (side : Side) (slot : Fin 64) (first : BitVec 8) (count : BitVec 8) (s : State) : ∃ t,
    execGrant side slot first count s = .next t ∧ Kept s t := by
  exact act_kept (by simp (maxDischargeDepth := 40) +contextual)

theorem execGrantShared_kept (side : Side) (slot : Fin 64) (first : BitVec 8) (count : BitVec 8) (s : State) : ∃
    t, execGrantShared side slot first count s = .next t ∧ Kept s t := by
  exact act_kept (by simp (maxDischargeDepth := 40) +contextual)

theorem execReleasePages_kept (side : Side) (slot : Fin 64) (first : BitVec 8) (count : BitVec 8) (s : State) : ∃
    t, execReleasePages side slot first count s = .next t ∧ Kept s t := by
  exact act_kept (by simp (maxDischargeDepth := 40) +contextual)

theorem execStage_kept (side : Side) (slot : Fin 64) (s : State) : ∃ t, execStage side slot s = .next t ∧ Kept s t
    := by
  exact act_kept (by simp (maxDischargeDepth := 40) +contextual)

theorem execSwitch_kept (side : Side) (slot : Fin 64) (s : State) : ∃ t, execSwitch side slot s = .next t ∧ Kept s
    t := by
  exact act_kept (by simp (maxDischargeDepth := 40) +contextual)

theorem execRotationAnswer_kept (f : Frame) (s : State) : ∃ t, execRotationAnswer f s = .next t ∧ Kept s t := by
  refine act_kept ?_
  dsimp only
  repeat' (first | with_reducible apply kept_ite2 | split)
  all_goals simp (maxDischargeDepth := 40) +contextual

theorem execRotationAnswerTimeout_kept (s : State) : ∃ t, execRotationAnswerTimeout s = .next t ∧ Kept s t := by
  refine act_kept ?_
  (repeat' split) <;> simp (maxDischargeDepth := 40) +contextual

theorem execRotationWindowExpiry_kept (slot : Fin 64) (s : State) : ∃ t, execRotationWindowExpiry slot s = .next t
    ∧ Kept s t := by
  refine act_kept ?_
  dsimp only
  repeat' (first | with_reducible apply kept_ite2 | split)
  all_goals simp (maxDischargeDepth := 40) +contextual

theorem execClose_kept (side : Side) (slot : Fin 64) (s : State) : ∃ t, execClose side slot s = .next t ∧ Kept s t
    := by
  exact act_kept (by simp (maxDischargeDepth := 40) +contextual)

theorem execCloseDrainDone_kept (slot : Fin 64) (s : State) : ∃ t, execCloseDrainDone slot s = .next t ∧ Kept s t
    := by
  exact act_kept (by simp (maxDischargeDepth := 40) +contextual)

theorem execClearingDone_kept (slot : Fin 64) (s : State) : ∃ t, execClearingDone slot s = .next t ∧ Kept s t
    := by
  exact act_kept (by simp (maxDischargeDepth := 40) +contextual)

/-! ### Stacks -/

theorem execRefresh_kept (k : Fin 6) (s : State) : ∃ t, execRefresh k s = .next t ∧ Kept s t := by
  exact act_kept (by simp (maxDischargeDepth := 40) +contextual)

theorem execStackTempSample_kept (k : Fin 6) (temp : BitVec 8) (s : State) : ∃ t, execStackTempSample k temp s =
    .next t ∧ Kept s t := by
  exact act_kept (by simp (maxDischargeDepth := 40) +contextual)

theorem execStackRetrainRequest_kept (side : Side) (k : Fin 6) (s : State) : ∃ t, execStackRetrainRequest side k s
    = .next t ∧ Kept s t := by
  exact act_kept (by simp (maxDischargeDepth := 40) +contextual)

theorem execStackRetrainDone_kept (k : Fin 6) (s : State) : ∃ t, execStackRetrainDone k s = .next t ∧ Kept s t
    := by
  exact act_kept (by simp (maxDischargeDepth := 40) +contextual)

theorem execMemClear_kept (side : Side) (val : Word) (s : State) : ∃ t, execMemClear side val s = .next t ∧ Kept s
    t := by
  exact act_kept (by simp (maxDischargeDepth := 40) +contextual)

theorem execClearDone_kept (page : Fin 184) (s : State) : ∃ t, execClearDone page s = .next t ∧ Kept s t := by
  exact act_kept (by simp (maxDischargeDepth := 40) +contextual)

theorem execMemInjectWrite_kept (side : Side) (k : Fin 6) (val : Word) (s : State) : ∃ t, execMemInjectWrite side
    k val s = .next t ∧ Kept s t := by
  exact act_kept (by simp (maxDischargeDepth := 40) +contextual)

/-! ### Served -/

theorem execLoad_kept (port : Fin 8) (f : Frame) (s : State) : ∃ t, execLoad port f s = .next t ∧ Kept s t := by
  exact act_kept (by simp (maxDischargeDepth := 40) +contextual)

theorem execStore_kept (port : Fin 8) (f : Frame) (s : State) : ∃ t, execStore port f s = .next t ∧ Kept s t := by
  exact act_kept (by simp (maxDischargeDepth := 40) +contextual)

theorem execStoreFlagged_kept (port : Fin 8) (f : Frame) (s : State) : ∃ t, execStoreFlagged port f s = .next t ∧
    Kept s t := by
  exact act_kept (by simp (maxDischargeDepth := 40) +contextual)

theorem execBulkData_kept (port : Fin 8) (f : Frame) (s : State) : ∃ t, execBulkData port f s = .next t ∧ Kept s t
    := by
  exact act_kept (by simp (maxDischargeDepth := 40) +contextual)

theorem execAtomic_kept (port : Fin 8) (f : Frame) (s : State) : ∃ t, execAtomic port f s = .next t ∧ Kept s t
    := by
  exact act_kept (by simp (maxDischargeDepth := 40) +contextual)

theorem execCombineApply_kept (line : BitVec 40) (s : State) : ∃ t, execCombineApply line s = .next t ∧ Kept s t
    := by
  exact act_kept (by simp (maxDischargeDepth := 40) +contextual)

theorem execAtomicApply_kept (line : BitVec 40) (s : State) : ∃ t, execAtomicApply line s = .next t ∧ Kept s t
    := by
  exact act_kept (by simp (maxDischargeDepth := 40) +contextual)

theorem execScrubRead_kept (k : Fin 6) (s : State) : ∃ t, execScrubRead k s = .next t ∧ Kept s t := by
  exact act_kept (by simp (maxDischargeDepth := 40) +contextual)

theorem execColumnBusTransfer_kept (cell : Fin 4096) (inward : Bool) (s : State) : ∃ t, execColumnBusTransfer cell
    inward s = .next t ∧ Kept s t := by
  exact act_kept (by simp (maxDischargeDepth := 40) +contextual)

theorem execRoomLoadDone_kept (q : Fin 512) (s : State) : ∃ t, execRoomLoadDone q s = .next t ∧ Kept s t := by
  exact act_kept (by simp (maxDischargeDepth := 40) +contextual)

/-! ### SideBand -/

theorem execOwnerGet_kept (inst : Byte) (s : State) : ∃ t, execOwnerGet inst s = .next t ∧ Kept s t := by
  exact act_kept (by simp (maxDischargeDepth := 40) +contextual)

theorem execOwnerSet_kept (inst : Byte) (mask : BitVec 16) (s : State) : ∃ t, execOwnerSet inst mask s = .next t ∧
    Kept s t := by
  exact act_kept (by simp (maxDischargeDepth := 40) +contextual)

theorem execCapSet_kept (inst : Byte) (cap : BitVec 16) (s : State) : ∃ t, execCapSet inst cap s = .next t ∧ Kept
    s t := by
  exact act_kept (by simp (maxDischargeDepth := 40) +contextual)

theorem execCapApplied_kept (s : State) : ∃ t, execCapApplied s = .next t ∧ Kept s t := by
  refine act_kept ?_
  dsimp only
  repeat' (first | with_reducible apply kept_ite2 | split)
  all_goals simp (maxDischargeDepth := 40) +contextual

theorem execCapGet_kept (inst : Byte) (s : State) : ∃ t, execCapGet inst s = .next t ∧ Kept s t := by
  exact act_kept (by simp (maxDischargeDepth := 40) +contextual)

theorem execLeaseExpiry_kept (s : State) : ∃ t, execLeaseExpiry s = .next t ∧ Kept s t := by
  refine act_kept ?_
  dsimp only
  repeat' (first | with_reducible apply kept_ite2 | split)
  all_goals simp (maxDischargeDepth := 40) +contextual

theorem execSnapshot_kept (inst : Byte) (s : State) : ∃ t, execSnapshot inst s = .next t ∧ Kept s t := by
  exact act_kept (by simp (maxDischargeDepth := 40) +contextual)

theorem execCapture_kept (side : Side) (s : State) : ∃ t, execCapture side s = .next t ∧ Kept s t := by
  exact act_kept (by simp (maxDischargeDepth := 40) +contextual)

theorem execCairnDone_kept (s : State) : ∃ t, execCairnDone s = .next t ∧ Kept s t := by
  refine act_kept ?_
  dsimp only
  repeat' (first | with_reducible apply kept_ite2 | split)
  all_goals simp (maxDischargeDepth := 40) +contextual

theorem execSnapRead_kept (inst : Byte) (number : BitVec 32) (off : BitVec 32) (length : BitVec 16) (s : State) :
    ∃ t, execSnapRead inst number off length s = .next t ∧ Kept s t := by
  exact act_kept (by simp (maxDischargeDepth := 40) +contextual)

theorem execEnrol_kept (inst : Byte) (cert : EnrolCert) (s : State) : ∃ t, execEnrol inst cert s = .next t ∧ Kept
    s t := by
  exact act_kept (by simp (maxDischargeDepth := 40) +contextual)

theorem execSbRst_kept (s : State) : ∃ t, execSbRst s = .next t ∧ Kept s t := by
  exact act_kept (by simp (maxDischargeDepth := 40) +contextual)

theorem execEntdaa_kept (addr : BitVec 7) (s : State) : ∃ t, execEntdaa addr s = .next t ∧ Kept s t := by
  exact act_kept (by simp (maxDischargeDepth := 40) +contextual)

theorem execSetdasa_kept (static : BitVec 7) (addr : BitVec 7) (s : State) : ∃ t, execSetdasa static addr s =
    .next t ∧ Kept s t := by
  exact act_kept (by simp (maxDischargeDepth := 40) +contextual)

theorem execSetEndpointId_kept (eid : Byte) (s : State) : ∃ t, execSetEndpointId eid s = .next t ∧ Kept s t := by
  refine act_kept ?_
  dsimp only
  repeat' (first | with_reducible apply kept_ite2 | split)
  all_goals simp (maxDischargeDepth := 40) +contextual

theorem execGetEndpointId_kept (s : State) : ∃ t, execGetEndpointId s = .next t ∧ Kept s t := by
  exact act_kept (by simp (maxDischargeDepth := 40) +contextual)

theorem execGetMctpVersionSupport_kept (msgType : Byte) (s : State) : ∃ t, execGetMctpVersionSupport msgType s =
    .next t ∧ Kept s t := by
  refine act_kept ?_
  dsimp only
  repeat' (first | with_reducible apply kept_ite2 | split)
  all_goals simp (maxDischargeDepth := 40) +contextual

theorem execGetMessageTypeSupport_kept (s : State) : ∃ t, execGetMessageTypeSupport s = .next t ∧ Kept s t := by
  exact act_kept (by simp (maxDischargeDepth := 40) +contextual)

theorem execGetVendorDefinedMessageSupport_kept (selector : Byte) (s : State) : ∃ t,
    execGetVendorDefinedMessageSupport selector s = .next t ∧ Kept s t := by
  refine act_kept ?_
  (repeat' split) <;> simp (maxDischargeDepth := 40) +contextual

theorem execSensorPoll_kept (sensor : Byte) (s : State) : ∃ t, execSensorPoll sensor s = .next t ∧ Kept s t := by
  refine act_kept ?_
  (repeat' split) <;> simp (maxDischargeDepth := 40) +contextual

theorem execSensorUpdate_kept (power : BitVec 16) (voltage : BitVec 16) (current : BitVec 16) (s : State) : ∃ t,
    execSensorUpdate power voltage current s = .next t ∧ Kept s t := by
  exact act_kept (by simp (maxDischargeDepth := 40) +contextual)

theorem execPldmBaseCommand_kept (command : Byte) (s : State) : ∃ t, execPldmBaseCommand command s = .next t ∧
    Kept s t := by
  exact act_kept (by simp (maxDischargeDepth := 40) +contextual)

/-! ### Resets -/

theorem execPwrReset_kept (cause : ResetCause) (s : State) : ∃ t, execPwrReset cause s = .next t ∧ Kept s t := by
  refine act_kept ?_
  (repeat' split) <;> simp (maxDischargeDepth := 40) +contextual

theorem execKprReset_kept (cause : ResetCause) (s : State) : ∃ t, execKprReset cause s = .next t ∧ Kept s t := by
  exact act_kept (by simp (maxDischargeDepth := 40) +contextual)

theorem execKprResetEnd_kept (s : State) : ∃ t, execKprResetEnd s = .next t ∧ Kept s t := by
  exact act_kept (by simp (maxDischargeDepth := 40) +contextual)

theorem execEptReset_kept (cause : ResetCause) (s : State) : ∃ t, execEptReset cause s = .next t ∧ Kept s t := by
  exact act_kept (by simp (maxDischargeDepth := 40) +contextual)

theorem execEptResetEnd_kept (s : State) : ∃ t, execEptResetEnd s = .next t ∧ Kept s t := by
  exact act_kept (by simp (maxDischargeDepth := 40) +contextual)

theorem execAryReset_kept (cause : ResetCause) (s : State) : ∃ t, execAryReset cause s = .next t ∧ Kept s t := by
  exact act_kept (by simp (maxDischargeDepth := 40) +contextual)

theorem execAryResetEnd_kept (s : State) : ∃ t, execAryResetEnd s = .next t ∧ Kept s t := by
  exact act_kept (by simp (maxDischargeDepth := 40) +contextual)

theorem execPrtReset_kept (p : Fin 36) (cause : ResetCause) (s : State) : ∃ t, execPrtReset p cause s = .next t ∧
    Kept s t := by
  exact act_kept (by simp (maxDischargeDepth := 40) +contextual)

theorem execPrtResetEnd_kept (p : Fin 36) (s : State) : ∃ t, execPrtResetEnd p s = .next t ∧ Kept s t := by
  exact act_kept (by simp (maxDischargeDepth := 40) +contextual)

theorem execLostRetrainTimeout_kept (p : Fin 36) (s : State) : ∃ t, execLostRetrainTimeout p s = .next t ∧ Kept s
    t := by
  refine act_kept ?_
  (repeat' split) <;> simp (maxDischargeDepth := 40) +contextual

theorem execPorts_kept (side : Side) (val : Word) (collide : Word) (s : State) : ∃ t, execPorts side val collide s
    = .next t ∧ Kept s t := by
  exact act_kept (by simp (maxDischargeDepth := 40) +contextual)

theorem execStkReset_kept (k : Fin 6) (cause : ResetCause) (s : State) : ∃ t, execStkReset k cause s = .next t ∧
    Kept s t := by
  exact act_kept (by simp (maxDischargeDepth := 40) +contextual)

theorem execStkResetEnd_kept (k : Fin 6) (s : State) : ∃ t, execStkResetEnd k s = .next t ∧ Kept s t := by
  exact act_kept (by simp (maxDischargeDepth := 40) +contextual)

theorem execStackRetrainTimeout_kept (k : Fin 6) (s : State) : ∃ t, execStackRetrainTimeout k s = .next t ∧ Kept s
    t := by
  exact act_kept (by simp (maxDischargeDepth := 40) +contextual)

theorem execKeeperWatchdogExpiry_kept (s : State) : ∃ t, execKeeperWatchdogExpiry s = .next t ∧ Kept s t := by
  exact act_kept (by simp (maxDischargeDepth := 40) +contextual)

theorem execHeartbeatTimeout_kept (unit : Beating) (s : State) : ∃ t, execHeartbeatTimeout unit s = .next t ∧ Kept
    s t := by
  exact act_kept (by simp (maxDischargeDepth := 40) +contextual)

theorem execResetCountExpiry_kept (s : State) : ∃ t, execResetCountExpiry s = .next t ∧ Kept s t := by
  exact act_kept (by simp (maxDischargeDepth := 40) +contextual)

/-! ### Firmware -/

theorem execRequestFirmwareData_kept (comp : Fin 8) (offset : BitVec 32) (data : List Byte) (s : State) : ∃ t,
    execRequestFirmwareData comp offset data s = .next t ∧ Kept s t := by
  exact act_kept (by simp (maxDischargeDepth := 40) +contextual)

theorem execActivateFirmware_kept (comp : Fin 8) (img : FirmwareImage) (s : State) : ∃ t, execActivateFirmware
    comp img s = .next t ∧ Kept s t := by
  exact act_kept (by simp (maxDischargeDepth := 40) +contextual)

theorem execFirmwareSwapDone_kept (s : State) : ∃ t, execFirmwareSwapDone s = .next t ∧ Kept s t := by
  exact act_kept (by simp (maxDischargeDepth := 40) +contextual)

/-! ### HostPort -/

theorem execPerstAssert_kept (s : State) : ∃ t, execPerstAssert s = .next t ∧ Kept s t := by
  exact act_kept (by simp (maxDischargeDepth := 40) +contextual)

theorem execPerstDeassert_kept (s : State) : ∃ t, execPerstDeassert s = .next t ∧ Kept s t := by
  exact act_kept (by simp (maxDischargeDepth := 40) +contextual)

theorem execHotReset_kept (s : State) : ∃ t, execHotReset s = .next t ∧ Kept s t := by
  exact act_kept (by simp (maxDischargeDepth := 40) +contextual)

theorem execCxlLinkDown_kept (s : State) : ∃ t, execCxlLinkDown s = .next t ∧ Kept s t := by
  exact act_kept (by simp (maxDischargeDepth := 40) +contextual)

theorem execCxlLinkUp_kept (s : State) : ∃ t, execCxlLinkUp s = .next t ∧ Kept s t := by
  exact act_kept (by simp (maxDischargeDepth := 40) +contextual)

theorem execHdmDecoderCommit_kept (w : Fin 4) (base : Word) (size : Word) (s : State) : ∃ t, execHdmDecoderCommit
    w base size s = .next t ∧ Kept s t := by
  exact act_kept (by simp (maxDischargeDepth := 40) +contextual)

theorem execHstWinWrite_kept (side : Side) (w : Fin 4) (val : Word) (s : State) : ∃ t, execHstWinWrite side w val
    s = .next t ∧ Kept s t := by
  exact act_kept (by simp (maxDischargeDepth := 40) +contextual)

theorem execCxlCacheCompletion_kept (data : BitVec 512) (s : State) : ∃ t, execCxlCacheCompletion data s = .next t
    ∧ Kept s t := by
  refine act_kept ?_
  dsimp only
  repeat' (first | with_reducible apply kept_ite2 | split)
  all_goals simp (maxDischargeDepth := 40) +contextual

theorem execSnoop_kept (addr : Word) (s : State) : ∃ t, execSnoop addr s = .next t ∧ Kept s t := by
  exact act_kept (by simp (maxDischargeDepth := 40) +contextual)

theorem execDoeDiscovery_kept (index : Byte) (s : State) : ∃ t, execDoeDiscovery index s = .next t ∧ Kept s t
    := by
  refine act_kept ?_
  (repeat' split) <;> simp (maxDischargeDepth := 40) +contextual

theorem execCdatTableAccess_kept (handle : BitVec 16) (s : State) : ∃ t, execCdatTableAccess handle s = .next t ∧
    Kept s t := by
  refine act_kept ?_
  (repeat' split) <;> simp (maxDischargeDepth := 40) +contextual

theorem execIdeKm_kept (env : Envelope) (body : List Byte) (s : State) : ∃ t, execIdeKm env body s = .next t ∧
    Kept s t := by
  exact act_kept (by simp (maxDischargeDepth := 40) +contextual)

theorem execDoeAbort_kept (s : State) : ∃ t, execDoeAbort s = .next t ∧ Kept s t := by
  exact act_kept (by simp (maxDischargeDepth := 40) +contextual)

/-! ### Power -/

theorem execPowerApplied_kept (s : State) : ∃ t, execPowerApplied s = .next t ∧ Kept s t := by
  exact ⟨_, rfl, by simp (maxDischargeDepth := 40) +contextual⟩

theorem execInputQualified_kept (s : State) : ∃ t, execInputQualified s = .next t ∧ Kept s t := by
  exact ⟨_, rfl, by simp (maxDischargeDepth := 40) +contextual⟩

theorem execBrownout_kept (s : State) : ∃ t, execBrownout s = .next t ∧ Kept s t := by
  exact ⟨_, rfl, by simp (maxDischargeDepth := 40) +contextual⟩

theorem execOvervoltage_kept (s : State) : ∃ t, execOvervoltage s = .next t ∧ Kept s t := by
  exact ⟨_, rfl, by simp (maxDischargeDepth := 40) +contextual⟩

theorem execPwrWarnAssert_kept (s : State) : ∃ t, execPwrWarnAssert s = .next t ∧ Kept s t := by
  exact act_kept (by simp (maxDischargeDepth := 40) +contextual)

theorem execPwrWarnDeassert_kept (s : State) : ∃ t, execPwrWarnDeassert s = .next t ∧ Kept s t := by
  exact act_kept (by simp (maxDischargeDepth := 40) +contextual)

theorem execThermalSample_kept (temp : BitVec 8) (s : State) : ∃ t, execThermalSample temp s = .next t ∧ Kept s t
    := by
  exact act_kept (by simp (maxDischargeDepth := 40) +contextual)

theorem execClockStepUp_kept (s : State) : ∃ t, execClockStepUp s = .next t ∧ Kept s t := by
  exact act_kept (by simp (maxDischargeDepth := 40) +contextual)

theorem execClockStepDown_kept (s : State) : ∃ t, execClockStepDown s = .next t ∧ Kept s t := by
  exact act_kept (by simp (maxDischargeDepth := 40) +contextual)

theorem execBringupStageDone_kept (result : StageResult) (s : State) : ∃ t, execBringupStageDone result s = .next
    t ∧ Kept s t := by
  exact act_kept (by simp (maxDischargeDepth := 40) +contextual)

/-! ### RegMap -/

theorem execRegisterWrite_kept (side : Side) (off : BitVec 32) (full : Bool) (val : Word) (collide : Word) (s :
    State) : ∃ t, execRegisterWrite side off full val collide s = .next t ∧ Kept s t := by
  exact act_kept (by simp (maxDischargeDepth := 40) +contextual)

theorem execRegRead_kept (inst : Byte) (off : BitVec 32) (count : Byte) (s : State) : ∃ t, execRegRead inst off
    count s = .next t ∧ Kept s t := by
  exact act_kept (by simp (maxDischargeDepth := 40) +contextual)

theorem execRegWrite_kept (inst : Byte) (off : BitVec 32) (count : Byte) (words : List Word) (s : State) : ∃ t,
    execRegWrite inst off count words s = .next t ∧ Kept s t := by
  exact act_kept (by simp (maxDischargeDepth := 40) +contextual)

end Sys2Proof.Machine
end

