-- ==== Sys2Proof/Laws/Lines.lean ====
section
/-! SUPPORT. Memory above its last listed byte, lines that hold no error, and an image whose records are all zero. -/
namespace Sys2Proof.Machine

theorem tblGet_nil {α : Type} (d : α) (i : Nat) : tblGet d [] i = d := rfl

theorem tblGet_above {α : Type} (d : α) (t : Tbl α) (i : Nat) (h : ∀ e ∈ t, e.1 < i) : tblGet d t i = d := by
  induction t with
  | nil => rfl
  | cons e t ih =>
    have he := h e (by simp)
    simp only [tblGet]
    rw [if_neg (by omega)]
    exact ih (fun x hx => h x (by simp [hx]))

/-- A byte above every listed byte reads 0 where no cairn is held. -/
theorem memByte_above (s : State) (lo a : Nat) (hc : s.observe.cairns = []) (h : ∀ e ∈ s.mem, e.1 < lo) (ha : lo ≤ a) :
    memByte s a = 0 := by
  have hs : cairnSectionByte s a = none := by
    unfold cairnSectionByte
    split <;> simp [hc]
  simp only [memByte, hs]
  exact tblGet_above 0 s.mem a (fun e he => by have := h e he; omega)

theorem natOfBytes_zeros (n : Nat) : natOfBytes (List.replicate n (0 : Byte)) = 0 := by
  induction n with
  | zero => rfl
  | succ n ih => rw [List.replicate_succ, natOfBytes, ih]; rfl

/-- Every number above every listed byte reads 0. -/
theorem readNat_above (s : State) (lo a n : Nat) (hc : s.observe.cairns = []) (h : ∀ e ∈ s.mem, e.1 < lo) (ha : lo ≤ a) :
    readNat s a n = 0 := by
  have e : readMem s a n = List.replicate n 0 := by
    apply List.ext_getElem
    · simp [readMem]
    · intro i h1 h2
      simp [readMem, memByte_above s lo (a + i) hc h (by omega)]
  rw [readNat, e, natOfBytes_zeros]

/-- A line without an error in its codewords and with a cleared tag is clean. -/
theorem lineStatus_clean (l : Nat) (s : State) (he : s.memory.errs = []) (hm : s.memory.tags = []) :
    lineStatus l s = stOk ∧ softWords l s = [] ∧ tagErrs l s = 0 := by
  have h0 : ∀ c, codeErrs c s = 0 := fun c => by simp [codeErrs, he, tblGet_nil]
  have ht : lineTag l s = .cleared := by simp [lineTag, hm, tblGet_nil]
  have hn : nibblesOf 0 = [] := by decide
  refine ⟨?_, ?_, ?_⟩
  · simp [lineStatus, hardWord, badTagWord, tagErrs, macFails, h0, hn, ht]
  · simp [softWords, correctable, h0, hn]
  · simp [tagErrs, h0]

theorem linesStatus_clean (ls : List Nat) (s : State) (he : s.memory.errs = []) (hm : s.memory.tags = []) :
    linesStatus ls s = stOk := by
  have h : ls.find? (fun l => decide (lineStatus l s ≠ stOk)) = none := by
    rw [List.find?_eq_none]
    intro l _
    simp [(lineStatus_clean l s he hm).1]
  rw [linesStatus, h]

theorem swActive_zero (n : Nat) (h : n = 0) : swActive (BitVec.ofNat 512 n) = false := by
  subst h
  exact BitVec.getLsbD_zero

theorem foldl_const {α β : Type} (f : α → β → α) (h : ∀ x b, f x b = x) (l : List β) (x : α) : l.foldl f x = x := by
  induction l with
  | nil => rfl
  | cons b l ih => rw [List.foldl_cons, h, ih]

theorem rowDrivesGood_blank (a r : Nat) (s : State) (hsw : ∀ c, swActive (imageSwitch a c s) = false) :
    rowDrivesGood a r s = true :=
  congrArg Option.isSome (foldl_const (fun (acc : Option Nat) c =>
    let w := imageSwitch a (64 * r + c) s
    if swActive w then
      acc.bind (fun m => if Nat.land m (w.toNat % 2 ^ 32) = 0 then some (Nat.lor m (w.toNat % 2 ^ 32)) else none)
    else acc) (fun _ c => if_neg (by rw [hsw]; exact Bool.false_ne_true)) (List.range 64) (some 0))

/-- An image whose records are all zero passes the checks of its records (R226, R241). -/
theorem recordsGood_blank (a lo : Nat) (s : State) (he : s.memory.errs = []) (hm : s.memory.tags = [])
    (hc : s.observe.cairns = []) (h : ∀ e ∈ s.mem, e.1 < lo) (ha : lo ≤ a + 4096) :
    recordsGood a (crcChunk (readMem s (a + 4096) (imageBytes - 4096))) s = true := by
  have hsw : ∀ c, swActive (imageSwitch a c s) = false := fun c =>
    swActive_zero _ (readNat_above s lo _ _ hc h (by omega))
  have hact : (List.range 4096).filter (fun c => swActive (imageSwitch a c s)) = [] := by
    rw [List.filter_eq_nil_iff]
    intro c _ hx
    rw [hsw c] at hx
    exact Bool.noConfusion hx
  have hall : (List.range 64).all (fun r => rowDrivesGood a r s) = true := List.all_eq_true.mpr (fun r _ => rowDrivesGood_blank a r s hsw)
  simp only [recordsGood, hact, linesStatus_clean _ s he hm, hall, List.all_nil, Bool.or_true, Bool.and_true, decide_true]

end Sys2Proof.Machine
end

