-- ==== Sys2Proof/Laws/Ops.lean ====
section
/-! SUPPORT. What the shared operations do: registers, flags, gated writes and the outcome of a command, each said once
for the proofs to cite. -/
namespace Sys2Proof.Machine

/-! ### The outcome of a command -/

theorem act_on {s : State} {f : State → State} (h : s.powered = true) : act s f = .next (f s) := by simp [act, h]

theorem act_off {s : State} {f : State → State} (h : s.powered = false) : act s f = .next s := by simp [act, h]

@[simp] theorem whenTrue_true (f : State → State) (s : State) : whenTrue true f s = f s := rfl

@[simp] theorem whenTrue_false (f : State → State) (s : State) : whenTrue false f s = s := rfl

/-! ### Registers -/

@[simp] theorem getReg_putReg_self (o : Nat) (v : Word) (s : State) : getReg o (putReg o v s) = v := by
  simp [getReg, putReg]

theorem getReg_putReg_ne {o p : Nat} (h : p ≠ o) (v : Word) (s : State) : getReg p (putReg o v s) = getReg p s := by
  simp [getReg, putReg, tblGet_tblSet_ne _ _ _ (Ne.symm h)]

theorem getReg_putField_ne {o p : Nat} (h : p ≠ o) (hi lo x : Nat) (s : State) :
    getReg p (putField o hi lo x s) = getReg p s := getReg_putReg_ne h _ s

@[simp] theorem getReg_bump (o a n : Nat) (s : State) : getReg o (bump a n s) = getReg o s := rfl

@[simp] theorem getReg_raiseVector (o v : Nat) (s : State) : getReg o (raiseVector v s) = getReg o s := rfl

@[simp] theorem getReg_raiseAttn (o : Nat) (s : State) : getReg o (raiseAttn s) = getReg o s := rfl

/-! ### Flags -/

/-- Raising a flag touches the registers, the vectors and the In-Band Interrupts alone. -/
theorem setFlag_frame (o b : Nat) (s : State) : setFlag o b s =
    { s with regs := (setFlag o b s).regs,
             host := { s.host with vectors := (setFlag o b s).host.vectors },
             side := { s.side with ibis := (setFlag o b s).side.ibis } } := by
  unfold setFlag
  split
  · rfl
  · dsimp only
    split
    · split <;> rfl
    · split <;> rfl

theorem getReg_setFlag (o b p : Nat) (s : State) : getReg p (setFlag o b s) =
    if getBit o b s then getReg p s else getReg p (putReg o (getReg o s ||| placeBit b true) s) := by
  unfold setFlag
  split
  · rfl
  · dsimp only
    split
    · split <;> rfl
    · split <;> rfl

/-- Raising a flag leaves every other register alone. -/
theorem getReg_setFlag_ne {o p : Nat} (h : p ≠ o) (b : Nat) (s : State) : getReg p (setFlag o b s) = getReg p s := by
  rw [getReg_setFlag]
  split
  · rfl
  · exact getReg_putReg_ne h _ s

theorem getLsbD_placeBit {b : Nat} (h : b < 64) (i : Nat) : (placeBit b true).getLsbD i = decide (i = b) := by
  simp only [placeBit, if_true]
  rw [BitVec.getLsbD_ofNat, Nat.testBit_two_pow]
  by_cases e : b = i
  · subst e; simp [h]
  · simp [e, Ne.symm e]

/-- A raised flag reads 1, and every other bit of its register as before. -/
theorem getBit_setFlag {b : Nat} (h : b < 64) (o i : Nat) (s : State) :
    getBit o i (setFlag o b s) = (getBit o i s || decide (i = b)) := by
  unfold getBit wbit
  rw [getReg_setFlag]
  split
  · rename_i k
    by_cases e : i = b
    · subst e; simpa [getBit, wbit] using k
    · simp [e]
  · rw [getReg_putReg_self, BitVec.getLsbD_or, getLsbD_placeBit h]

@[simp] theorem getBit_setFlag_self {b : Nat} (h : b < 64) (o : Nat) (s : State) :
    getBit o b (setFlag o b s) = true := by simp [getBit_setFlag h]

/-- A refusal raises its flag, counts in its block and does nothing else. -/
theorem refuse_eq (blk o b : Nat) (s : State) : refuse blk o b s = bump (rBlockEvents blk) 1 (setFlag o b s) := rfl

/-! ### Gated writes -/

theorem guarded_go {side : Side} {blk : Nat} {fixed : Bool} {d : Dom} {s : State} (f : State → State)
    (h : gate side blk fixed d s = .go) : guarded side blk fixed d s f = f s := by simp [guarded, h]

/-- The host may write: after READY (but for KPR, HST and SEC), where the side band does not own, out of reset. -/
theorem gate_host_go {blk : Nat} {fixed : Bool} {d : Dom} {s : State} :
    gate .host blk fixed d s = .go ↔ (isReady s = true ∨ blk = bKPR ∨ blk = bHST ∨ blk = bSEC) ∧ fixed = false ∧
      sidebandOwns blk s = false ∧ inReset d s = false := by
  unfold gate
  cases isReady s <;> cases fixed <;> cases sidebandOwns blk s <;> cases inReset d s <;>
    by_cases h : blk = bKPR ∨ blk = bHST ∨ blk = bSEC <;> simp [h]

/-- The side band may write what it owns and what is always its own, out of reset. -/
theorem gate_sideband_go {blk : Nat} {fixed : Bool} {d : Dom} {s : State} :
    gate .sideband blk fixed d s = .go ↔ (fixed = true ∨ sidebandOwns blk s = true) ∧ inReset d s = false := by
  unfold gate
  cases fixed <;> cases sidebandOwns blk s <;> cases inReset d s <;> simp

/-! ### The event log -/

@[simp] theorem logEvent_total (b i k : Nat) (st p : Byte) (d : BitVec 128) (s : State) :
    (logEvent b i k st p d s).service.logTotal = (s.service.logTotal + 1) % 2 ^ 32 := by simp only [logEvent]

/-! ### Memory -/

theorem tblGet_writeCells (bs : List Byte) (a : Nat) (m : List Host.Cell) (x : Nat) :
    tblGet 0 (writeCells bs a m) x = if a ≤ x ∧ x < a + bs.length then bs.getD (x - a) 0 else tblGet 0 m x := by
  induction bs generalizing a m with
  | nil => simp [writeCells] <;> omega
  | cons b t ih =>
    rw [writeCells, ih, tblGet_tblSet]
    by_cases h : a + 1 ≤ x ∧ x < a + 1 + t.length
    · have e : x - a = (x - (a + 1)) + 1 := by omega
      have g : a ≤ x ∧ x < a + (b :: t).length := by simp; omega
      rw [if_pos h, if_pos g, e, List.getD_cons_succ]
    · rw [if_neg h]
      by_cases e : a = x
      · subst e; simp
      · have g : ¬(a ≤ x ∧ x < a + (b :: t).length) := by simp; omega
        rw [if_neg e, if_neg g]

/-- A byte written is read back, and every byte outside the written range is as before, outside a held cairn. -/
theorem memByte_writeMem (a : Nat) (bs : List Byte) (s : State) (x : Nat) (h : cairnSectionByte s x = none) :
    memByte (writeMem a bs s) x = if a ≤ x ∧ x < a + bs.length then bs.getD (x - a) 0 else memByte s x := by
  have k : cairnSectionByte (writeMem a bs s) x = none := h
  simp only [memByte, k, h]
  exact tblGet_writeCells bs a s.mem x

end Sys2Proof.Machine
end

