-- ==== Sys2Proof/Laws/State.lean ====
section
/-! SUPPORT. Which fields of the state each base update leaves alone, one lemma per update and field, so that no proof
unfolds a record update. -/
namespace Sys2Proof.Machine

/-! ### putReg -/

@[simp] theorem putReg_pending (o : Nat) (v : Word) (s : State) : (putReg o v s).pending = s.pending := rfl
@[simp] theorem putReg_powered (o : Nat) (v : Word) (s : State) : (putReg o v s).powered = s.powered := rfl
@[simp] theorem putReg_clock (o : Nat) (v : Word) (s : State) : (putReg o v s).clock = s.clock := rfl
@[simp] theorem putReg_timeBase (o : Nat) (v : Word) (s : State) : (putReg o v s).timeBase = s.timeBase := rfl
@[simp] theorem putReg_timeFrac (o : Nat) (v : Word) (s : State) : (putReg o v s).timeFrac = s.timeFrac := rfl
@[simp] theorem putReg_freeCtr (o : Nat) (v : Word) (s : State) : (putReg o v s).freeCtr = s.freeCtr := rfl
@[simp] theorem putReg_resets (o : Nat) (v : Word) (s : State) : (putReg o v s).resets = s.resets := rfl
@[simp] theorem putReg_img (o : Nat) (v : Word) (s : State) : (putReg o v s).img = s.img := rfl
@[simp] theorem putReg_mem (o : Nat) (v : Word) (s : State) : (putReg o v s).mem = s.mem := rfl
@[simp] theorem putReg_memory (o : Nat) (v : Word) (s : State) : (putReg o v s).memory = s.memory := rfl
@[simp] theorem putReg_xlt (o : Nat) (v : Word) (s : State) : (putReg o v s).xlt = s.xlt := rfl
@[simp] theorem putReg_queues (o : Nat) (v : Word) (s : State) : (putReg o v s).queues = s.queues := rfl
@[simp] theorem putReg_req (o : Nat) (v : Word) (s : State) : (putReg o v s).req = s.req := rfl
@[simp] theorem putReg_tgt (o : Nat) (v : Word) (s : State) : (putReg o v s).tgt = s.tgt := rfl
@[simp] theorem putReg_sw (o : Nat) (v : Word) (s : State) : (putReg o v s).sw = s.sw := rfl
@[simp] theorem putReg_links (o : Nat) (v : Word) (s : State) : (putReg o v s).links = s.links := rfl
@[simp] theorem putReg_credit (o : Nat) (v : Word) (s : State) : (putReg o v s).credit = s.credit := rfl
@[simp] theorem putReg_owed (o : Nat) (v : Word) (s : State) : (putReg o v s).owed = s.owed := rfl
@[simp] theorem putReg_counters (o : Nat) (v : Word) (s : State) : (putReg o v s).counters = s.counters := rfl
@[simp] theorem putReg_latched (o : Nat) (v : Word) (s : State) : (putReg o v s).latched = s.latched := rfl
@[simp] theorem putReg_array (o : Nat) (v : Word) (s : State) : (putReg o v s).array = s.array := rfl
@[simp] theorem putReg_caravan (o : Nat) (v : Word) (s : State) : (putReg o v s).caravan = s.caravan := rfl
@[simp] theorem putReg_rope (o : Nat) (v : Word) (s : State) : (putReg o v s).rope = s.rope := rfl
@[simp] theorem putReg_tenant (o : Nat) (v : Word) (s : State) : (putReg o v s).tenant = s.tenant := rfl
@[simp] theorem putReg_host (o : Nat) (v : Word) (s : State) : (putReg o v s).host = s.host := rfl
@[simp] theorem putReg_side (o : Nat) (v : Word) (s : State) : (putReg o v s).side = s.side := rfl
@[simp] theorem putReg_power (o : Nat) (v : Word) (s : State) : (putReg o v s).power = s.power := rfl
@[simp] theorem putReg_service (o : Nat) (v : Word) (s : State) : (putReg o v s).service = s.service := rfl
@[simp] theorem putReg_time (o : Nat) (v : Word) (s : State) : (putReg o v s).time = s.time := rfl
@[simp] theorem putReg_observe (o : Nat) (v : Word) (s : State) : (putReg o v s).observe = s.observe := rfl
@[simp] theorem putReg_hostMem (o : Nat) (v : Word) (s : State) : (putReg o v s).hostMem = s.hostMem := rfl

/-! ### putField -/

@[simp] theorem putField_pending (o hi lo x : Nat) (s : State) : (putField o hi lo x s).pending = s.pending := rfl
@[simp] theorem putField_powered (o hi lo x : Nat) (s : State) : (putField o hi lo x s).powered = s.powered := rfl
@[simp] theorem putField_clock (o hi lo x : Nat) (s : State) : (putField o hi lo x s).clock = s.clock := rfl
@[simp] theorem putField_timeBase (o hi lo x : Nat) (s : State) : (putField o hi lo x s).timeBase = s.timeBase := rfl
@[simp] theorem putField_timeFrac (o hi lo x : Nat) (s : State) : (putField o hi lo x s).timeFrac = s.timeFrac := rfl
@[simp] theorem putField_freeCtr (o hi lo x : Nat) (s : State) : (putField o hi lo x s).freeCtr = s.freeCtr := rfl
@[simp] theorem putField_resets (o hi lo x : Nat) (s : State) : (putField o hi lo x s).resets = s.resets := rfl
@[simp] theorem putField_img (o hi lo x : Nat) (s : State) : (putField o hi lo x s).img = s.img := rfl
@[simp] theorem putField_mem (o hi lo x : Nat) (s : State) : (putField o hi lo x s).mem = s.mem := rfl
@[simp] theorem putField_memory (o hi lo x : Nat) (s : State) : (putField o hi lo x s).memory = s.memory := rfl
@[simp] theorem putField_xlt (o hi lo x : Nat) (s : State) : (putField o hi lo x s).xlt = s.xlt := rfl
@[simp] theorem putField_queues (o hi lo x : Nat) (s : State) : (putField o hi lo x s).queues = s.queues := rfl
@[simp] theorem putField_req (o hi lo x : Nat) (s : State) : (putField o hi lo x s).req = s.req := rfl
@[simp] theorem putField_tgt (o hi lo x : Nat) (s : State) : (putField o hi lo x s).tgt = s.tgt := rfl
@[simp] theorem putField_sw (o hi lo x : Nat) (s : State) : (putField o hi lo x s).sw = s.sw := rfl
@[simp] theorem putField_links (o hi lo x : Nat) (s : State) : (putField o hi lo x s).links = s.links := rfl
@[simp] theorem putField_credit (o hi lo x : Nat) (s : State) : (putField o hi lo x s).credit = s.credit := rfl
@[simp] theorem putField_owed (o hi lo x : Nat) (s : State) : (putField o hi lo x s).owed = s.owed := rfl
@[simp] theorem putField_counters (o hi lo x : Nat) (s : State) : (putField o hi lo x s).counters = s.counters := rfl
@[simp] theorem putField_latched (o hi lo x : Nat) (s : State) : (putField o hi lo x s).latched = s.latched := rfl
@[simp] theorem putField_array (o hi lo x : Nat) (s : State) : (putField o hi lo x s).array = s.array := rfl
@[simp] theorem putField_caravan (o hi lo x : Nat) (s : State) : (putField o hi lo x s).caravan = s.caravan := rfl
@[simp] theorem putField_rope (o hi lo x : Nat) (s : State) : (putField o hi lo x s).rope = s.rope := rfl
@[simp] theorem putField_tenant (o hi lo x : Nat) (s : State) : (putField o hi lo x s).tenant = s.tenant := rfl
@[simp] theorem putField_host (o hi lo x : Nat) (s : State) : (putField o hi lo x s).host = s.host := rfl
@[simp] theorem putField_side (o hi lo x : Nat) (s : State) : (putField o hi lo x s).side = s.side := rfl
@[simp] theorem putField_power (o hi lo x : Nat) (s : State) : (putField o hi lo x s).power = s.power := rfl
@[simp] theorem putField_service (o hi lo x : Nat) (s : State) : (putField o hi lo x s).service = s.service := rfl
@[simp] theorem putField_time (o hi lo x : Nat) (s : State) : (putField o hi lo x s).time = s.time := rfl
@[simp] theorem putField_observe (o hi lo x : Nat) (s : State) : (putField o hi lo x s).observe = s.observe := rfl
@[simp] theorem putField_hostMem (o hi lo x : Nat) (s : State) : (putField o hi lo x s).hostMem = s.hostMem := rfl

/-! ### bump -/

@[simp] theorem bump_pending (a n : Nat) (s : State) : (bump a n s).pending = s.pending := rfl
@[simp] theorem bump_powered (a n : Nat) (s : State) : (bump a n s).powered = s.powered := rfl
@[simp] theorem bump_clock (a n : Nat) (s : State) : (bump a n s).clock = s.clock := rfl
@[simp] theorem bump_timeBase (a n : Nat) (s : State) : (bump a n s).timeBase = s.timeBase := rfl
@[simp] theorem bump_timeFrac (a n : Nat) (s : State) : (bump a n s).timeFrac = s.timeFrac := rfl
@[simp] theorem bump_freeCtr (a n : Nat) (s : State) : (bump a n s).freeCtr = s.freeCtr := rfl
@[simp] theorem bump_regs (a n : Nat) (s : State) : (bump a n s).regs = s.regs := rfl
@[simp] theorem bump_resets (a n : Nat) (s : State) : (bump a n s).resets = s.resets := rfl
@[simp] theorem bump_img (a n : Nat) (s : State) : (bump a n s).img = s.img := rfl
@[simp] theorem bump_mem (a n : Nat) (s : State) : (bump a n s).mem = s.mem := rfl
@[simp] theorem bump_memory (a n : Nat) (s : State) : (bump a n s).memory = s.memory := rfl
@[simp] theorem bump_xlt (a n : Nat) (s : State) : (bump a n s).xlt = s.xlt := rfl
@[simp] theorem bump_queues (a n : Nat) (s : State) : (bump a n s).queues = s.queues := rfl
@[simp] theorem bump_req (a n : Nat) (s : State) : (bump a n s).req = s.req := rfl
@[simp] theorem bump_tgt (a n : Nat) (s : State) : (bump a n s).tgt = s.tgt := rfl
@[simp] theorem bump_sw (a n : Nat) (s : State) : (bump a n s).sw = s.sw := rfl
@[simp] theorem bump_links (a n : Nat) (s : State) : (bump a n s).links = s.links := rfl
@[simp] theorem bump_credit (a n : Nat) (s : State) : (bump a n s).credit = s.credit := rfl
@[simp] theorem bump_owed (a n : Nat) (s : State) : (bump a n s).owed = s.owed := rfl
@[simp] theorem bump_latched (a n : Nat) (s : State) : (bump a n s).latched = s.latched := rfl
@[simp] theorem bump_array (a n : Nat) (s : State) : (bump a n s).array = s.array := rfl
@[simp] theorem bump_caravan (a n : Nat) (s : State) : (bump a n s).caravan = s.caravan := rfl
@[simp] theorem bump_rope (a n : Nat) (s : State) : (bump a n s).rope = s.rope := rfl
@[simp] theorem bump_tenant (a n : Nat) (s : State) : (bump a n s).tenant = s.tenant := rfl
@[simp] theorem bump_host (a n : Nat) (s : State) : (bump a n s).host = s.host := rfl
@[simp] theorem bump_side (a n : Nat) (s : State) : (bump a n s).side = s.side := rfl
@[simp] theorem bump_power (a n : Nat) (s : State) : (bump a n s).power = s.power := rfl
@[simp] theorem bump_service (a n : Nat) (s : State) : (bump a n s).service = s.service := rfl
@[simp] theorem bump_time (a n : Nat) (s : State) : (bump a n s).time = s.time := rfl
@[simp] theorem bump_observe (a n : Nat) (s : State) : (bump a n s).observe = s.observe := rfl
@[simp] theorem bump_hostMem (a n : Nat) (s : State) : (bump a n s).hostMem = s.hostMem := rfl

/-! ### putGauge -/

@[simp] theorem putGauge_pending (a n : Nat) (s : State) : (putGauge a n s).pending = s.pending := rfl
@[simp] theorem putGauge_powered (a n : Nat) (s : State) : (putGauge a n s).powered = s.powered := rfl
@[simp] theorem putGauge_clock (a n : Nat) (s : State) : (putGauge a n s).clock = s.clock := rfl
@[simp] theorem putGauge_timeBase (a n : Nat) (s : State) : (putGauge a n s).timeBase = s.timeBase := rfl
@[simp] theorem putGauge_timeFrac (a n : Nat) (s : State) : (putGauge a n s).timeFrac = s.timeFrac := rfl
@[simp] theorem putGauge_freeCtr (a n : Nat) (s : State) : (putGauge a n s).freeCtr = s.freeCtr := rfl
@[simp] theorem putGauge_regs (a n : Nat) (s : State) : (putGauge a n s).regs = s.regs := rfl
@[simp] theorem putGauge_resets (a n : Nat) (s : State) : (putGauge a n s).resets = s.resets := rfl
@[simp] theorem putGauge_img (a n : Nat) (s : State) : (putGauge a n s).img = s.img := rfl
@[simp] theorem putGauge_mem (a n : Nat) (s : State) : (putGauge a n s).mem = s.mem := rfl
@[simp] theorem putGauge_memory (a n : Nat) (s : State) : (putGauge a n s).memory = s.memory := rfl
@[simp] theorem putGauge_xlt (a n : Nat) (s : State) : (putGauge a n s).xlt = s.xlt := rfl
@[simp] theorem putGauge_queues (a n : Nat) (s : State) : (putGauge a n s).queues = s.queues := rfl
@[simp] theorem putGauge_req (a n : Nat) (s : State) : (putGauge a n s).req = s.req := rfl
@[simp] theorem putGauge_tgt (a n : Nat) (s : State) : (putGauge a n s).tgt = s.tgt := rfl
@[simp] theorem putGauge_sw (a n : Nat) (s : State) : (putGauge a n s).sw = s.sw := rfl
@[simp] theorem putGauge_links (a n : Nat) (s : State) : (putGauge a n s).links = s.links := rfl
@[simp] theorem putGauge_credit (a n : Nat) (s : State) : (putGauge a n s).credit = s.credit := rfl
@[simp] theorem putGauge_owed (a n : Nat) (s : State) : (putGauge a n s).owed = s.owed := rfl
@[simp] theorem putGauge_latched (a n : Nat) (s : State) : (putGauge a n s).latched = s.latched := rfl
@[simp] theorem putGauge_array (a n : Nat) (s : State) : (putGauge a n s).array = s.array := rfl
@[simp] theorem putGauge_caravan (a n : Nat) (s : State) : (putGauge a n s).caravan = s.caravan := rfl
@[simp] theorem putGauge_rope (a n : Nat) (s : State) : (putGauge a n s).rope = s.rope := rfl
@[simp] theorem putGauge_tenant (a n : Nat) (s : State) : (putGauge a n s).tenant = s.tenant := rfl
@[simp] theorem putGauge_host (a n : Nat) (s : State) : (putGauge a n s).host = s.host := rfl
@[simp] theorem putGauge_side (a n : Nat) (s : State) : (putGauge a n s).side = s.side := rfl
@[simp] theorem putGauge_power (a n : Nat) (s : State) : (putGauge a n s).power = s.power := rfl
@[simp] theorem putGauge_service (a n : Nat) (s : State) : (putGauge a n s).service = s.service := rfl
@[simp] theorem putGauge_time (a n : Nat) (s : State) : (putGauge a n s).time = s.time := rfl
@[simp] theorem putGauge_observe (a n : Nat) (s : State) : (putGauge a n s).observe = s.observe := rfl
@[simp] theorem putGauge_hostMem (a n : Nat) (s : State) : (putGauge a n s).hostMem = s.hostMem := rfl

/-! ### raiseVector -/

@[simp] theorem raiseVector_pending (v : Nat) (s : State) : (raiseVector v s).pending = s.pending := rfl
@[simp] theorem raiseVector_powered (v : Nat) (s : State) : (raiseVector v s).powered = s.powered := rfl
@[simp] theorem raiseVector_clock (v : Nat) (s : State) : (raiseVector v s).clock = s.clock := rfl
@[simp] theorem raiseVector_timeBase (v : Nat) (s : State) : (raiseVector v s).timeBase = s.timeBase := rfl
@[simp] theorem raiseVector_timeFrac (v : Nat) (s : State) : (raiseVector v s).timeFrac = s.timeFrac := rfl
@[simp] theorem raiseVector_freeCtr (v : Nat) (s : State) : (raiseVector v s).freeCtr = s.freeCtr := rfl
@[simp] theorem raiseVector_regs (v : Nat) (s : State) : (raiseVector v s).regs = s.regs := rfl
@[simp] theorem raiseVector_resets (v : Nat) (s : State) : (raiseVector v s).resets = s.resets := rfl
@[simp] theorem raiseVector_img (v : Nat) (s : State) : (raiseVector v s).img = s.img := rfl
@[simp] theorem raiseVector_mem (v : Nat) (s : State) : (raiseVector v s).mem = s.mem := rfl
@[simp] theorem raiseVector_memory (v : Nat) (s : State) : (raiseVector v s).memory = s.memory := rfl
@[simp] theorem raiseVector_xlt (v : Nat) (s : State) : (raiseVector v s).xlt = s.xlt := rfl
@[simp] theorem raiseVector_queues (v : Nat) (s : State) : (raiseVector v s).queues = s.queues := rfl
@[simp] theorem raiseVector_req (v : Nat) (s : State) : (raiseVector v s).req = s.req := rfl
@[simp] theorem raiseVector_tgt (v : Nat) (s : State) : (raiseVector v s).tgt = s.tgt := rfl
@[simp] theorem raiseVector_sw (v : Nat) (s : State) : (raiseVector v s).sw = s.sw := rfl
@[simp] theorem raiseVector_links (v : Nat) (s : State) : (raiseVector v s).links = s.links := rfl
@[simp] theorem raiseVector_credit (v : Nat) (s : State) : (raiseVector v s).credit = s.credit := rfl
@[simp] theorem raiseVector_owed (v : Nat) (s : State) : (raiseVector v s).owed = s.owed := rfl
@[simp] theorem raiseVector_counters (v : Nat) (s : State) : (raiseVector v s).counters = s.counters := rfl
@[simp] theorem raiseVector_latched (v : Nat) (s : State) : (raiseVector v s).latched = s.latched := rfl
@[simp] theorem raiseVector_array (v : Nat) (s : State) : (raiseVector v s).array = s.array := rfl
@[simp] theorem raiseVector_caravan (v : Nat) (s : State) : (raiseVector v s).caravan = s.caravan := rfl
@[simp] theorem raiseVector_rope (v : Nat) (s : State) : (raiseVector v s).rope = s.rope := rfl
@[simp] theorem raiseVector_tenant (v : Nat) (s : State) : (raiseVector v s).tenant = s.tenant := rfl
@[simp] theorem raiseVector_side (v : Nat) (s : State) : (raiseVector v s).side = s.side := rfl
@[simp] theorem raiseVector_power (v : Nat) (s : State) : (raiseVector v s).power = s.power := rfl
@[simp] theorem raiseVector_service (v : Nat) (s : State) : (raiseVector v s).service = s.service := rfl
@[simp] theorem raiseVector_time (v : Nat) (s : State) : (raiseVector v s).time = s.time := rfl
@[simp] theorem raiseVector_observe (v : Nat) (s : State) : (raiseVector v s).observe = s.observe := rfl
@[simp] theorem raiseVector_hostMem (v : Nat) (s : State) : (raiseVector v s).hostMem = s.hostMem := rfl

/-! ### raiseAttn -/

@[simp] theorem raiseAttn_pending (s : State) : (raiseAttn s).pending = s.pending := rfl
@[simp] theorem raiseAttn_powered (s : State) : (raiseAttn s).powered = s.powered := rfl
@[simp] theorem raiseAttn_clock (s : State) : (raiseAttn s).clock = s.clock := rfl
@[simp] theorem raiseAttn_timeBase (s : State) : (raiseAttn s).timeBase = s.timeBase := rfl
@[simp] theorem raiseAttn_timeFrac (s : State) : (raiseAttn s).timeFrac = s.timeFrac := rfl
@[simp] theorem raiseAttn_freeCtr (s : State) : (raiseAttn s).freeCtr = s.freeCtr := rfl
@[simp] theorem raiseAttn_regs (s : State) : (raiseAttn s).regs = s.regs := rfl
@[simp] theorem raiseAttn_resets (s : State) : (raiseAttn s).resets = s.resets := rfl
@[simp] theorem raiseAttn_img (s : State) : (raiseAttn s).img = s.img := rfl
@[simp] theorem raiseAttn_mem (s : State) : (raiseAttn s).mem = s.mem := rfl
@[simp] theorem raiseAttn_memory (s : State) : (raiseAttn s).memory = s.memory := rfl
@[simp] theorem raiseAttn_xlt (s : State) : (raiseAttn s).xlt = s.xlt := rfl
@[simp] theorem raiseAttn_queues (s : State) : (raiseAttn s).queues = s.queues := rfl
@[simp] theorem raiseAttn_req (s : State) : (raiseAttn s).req = s.req := rfl
@[simp] theorem raiseAttn_tgt (s : State) : (raiseAttn s).tgt = s.tgt := rfl
@[simp] theorem raiseAttn_sw (s : State) : (raiseAttn s).sw = s.sw := rfl
@[simp] theorem raiseAttn_links (s : State) : (raiseAttn s).links = s.links := rfl
@[simp] theorem raiseAttn_credit (s : State) : (raiseAttn s).credit = s.credit := rfl
@[simp] theorem raiseAttn_owed (s : State) : (raiseAttn s).owed = s.owed := rfl
@[simp] theorem raiseAttn_counters (s : State) : (raiseAttn s).counters = s.counters := rfl
@[simp] theorem raiseAttn_latched (s : State) : (raiseAttn s).latched = s.latched := rfl
@[simp] theorem raiseAttn_array (s : State) : (raiseAttn s).array = s.array := rfl
@[simp] theorem raiseAttn_caravan (s : State) : (raiseAttn s).caravan = s.caravan := rfl
@[simp] theorem raiseAttn_rope (s : State) : (raiseAttn s).rope = s.rope := rfl
@[simp] theorem raiseAttn_tenant (s : State) : (raiseAttn s).tenant = s.tenant := rfl
@[simp] theorem raiseAttn_power (s : State) : (raiseAttn s).power = s.power := rfl
@[simp] theorem raiseAttn_service (s : State) : (raiseAttn s).service = s.service := rfl
@[simp] theorem raiseAttn_time (s : State) : (raiseAttn s).time = s.time := rfl
@[simp] theorem raiseAttn_observe (s : State) : (raiseAttn s).observe = s.observe := rfl
@[simp] theorem raiseAttn_hostMem (s : State) : (raiseAttn s).hostMem = s.hostMem := rfl

/-! ### answer -/

@[simp] theorem answer_pending (via : Channel) (tag status : Byte) (body : List Byte) (s : State) :
    (answer via tag status body s).pending = s.pending := rfl
@[simp] theorem answer_powered (via : Channel) (tag status : Byte) (body : List Byte) (s : State) :
    (answer via tag status body s).powered = s.powered := rfl
@[simp] theorem answer_clock (via : Channel) (tag status : Byte) (body : List Byte) (s : State) :
    (answer via tag status body s).clock = s.clock := rfl
@[simp] theorem answer_timeBase (via : Channel) (tag status : Byte) (body : List Byte) (s : State) :
    (answer via tag status body s).timeBase = s.timeBase := rfl
@[simp] theorem answer_timeFrac (via : Channel) (tag status : Byte) (body : List Byte) (s : State) :
    (answer via tag status body s).timeFrac = s.timeFrac := rfl
@[simp] theorem answer_freeCtr (via : Channel) (tag status : Byte) (body : List Byte) (s : State) :
    (answer via tag status body s).freeCtr = s.freeCtr := rfl
@[simp] theorem answer_regs (via : Channel) (tag status : Byte) (body : List Byte) (s : State) :
    (answer via tag status body s).regs = s.regs := rfl
@[simp] theorem answer_resets (via : Channel) (tag status : Byte) (body : List Byte) (s : State) :
    (answer via tag status body s).resets = s.resets := rfl
@[simp] theorem answer_img (via : Channel) (tag status : Byte) (body : List Byte) (s : State) :
    (answer via tag status body s).img = s.img := rfl
@[simp] theorem answer_mem (via : Channel) (tag status : Byte) (body : List Byte) (s : State) :
    (answer via tag status body s).mem = s.mem := rfl
@[simp] theorem answer_memory (via : Channel) (tag status : Byte) (body : List Byte) (s : State) :
    (answer via tag status body s).memory = s.memory := rfl
@[simp] theorem answer_xlt (via : Channel) (tag status : Byte) (body : List Byte) (s : State) :
    (answer via tag status body s).xlt = s.xlt := rfl
@[simp] theorem answer_queues (via : Channel) (tag status : Byte) (body : List Byte) (s : State) :
    (answer via tag status body s).queues = s.queues := rfl
@[simp] theorem answer_req (via : Channel) (tag status : Byte) (body : List Byte) (s : State) :
    (answer via tag status body s).req = s.req := rfl
@[simp] theorem answer_tgt (via : Channel) (tag status : Byte) (body : List Byte) (s : State) :
    (answer via tag status body s).tgt = s.tgt := rfl
@[simp] theorem answer_sw (via : Channel) (tag status : Byte) (body : List Byte) (s : State) :
    (answer via tag status body s).sw = s.sw := rfl
@[simp] theorem answer_links (via : Channel) (tag status : Byte) (body : List Byte) (s : State) :
    (answer via tag status body s).links = s.links := rfl
@[simp] theorem answer_credit (via : Channel) (tag status : Byte) (body : List Byte) (s : State) :
    (answer via tag status body s).credit = s.credit := rfl
@[simp] theorem answer_owed (via : Channel) (tag status : Byte) (body : List Byte) (s : State) :
    (answer via tag status body s).owed = s.owed := rfl
@[simp] theorem answer_counters (via : Channel) (tag status : Byte) (body : List Byte) (s : State) :
    (answer via tag status body s).counters = s.counters := rfl
@[simp] theorem answer_latched (via : Channel) (tag status : Byte) (body : List Byte) (s : State) :
    (answer via tag status body s).latched = s.latched := rfl
@[simp] theorem answer_array (via : Channel) (tag status : Byte) (body : List Byte) (s : State) :
    (answer via tag status body s).array = s.array := rfl
@[simp] theorem answer_caravan (via : Channel) (tag status : Byte) (body : List Byte) (s : State) :
    (answer via tag status body s).caravan = s.caravan := rfl
@[simp] theorem answer_rope (via : Channel) (tag status : Byte) (body : List Byte) (s : State) :
    (answer via tag status body s).rope = s.rope := rfl
@[simp] theorem answer_tenant (via : Channel) (tag status : Byte) (body : List Byte) (s : State) :
    (answer via tag status body s).tenant = s.tenant := rfl
@[simp] theorem answer_power (via : Channel) (tag status : Byte) (body : List Byte) (s : State) :
    (answer via tag status body s).power = s.power := rfl
@[simp] theorem answer_service (via : Channel) (tag status : Byte) (body : List Byte) (s : State) :
    (answer via tag status body s).service = s.service := rfl
@[simp] theorem answer_time (via : Channel) (tag status : Byte) (body : List Byte) (s : State) :
    (answer via tag status body s).time = s.time := rfl
@[simp] theorem answer_observe (via : Channel) (tag status : Byte) (body : List Byte) (s : State) :
    (answer via tag status body s).observe = s.observe := rfl
@[simp] theorem answer_hostMem (via : Channel) (tag status : Byte) (body : List Byte) (s : State) :
    (answer via tag status body s).hostMem = s.hostMem := rfl

/-! ### logEvent -/

@[simp] theorem logEvent_pending (b i k : Nat) (st p : Byte) (d : BitVec 128) (s : State) :
    (logEvent b i k st p d s).pending = s.pending := by
  rw [logEvent]
@[simp] theorem logEvent_powered (b i k : Nat) (st p : Byte) (d : BitVec 128) (s : State) :
    (logEvent b i k st p d s).powered = s.powered := by
  rw [logEvent]
@[simp] theorem logEvent_clock (b i k : Nat) (st p : Byte) (d : BitVec 128) (s : State) :
    (logEvent b i k st p d s).clock = s.clock := by
  rw [logEvent]
@[simp] theorem logEvent_timeBase (b i k : Nat) (st p : Byte) (d : BitVec 128) (s : State) :
    (logEvent b i k st p d s).timeBase = s.timeBase := by
  rw [logEvent]
@[simp] theorem logEvent_timeFrac (b i k : Nat) (st p : Byte) (d : BitVec 128) (s : State) :
    (logEvent b i k st p d s).timeFrac = s.timeFrac := by
  rw [logEvent]
@[simp] theorem logEvent_freeCtr (b i k : Nat) (st p : Byte) (d : BitVec 128) (s : State) :
    (logEvent b i k st p d s).freeCtr = s.freeCtr := by
  rw [logEvent]
@[simp] theorem logEvent_regs (b i k : Nat) (st p : Byte) (d : BitVec 128) (s : State) :
    (logEvent b i k st p d s).regs = s.regs := by
  rw [logEvent]
@[simp] theorem logEvent_resets (b i k : Nat) (st p : Byte) (d : BitVec 128) (s : State) :
    (logEvent b i k st p d s).resets = s.resets := by
  rw [logEvent]
@[simp] theorem logEvent_img (b i k : Nat) (st p : Byte) (d : BitVec 128) (s : State) :
    (logEvent b i k st p d s).img = s.img := by
  rw [logEvent]
@[simp] theorem logEvent_mem (b i k : Nat) (st p : Byte) (d : BitVec 128) (s : State) :
    (logEvent b i k st p d s).mem = s.mem := by
  rw [logEvent]
@[simp] theorem logEvent_memory (b i k : Nat) (st p : Byte) (d : BitVec 128) (s : State) :
    (logEvent b i k st p d s).memory = s.memory := by
  rw [logEvent]
@[simp] theorem logEvent_xlt (b i k : Nat) (st p : Byte) (d : BitVec 128) (s : State) :
    (logEvent b i k st p d s).xlt = s.xlt := by
  rw [logEvent]
@[simp] theorem logEvent_queues (b i k : Nat) (st p : Byte) (d : BitVec 128) (s : State) :
    (logEvent b i k st p d s).queues = s.queues := by
  rw [logEvent]
@[simp] theorem logEvent_req (b i k : Nat) (st p : Byte) (d : BitVec 128) (s : State) :
    (logEvent b i k st p d s).req = s.req := by
  rw [logEvent]
@[simp] theorem logEvent_tgt (b i k : Nat) (st p : Byte) (d : BitVec 128) (s : State) :
    (logEvent b i k st p d s).tgt = s.tgt := by
  rw [logEvent]
@[simp] theorem logEvent_sw (b i k : Nat) (st p : Byte) (d : BitVec 128) (s : State) :
    (logEvent b i k st p d s).sw = s.sw := by
  rw [logEvent]
@[simp] theorem logEvent_links (b i k : Nat) (st p : Byte) (d : BitVec 128) (s : State) :
    (logEvent b i k st p d s).links = s.links := by
  rw [logEvent]
@[simp] theorem logEvent_credit (b i k : Nat) (st p : Byte) (d : BitVec 128) (s : State) :
    (logEvent b i k st p d s).credit = s.credit := by
  rw [logEvent]
@[simp] theorem logEvent_owed (b i k : Nat) (st p : Byte) (d : BitVec 128) (s : State) :
    (logEvent b i k st p d s).owed = s.owed := by
  rw [logEvent]
@[simp] theorem logEvent_counters (b i k : Nat) (st p : Byte) (d : BitVec 128) (s : State) :
    (logEvent b i k st p d s).counters = s.counters := by
  rw [logEvent]
@[simp] theorem logEvent_latched (b i k : Nat) (st p : Byte) (d : BitVec 128) (s : State) :
    (logEvent b i k st p d s).latched = s.latched := by
  rw [logEvent]
@[simp] theorem logEvent_array (b i k : Nat) (st p : Byte) (d : BitVec 128) (s : State) :
    (logEvent b i k st p d s).array = s.array := by
  rw [logEvent]
@[simp] theorem logEvent_caravan (b i k : Nat) (st p : Byte) (d : BitVec 128) (s : State) :
    (logEvent b i k st p d s).caravan = s.caravan := by
  rw [logEvent]
@[simp] theorem logEvent_rope (b i k : Nat) (st p : Byte) (d : BitVec 128) (s : State) :
    (logEvent b i k st p d s).rope = s.rope := by
  rw [logEvent]
@[simp] theorem logEvent_tenant (b i k : Nat) (st p : Byte) (d : BitVec 128) (s : State) :
    (logEvent b i k st p d s).tenant = s.tenant := by
  rw [logEvent]
@[simp] theorem logEvent_host (b i k : Nat) (st p : Byte) (d : BitVec 128) (s : State) :
    (logEvent b i k st p d s).host = s.host := by
  rw [logEvent]
@[simp] theorem logEvent_side (b i k : Nat) (st p : Byte) (d : BitVec 128) (s : State) :
    (logEvent b i k st p d s).side = s.side := by
  rw [logEvent]
@[simp] theorem logEvent_power (b i k : Nat) (st p : Byte) (d : BitVec 128) (s : State) :
    (logEvent b i k st p d s).power = s.power := by
  rw [logEvent]
@[simp] theorem logEvent_time (b i k : Nat) (st p : Byte) (d : BitVec 128) (s : State) :
    (logEvent b i k st p d s).time = s.time := by
  rw [logEvent]
@[simp] theorem logEvent_observe (b i k : Nat) (st p : Byte) (d : BitVec 128) (s : State) :
    (logEvent b i k st p d s).observe = s.observe := by
  rw [logEvent]
@[simp] theorem logEvent_hostMem (b i k : Nat) (st p : Byte) (d : BitVec 128) (s : State) :
    (logEvent b i k st p d s).hostMem = s.hostMem := by
  rw [logEvent]

/-! ### writeMem -/

@[simp] theorem writeMem_pending (a : Nat) (bs : List Byte) (s : State) : (writeMem a bs s).pending = s.pending := rfl
@[simp] theorem writeMem_powered (a : Nat) (bs : List Byte) (s : State) : (writeMem a bs s).powered = s.powered := rfl
@[simp] theorem writeMem_clock (a : Nat) (bs : List Byte) (s : State) : (writeMem a bs s).clock = s.clock := rfl
@[simp] theorem writeMem_timeBase (a : Nat) (bs : List Byte) (s : State) : (writeMem a bs s).timeBase = s.timeBase :=
    rfl
@[simp] theorem writeMem_timeFrac (a : Nat) (bs : List Byte) (s : State) : (writeMem a bs s).timeFrac = s.timeFrac :=
    rfl
@[simp] theorem writeMem_freeCtr (a : Nat) (bs : List Byte) (s : State) : (writeMem a bs s).freeCtr = s.freeCtr := rfl
@[simp] theorem writeMem_regs (a : Nat) (bs : List Byte) (s : State) : (writeMem a bs s).regs = s.regs := rfl
@[simp] theorem writeMem_resets (a : Nat) (bs : List Byte) (s : State) : (writeMem a bs s).resets = s.resets := rfl
@[simp] theorem writeMem_img (a : Nat) (bs : List Byte) (s : State) : (writeMem a bs s).img = s.img := rfl
@[simp] theorem writeMem_memory (a : Nat) (bs : List Byte) (s : State) : (writeMem a bs s).memory = s.memory := rfl
@[simp] theorem writeMem_xlt (a : Nat) (bs : List Byte) (s : State) : (writeMem a bs s).xlt = s.xlt := rfl
@[simp] theorem writeMem_queues (a : Nat) (bs : List Byte) (s : State) : (writeMem a bs s).queues = s.queues := rfl
@[simp] theorem writeMem_req (a : Nat) (bs : List Byte) (s : State) : (writeMem a bs s).req = s.req := rfl
@[simp] theorem writeMem_tgt (a : Nat) (bs : List Byte) (s : State) : (writeMem a bs s).tgt = s.tgt := rfl
@[simp] theorem writeMem_sw (a : Nat) (bs : List Byte) (s : State) : (writeMem a bs s).sw = s.sw := rfl
@[simp] theorem writeMem_links (a : Nat) (bs : List Byte) (s : State) : (writeMem a bs s).links = s.links := rfl
@[simp] theorem writeMem_credit (a : Nat) (bs : List Byte) (s : State) : (writeMem a bs s).credit = s.credit := rfl
@[simp] theorem writeMem_owed (a : Nat) (bs : List Byte) (s : State) : (writeMem a bs s).owed = s.owed := rfl
@[simp] theorem writeMem_counters (a : Nat) (bs : List Byte) (s : State) : (writeMem a bs s).counters = s.counters :=
    rfl
@[simp] theorem writeMem_latched (a : Nat) (bs : List Byte) (s : State) : (writeMem a bs s).latched = s.latched := rfl
@[simp] theorem writeMem_array (a : Nat) (bs : List Byte) (s : State) : (writeMem a bs s).array = s.array := rfl
@[simp] theorem writeMem_caravan (a : Nat) (bs : List Byte) (s : State) : (writeMem a bs s).caravan = s.caravan := rfl
@[simp] theorem writeMem_rope (a : Nat) (bs : List Byte) (s : State) : (writeMem a bs s).rope = s.rope := rfl
@[simp] theorem writeMem_tenant (a : Nat) (bs : List Byte) (s : State) : (writeMem a bs s).tenant = s.tenant := rfl
@[simp] theorem writeMem_host (a : Nat) (bs : List Byte) (s : State) : (writeMem a bs s).host = s.host := rfl
@[simp] theorem writeMem_side (a : Nat) (bs : List Byte) (s : State) : (writeMem a bs s).side = s.side := rfl
@[simp] theorem writeMem_power (a : Nat) (bs : List Byte) (s : State) : (writeMem a bs s).power = s.power := rfl
@[simp] theorem writeMem_service (a : Nat) (bs : List Byte) (s : State) : (writeMem a bs s).service = s.service := rfl
@[simp] theorem writeMem_time (a : Nat) (bs : List Byte) (s : State) : (writeMem a bs s).time = s.time := rfl
@[simp] theorem writeMem_observe (a : Nat) (bs : List Byte) (s : State) : (writeMem a bs s).observe = s.observe := rfl
@[simp] theorem writeMem_hostMem (a : Nat) (bs : List Byte) (s : State) : (writeMem a bs s).hostMem = s.hostMem := rfl

/-! ### clearMem -/

@[simp] theorem clearMem_pending (lo hi : Nat) (s : State) : (clearMem lo hi s).pending = s.pending := rfl
@[simp] theorem clearMem_powered (lo hi : Nat) (s : State) : (clearMem lo hi s).powered = s.powered := rfl
@[simp] theorem clearMem_clock (lo hi : Nat) (s : State) : (clearMem lo hi s).clock = s.clock := rfl
@[simp] theorem clearMem_timeBase (lo hi : Nat) (s : State) : (clearMem lo hi s).timeBase = s.timeBase := rfl
@[simp] theorem clearMem_timeFrac (lo hi : Nat) (s : State) : (clearMem lo hi s).timeFrac = s.timeFrac := rfl
@[simp] theorem clearMem_freeCtr (lo hi : Nat) (s : State) : (clearMem lo hi s).freeCtr = s.freeCtr := rfl
@[simp] theorem clearMem_regs (lo hi : Nat) (s : State) : (clearMem lo hi s).regs = s.regs := rfl
@[simp] theorem clearMem_resets (lo hi : Nat) (s : State) : (clearMem lo hi s).resets = s.resets := rfl
@[simp] theorem clearMem_img (lo hi : Nat) (s : State) : (clearMem lo hi s).img = s.img := rfl
@[simp] theorem clearMem_memory (lo hi : Nat) (s : State) : (clearMem lo hi s).memory = s.memory := rfl
@[simp] theorem clearMem_xlt (lo hi : Nat) (s : State) : (clearMem lo hi s).xlt = s.xlt := rfl
@[simp] theorem clearMem_queues (lo hi : Nat) (s : State) : (clearMem lo hi s).queues = s.queues := rfl
@[simp] theorem clearMem_req (lo hi : Nat) (s : State) : (clearMem lo hi s).req = s.req := rfl
@[simp] theorem clearMem_tgt (lo hi : Nat) (s : State) : (clearMem lo hi s).tgt = s.tgt := rfl
@[simp] theorem clearMem_sw (lo hi : Nat) (s : State) : (clearMem lo hi s).sw = s.sw := rfl
@[simp] theorem clearMem_links (lo hi : Nat) (s : State) : (clearMem lo hi s).links = s.links := rfl
@[simp] theorem clearMem_credit (lo hi : Nat) (s : State) : (clearMem lo hi s).credit = s.credit := rfl
@[simp] theorem clearMem_owed (lo hi : Nat) (s : State) : (clearMem lo hi s).owed = s.owed := rfl
@[simp] theorem clearMem_counters (lo hi : Nat) (s : State) : (clearMem lo hi s).counters = s.counters := rfl
@[simp] theorem clearMem_latched (lo hi : Nat) (s : State) : (clearMem lo hi s).latched = s.latched := rfl
@[simp] theorem clearMem_array (lo hi : Nat) (s : State) : (clearMem lo hi s).array = s.array := rfl
@[simp] theorem clearMem_caravan (lo hi : Nat) (s : State) : (clearMem lo hi s).caravan = s.caravan := rfl
@[simp] theorem clearMem_rope (lo hi : Nat) (s : State) : (clearMem lo hi s).rope = s.rope := rfl
@[simp] theorem clearMem_tenant (lo hi : Nat) (s : State) : (clearMem lo hi s).tenant = s.tenant := rfl
@[simp] theorem clearMem_host (lo hi : Nat) (s : State) : (clearMem lo hi s).host = s.host := rfl
@[simp] theorem clearMem_side (lo hi : Nat) (s : State) : (clearMem lo hi s).side = s.side := rfl
@[simp] theorem clearMem_power (lo hi : Nat) (s : State) : (clearMem lo hi s).power = s.power := rfl
@[simp] theorem clearMem_service (lo hi : Nat) (s : State) : (clearMem lo hi s).service = s.service := rfl
@[simp] theorem clearMem_time (lo hi : Nat) (s : State) : (clearMem lo hi s).time = s.time := rfl
@[simp] theorem clearMem_observe (lo hi : Nat) (s : State) : (clearMem lo hi s).observe = s.observe := rfl
@[simp] theorem clearMem_hostMem (lo hi : Nat) (s : State) : (clearMem lo hi s).hostMem = s.hostMem := rfl

/-! ### writeHost -/

@[simp] theorem writeHost_pending (a : Nat) (bs : List Byte) (s : State) : (writeHost a bs s).pending = s.pending :=
    rfl
@[simp] theorem writeHost_powered (a : Nat) (bs : List Byte) (s : State) : (writeHost a bs s).powered = s.powered :=
    rfl
@[simp] theorem writeHost_clock (a : Nat) (bs : List Byte) (s : State) : (writeHost a bs s).clock = s.clock := rfl
@[simp] theorem writeHost_timeBase (a : Nat) (bs : List Byte) (s : State) : (writeHost a bs s).timeBase = s.timeBase :=
    rfl
@[simp] theorem writeHost_timeFrac (a : Nat) (bs : List Byte) (s : State) : (writeHost a bs s).timeFrac = s.timeFrac :=
    rfl
@[simp] theorem writeHost_freeCtr (a : Nat) (bs : List Byte) (s : State) : (writeHost a bs s).freeCtr = s.freeCtr :=
    rfl
@[simp] theorem writeHost_regs (a : Nat) (bs : List Byte) (s : State) : (writeHost a bs s).regs = s.regs := rfl
@[simp] theorem writeHost_resets (a : Nat) (bs : List Byte) (s : State) : (writeHost a bs s).resets = s.resets := rfl
@[simp] theorem writeHost_img (a : Nat) (bs : List Byte) (s : State) : (writeHost a bs s).img = s.img := rfl
@[simp] theorem writeHost_mem (a : Nat) (bs : List Byte) (s : State) : (writeHost a bs s).mem = s.mem := rfl
@[simp] theorem writeHost_memory (a : Nat) (bs : List Byte) (s : State) : (writeHost a bs s).memory = s.memory := rfl
@[simp] theorem writeHost_xlt (a : Nat) (bs : List Byte) (s : State) : (writeHost a bs s).xlt = s.xlt := rfl
@[simp] theorem writeHost_queues (a : Nat) (bs : List Byte) (s : State) : (writeHost a bs s).queues = s.queues := rfl
@[simp] theorem writeHost_req (a : Nat) (bs : List Byte) (s : State) : (writeHost a bs s).req = s.req := rfl
@[simp] theorem writeHost_tgt (a : Nat) (bs : List Byte) (s : State) : (writeHost a bs s).tgt = s.tgt := rfl
@[simp] theorem writeHost_sw (a : Nat) (bs : List Byte) (s : State) : (writeHost a bs s).sw = s.sw := rfl
@[simp] theorem writeHost_links (a : Nat) (bs : List Byte) (s : State) : (writeHost a bs s).links = s.links := rfl
@[simp] theorem writeHost_credit (a : Nat) (bs : List Byte) (s : State) : (writeHost a bs s).credit = s.credit := rfl
@[simp] theorem writeHost_owed (a : Nat) (bs : List Byte) (s : State) : (writeHost a bs s).owed = s.owed := rfl
@[simp] theorem writeHost_counters (a : Nat) (bs : List Byte) (s : State) : (writeHost a bs s).counters = s.counters :=
    rfl
@[simp] theorem writeHost_latched (a : Nat) (bs : List Byte) (s : State) : (writeHost a bs s).latched = s.latched :=
    rfl
@[simp] theorem writeHost_array (a : Nat) (bs : List Byte) (s : State) : (writeHost a bs s).array = s.array := rfl
@[simp] theorem writeHost_caravan (a : Nat) (bs : List Byte) (s : State) : (writeHost a bs s).caravan = s.caravan :=
    rfl
@[simp] theorem writeHost_rope (a : Nat) (bs : List Byte) (s : State) : (writeHost a bs s).rope = s.rope := rfl
@[simp] theorem writeHost_tenant (a : Nat) (bs : List Byte) (s : State) : (writeHost a bs s).tenant = s.tenant := rfl
@[simp] theorem writeHost_host (a : Nat) (bs : List Byte) (s : State) : (writeHost a bs s).host = s.host := rfl
@[simp] theorem writeHost_side (a : Nat) (bs : List Byte) (s : State) : (writeHost a bs s).side = s.side := rfl
@[simp] theorem writeHost_power (a : Nat) (bs : List Byte) (s : State) : (writeHost a bs s).power = s.power := rfl
@[simp] theorem writeHost_service (a : Nat) (bs : List Byte) (s : State) : (writeHost a bs s).service = s.service :=
    rfl
@[simp] theorem writeHost_time (a : Nat) (bs : List Byte) (s : State) : (writeHost a bs s).time = s.time := rfl
@[simp] theorem writeHost_observe (a : Nat) (bs : List Byte) (s : State) : (writeHost a bs s).observe = s.observe :=
    rfl

/-! ### sendCore -/

@[simp] theorem sendCore_pending (input : Nat) (f : Frame) (s : State) : (sendCore input f s).pending = s.pending :=
    rfl
@[simp] theorem sendCore_powered (input : Nat) (f : Frame) (s : State) : (sendCore input f s).powered = s.powered :=
    rfl
@[simp] theorem sendCore_clock (input : Nat) (f : Frame) (s : State) : (sendCore input f s).clock = s.clock := rfl
@[simp] theorem sendCore_timeBase (input : Nat) (f : Frame) (s : State) : (sendCore input f s).timeBase = s.timeBase :=
    rfl
@[simp] theorem sendCore_timeFrac (input : Nat) (f : Frame) (s : State) : (sendCore input f s).timeFrac = s.timeFrac :=
    rfl
@[simp] theorem sendCore_freeCtr (input : Nat) (f : Frame) (s : State) : (sendCore input f s).freeCtr = s.freeCtr :=
    rfl
@[simp] theorem sendCore_regs (input : Nat) (f : Frame) (s : State) : (sendCore input f s).regs = s.regs := rfl
@[simp] theorem sendCore_resets (input : Nat) (f : Frame) (s : State) : (sendCore input f s).resets = s.resets := rfl
@[simp] theorem sendCore_img (input : Nat) (f : Frame) (s : State) : (sendCore input f s).img = s.img := rfl
@[simp] theorem sendCore_mem (input : Nat) (f : Frame) (s : State) : (sendCore input f s).mem = s.mem := rfl
@[simp] theorem sendCore_memory (input : Nat) (f : Frame) (s : State) : (sendCore input f s).memory = s.memory := rfl
@[simp] theorem sendCore_xlt (input : Nat) (f : Frame) (s : State) : (sendCore input f s).xlt = s.xlt := rfl
@[simp] theorem sendCore_queues (input : Nat) (f : Frame) (s : State) : (sendCore input f s).queues = s.queues := rfl
@[simp] theorem sendCore_req (input : Nat) (f : Frame) (s : State) : (sendCore input f s).req = s.req := rfl
@[simp] theorem sendCore_tgt (input : Nat) (f : Frame) (s : State) : (sendCore input f s).tgt = s.tgt := rfl
@[simp] theorem sendCore_links (input : Nat) (f : Frame) (s : State) : (sendCore input f s).links = s.links := rfl
@[simp] theorem sendCore_credit (input : Nat) (f : Frame) (s : State) : (sendCore input f s).credit = s.credit := rfl
@[simp] theorem sendCore_owed (input : Nat) (f : Frame) (s : State) : (sendCore input f s).owed = s.owed := rfl
@[simp] theorem sendCore_counters (input : Nat) (f : Frame) (s : State) : (sendCore input f s).counters = s.counters :=
    rfl
@[simp] theorem sendCore_latched (input : Nat) (f : Frame) (s : State) : (sendCore input f s).latched = s.latched :=
    rfl
@[simp] theorem sendCore_array (input : Nat) (f : Frame) (s : State) : (sendCore input f s).array = s.array := rfl
@[simp] theorem sendCore_caravan (input : Nat) (f : Frame) (s : State) : (sendCore input f s).caravan = s.caravan :=
    rfl
@[simp] theorem sendCore_rope (input : Nat) (f : Frame) (s : State) : (sendCore input f s).rope = s.rope := rfl
@[simp] theorem sendCore_tenant (input : Nat) (f : Frame) (s : State) : (sendCore input f s).tenant = s.tenant := rfl
@[simp] theorem sendCore_host (input : Nat) (f : Frame) (s : State) : (sendCore input f s).host = s.host := rfl
@[simp] theorem sendCore_side (input : Nat) (f : Frame) (s : State) : (sendCore input f s).side = s.side := rfl
@[simp] theorem sendCore_power (input : Nat) (f : Frame) (s : State) : (sendCore input f s).power = s.power := rfl
@[simp] theorem sendCore_service (input : Nat) (f : Frame) (s : State) : (sendCore input f s).service = s.service :=
    rfl
@[simp] theorem sendCore_time (input : Nat) (f : Frame) (s : State) : (sendCore input f s).time = s.time := rfl
@[simp] theorem sendCore_observe (input : Nat) (f : Frame) (s : State) : (sendCore input f s).observe = s.observe :=
    rfl
@[simp] theorem sendCore_hostMem (input : Nat) (f : Frame) (s : State) : (sendCore input f s).hostMem = s.hostMem :=
    rfl

/-! ### putStack -/

@[simp] theorem putStack_pending (k : Nat) (v : Stack) (s : State) : (putStack k v s).pending = s.pending := rfl
@[simp] theorem putStack_powered (k : Nat) (v : Stack) (s : State) : (putStack k v s).powered = s.powered := rfl
@[simp] theorem putStack_clock (k : Nat) (v : Stack) (s : State) : (putStack k v s).clock = s.clock := rfl
@[simp] theorem putStack_timeBase (k : Nat) (v : Stack) (s : State) : (putStack k v s).timeBase = s.timeBase := rfl
@[simp] theorem putStack_timeFrac (k : Nat) (v : Stack) (s : State) : (putStack k v s).timeFrac = s.timeFrac := rfl
@[simp] theorem putStack_freeCtr (k : Nat) (v : Stack) (s : State) : (putStack k v s).freeCtr = s.freeCtr := rfl
@[simp] theorem putStack_regs (k : Nat) (v : Stack) (s : State) : (putStack k v s).regs = s.regs := rfl
@[simp] theorem putStack_resets (k : Nat) (v : Stack) (s : State) : (putStack k v s).resets = s.resets := rfl
@[simp] theorem putStack_img (k : Nat) (v : Stack) (s : State) : (putStack k v s).img = s.img := rfl
@[simp] theorem putStack_mem (k : Nat) (v : Stack) (s : State) : (putStack k v s).mem = s.mem := rfl
@[simp] theorem putStack_xlt (k : Nat) (v : Stack) (s : State) : (putStack k v s).xlt = s.xlt := rfl
@[simp] theorem putStack_queues (k : Nat) (v : Stack) (s : State) : (putStack k v s).queues = s.queues := rfl
@[simp] theorem putStack_req (k : Nat) (v : Stack) (s : State) : (putStack k v s).req = s.req := rfl
@[simp] theorem putStack_tgt (k : Nat) (v : Stack) (s : State) : (putStack k v s).tgt = s.tgt := rfl
@[simp] theorem putStack_sw (k : Nat) (v : Stack) (s : State) : (putStack k v s).sw = s.sw := rfl
@[simp] theorem putStack_links (k : Nat) (v : Stack) (s : State) : (putStack k v s).links = s.links := rfl
@[simp] theorem putStack_credit (k : Nat) (v : Stack) (s : State) : (putStack k v s).credit = s.credit := rfl
@[simp] theorem putStack_owed (k : Nat) (v : Stack) (s : State) : (putStack k v s).owed = s.owed := rfl
@[simp] theorem putStack_counters (k : Nat) (v : Stack) (s : State) : (putStack k v s).counters = s.counters := rfl
@[simp] theorem putStack_latched (k : Nat) (v : Stack) (s : State) : (putStack k v s).latched = s.latched := rfl
@[simp] theorem putStack_array (k : Nat) (v : Stack) (s : State) : (putStack k v s).array = s.array := rfl
@[simp] theorem putStack_caravan (k : Nat) (v : Stack) (s : State) : (putStack k v s).caravan = s.caravan := rfl
@[simp] theorem putStack_rope (k : Nat) (v : Stack) (s : State) : (putStack k v s).rope = s.rope := rfl
@[simp] theorem putStack_tenant (k : Nat) (v : Stack) (s : State) : (putStack k v s).tenant = s.tenant := rfl
@[simp] theorem putStack_host (k : Nat) (v : Stack) (s : State) : (putStack k v s).host = s.host := rfl
@[simp] theorem putStack_side (k : Nat) (v : Stack) (s : State) : (putStack k v s).side = s.side := rfl
@[simp] theorem putStack_power (k : Nat) (v : Stack) (s : State) : (putStack k v s).power = s.power := rfl
@[simp] theorem putStack_service (k : Nat) (v : Stack) (s : State) : (putStack k v s).service = s.service := rfl
@[simp] theorem putStack_time (k : Nat) (v : Stack) (s : State) : (putStack k v s).time = s.time := rfl
@[simp] theorem putStack_observe (k : Nat) (v : Stack) (s : State) : (putStack k v s).observe = s.observe := rfl
@[simp] theorem putStack_hostMem (k : Nat) (v : Stack) (s : State) : (putStack k v s).hostMem = s.hostMem := rfl

/-! ### putSlot -/

@[simp] theorem putSlot_pending (n : Nat) (k : KeySlot) (s : State) : (putSlot n k s).pending = s.pending := rfl
@[simp] theorem putSlot_powered (n : Nat) (k : KeySlot) (s : State) : (putSlot n k s).powered = s.powered := rfl
@[simp] theorem putSlot_clock (n : Nat) (k : KeySlot) (s : State) : (putSlot n k s).clock = s.clock := rfl
@[simp] theorem putSlot_timeBase (n : Nat) (k : KeySlot) (s : State) : (putSlot n k s).timeBase = s.timeBase := rfl
@[simp] theorem putSlot_timeFrac (n : Nat) (k : KeySlot) (s : State) : (putSlot n k s).timeFrac = s.timeFrac := rfl
@[simp] theorem putSlot_freeCtr (n : Nat) (k : KeySlot) (s : State) : (putSlot n k s).freeCtr = s.freeCtr := rfl
@[simp] theorem putSlot_regs (n : Nat) (k : KeySlot) (s : State) : (putSlot n k s).regs = s.regs := rfl
@[simp] theorem putSlot_resets (n : Nat) (k : KeySlot) (s : State) : (putSlot n k s).resets = s.resets := rfl
@[simp] theorem putSlot_img (n : Nat) (k : KeySlot) (s : State) : (putSlot n k s).img = s.img := rfl
@[simp] theorem putSlot_mem (n : Nat) (k : KeySlot) (s : State) : (putSlot n k s).mem = s.mem := rfl
@[simp] theorem putSlot_memory (n : Nat) (k : KeySlot) (s : State) : (putSlot n k s).memory = s.memory := rfl
@[simp] theorem putSlot_xlt (n : Nat) (k : KeySlot) (s : State) : (putSlot n k s).xlt = s.xlt := rfl
@[simp] theorem putSlot_queues (n : Nat) (k : KeySlot) (s : State) : (putSlot n k s).queues = s.queues := rfl
@[simp] theorem putSlot_req (n : Nat) (k : KeySlot) (s : State) : (putSlot n k s).req = s.req := rfl
@[simp] theorem putSlot_tgt (n : Nat) (k : KeySlot) (s : State) : (putSlot n k s).tgt = s.tgt := rfl
@[simp] theorem putSlot_sw (n : Nat) (k : KeySlot) (s : State) : (putSlot n k s).sw = s.sw := rfl
@[simp] theorem putSlot_links (n : Nat) (k : KeySlot) (s : State) : (putSlot n k s).links = s.links := rfl
@[simp] theorem putSlot_credit (n : Nat) (k : KeySlot) (s : State) : (putSlot n k s).credit = s.credit := rfl
@[simp] theorem putSlot_owed (n : Nat) (k : KeySlot) (s : State) : (putSlot n k s).owed = s.owed := rfl
@[simp] theorem putSlot_counters (n : Nat) (k : KeySlot) (s : State) : (putSlot n k s).counters = s.counters := rfl
@[simp] theorem putSlot_latched (n : Nat) (k : KeySlot) (s : State) : (putSlot n k s).latched = s.latched := rfl
@[simp] theorem putSlot_array (n : Nat) (k : KeySlot) (s : State) : (putSlot n k s).array = s.array := rfl
@[simp] theorem putSlot_caravan (n : Nat) (k : KeySlot) (s : State) : (putSlot n k s).caravan = s.caravan := rfl
@[simp] theorem putSlot_rope (n : Nat) (k : KeySlot) (s : State) : (putSlot n k s).rope = s.rope := rfl
@[simp] theorem putSlot_host (n : Nat) (k : KeySlot) (s : State) : (putSlot n k s).host = s.host := rfl
@[simp] theorem putSlot_side (n : Nat) (k : KeySlot) (s : State) : (putSlot n k s).side = s.side := rfl
@[simp] theorem putSlot_power (n : Nat) (k : KeySlot) (s : State) : (putSlot n k s).power = s.power := rfl
@[simp] theorem putSlot_service (n : Nat) (k : KeySlot) (s : State) : (putSlot n k s).service = s.service := rfl
@[simp] theorem putSlot_time (n : Nat) (k : KeySlot) (s : State) : (putSlot n k s).time = s.time := rfl
@[simp] theorem putSlot_observe (n : Nat) (k : KeySlot) (s : State) : (putSlot n k s).observe = s.observe := rfl
@[simp] theorem putSlot_hostMem (n : Nat) (k : KeySlot) (s : State) : (putSlot n k s).hostMem = s.hostMem := rfl

/-! ### putQ -/

@[simp] theorem putQ_pending (q : Nat) (v : Queue) (s : State) : (putQ q v s).pending = s.pending := rfl
@[simp] theorem putQ_powered (q : Nat) (v : Queue) (s : State) : (putQ q v s).powered = s.powered := rfl
@[simp] theorem putQ_clock (q : Nat) (v : Queue) (s : State) : (putQ q v s).clock = s.clock := rfl
@[simp] theorem putQ_timeBase (q : Nat) (v : Queue) (s : State) : (putQ q v s).timeBase = s.timeBase := rfl
@[simp] theorem putQ_timeFrac (q : Nat) (v : Queue) (s : State) : (putQ q v s).timeFrac = s.timeFrac := rfl
@[simp] theorem putQ_freeCtr (q : Nat) (v : Queue) (s : State) : (putQ q v s).freeCtr = s.freeCtr := rfl
@[simp] theorem putQ_regs (q : Nat) (v : Queue) (s : State) : (putQ q v s).regs = s.regs := rfl
@[simp] theorem putQ_resets (q : Nat) (v : Queue) (s : State) : (putQ q v s).resets = s.resets := rfl
@[simp] theorem putQ_img (q : Nat) (v : Queue) (s : State) : (putQ q v s).img = s.img := rfl
@[simp] theorem putQ_mem (q : Nat) (v : Queue) (s : State) : (putQ q v s).mem = s.mem := rfl
@[simp] theorem putQ_memory (q : Nat) (v : Queue) (s : State) : (putQ q v s).memory = s.memory := rfl
@[simp] theorem putQ_xlt (q : Nat) (v : Queue) (s : State) : (putQ q v s).xlt = s.xlt := rfl
@[simp] theorem putQ_req (q : Nat) (v : Queue) (s : State) : (putQ q v s).req = s.req := rfl
@[simp] theorem putQ_tgt (q : Nat) (v : Queue) (s : State) : (putQ q v s).tgt = s.tgt := rfl
@[simp] theorem putQ_sw (q : Nat) (v : Queue) (s : State) : (putQ q v s).sw = s.sw := rfl
@[simp] theorem putQ_links (q : Nat) (v : Queue) (s : State) : (putQ q v s).links = s.links := rfl
@[simp] theorem putQ_credit (q : Nat) (v : Queue) (s : State) : (putQ q v s).credit = s.credit := rfl
@[simp] theorem putQ_owed (q : Nat) (v : Queue) (s : State) : (putQ q v s).owed = s.owed := rfl
@[simp] theorem putQ_counters (q : Nat) (v : Queue) (s : State) : (putQ q v s).counters = s.counters := rfl
@[simp] theorem putQ_latched (q : Nat) (v : Queue) (s : State) : (putQ q v s).latched = s.latched := rfl
@[simp] theorem putQ_array (q : Nat) (v : Queue) (s : State) : (putQ q v s).array = s.array := rfl
@[simp] theorem putQ_caravan (q : Nat) (v : Queue) (s : State) : (putQ q v s).caravan = s.caravan := rfl
@[simp] theorem putQ_rope (q : Nat) (v : Queue) (s : State) : (putQ q v s).rope = s.rope := rfl
@[simp] theorem putQ_tenant (q : Nat) (v : Queue) (s : State) : (putQ q v s).tenant = s.tenant := rfl
@[simp] theorem putQ_host (q : Nat) (v : Queue) (s : State) : (putQ q v s).host = s.host := rfl
@[simp] theorem putQ_side (q : Nat) (v : Queue) (s : State) : (putQ q v s).side = s.side := rfl
@[simp] theorem putQ_power (q : Nat) (v : Queue) (s : State) : (putQ q v s).power = s.power := rfl
@[simp] theorem putQ_service (q : Nat) (v : Queue) (s : State) : (putQ q v s).service = s.service := rfl
@[simp] theorem putQ_time (q : Nat) (v : Queue) (s : State) : (putQ q v s).time = s.time := rfl
@[simp] theorem putQ_observe (q : Nat) (v : Queue) (s : State) : (putQ q v s).observe = s.observe := rfl
@[simp] theorem putQ_hostMem (q : Nat) (v : Queue) (s : State) : (putQ q v s).hostMem = s.hostMem := rfl

/-! ### putLink -/

@[simp] theorem putLink_pending (p : Nat) (k : Link) (s : State) : (putLink p k s).pending = s.pending := rfl
@[simp] theorem putLink_powered (p : Nat) (k : Link) (s : State) : (putLink p k s).powered = s.powered := rfl
@[simp] theorem putLink_clock (p : Nat) (k : Link) (s : State) : (putLink p k s).clock = s.clock := rfl
@[simp] theorem putLink_timeBase (p : Nat) (k : Link) (s : State) : (putLink p k s).timeBase = s.timeBase := rfl
@[simp] theorem putLink_timeFrac (p : Nat) (k : Link) (s : State) : (putLink p k s).timeFrac = s.timeFrac := rfl
@[simp] theorem putLink_freeCtr (p : Nat) (k : Link) (s : State) : (putLink p k s).freeCtr = s.freeCtr := rfl
@[simp] theorem putLink_regs (p : Nat) (k : Link) (s : State) : (putLink p k s).regs = s.regs := rfl
@[simp] theorem putLink_resets (p : Nat) (k : Link) (s : State) : (putLink p k s).resets = s.resets := rfl
@[simp] theorem putLink_img (p : Nat) (k : Link) (s : State) : (putLink p k s).img = s.img := rfl
@[simp] theorem putLink_mem (p : Nat) (k : Link) (s : State) : (putLink p k s).mem = s.mem := rfl
@[simp] theorem putLink_memory (p : Nat) (k : Link) (s : State) : (putLink p k s).memory = s.memory := rfl
@[simp] theorem putLink_xlt (p : Nat) (k : Link) (s : State) : (putLink p k s).xlt = s.xlt := rfl
@[simp] theorem putLink_queues (p : Nat) (k : Link) (s : State) : (putLink p k s).queues = s.queues := rfl
@[simp] theorem putLink_req (p : Nat) (k : Link) (s : State) : (putLink p k s).req = s.req := rfl
@[simp] theorem putLink_tgt (p : Nat) (k : Link) (s : State) : (putLink p k s).tgt = s.tgt := rfl
@[simp] theorem putLink_sw (p : Nat) (k : Link) (s : State) : (putLink p k s).sw = s.sw := rfl
@[simp] theorem putLink_credit (p : Nat) (k : Link) (s : State) : (putLink p k s).credit = s.credit := rfl
@[simp] theorem putLink_owed (p : Nat) (k : Link) (s : State) : (putLink p k s).owed = s.owed := rfl
@[simp] theorem putLink_counters (p : Nat) (k : Link) (s : State) : (putLink p k s).counters = s.counters := rfl
@[simp] theorem putLink_latched (p : Nat) (k : Link) (s : State) : (putLink p k s).latched = s.latched := rfl
@[simp] theorem putLink_array (p : Nat) (k : Link) (s : State) : (putLink p k s).array = s.array := rfl
@[simp] theorem putLink_caravan (p : Nat) (k : Link) (s : State) : (putLink p k s).caravan = s.caravan := rfl
@[simp] theorem putLink_rope (p : Nat) (k : Link) (s : State) : (putLink p k s).rope = s.rope := rfl
@[simp] theorem putLink_tenant (p : Nat) (k : Link) (s : State) : (putLink p k s).tenant = s.tenant := rfl
@[simp] theorem putLink_host (p : Nat) (k : Link) (s : State) : (putLink p k s).host = s.host := rfl
@[simp] theorem putLink_side (p : Nat) (k : Link) (s : State) : (putLink p k s).side = s.side := rfl
@[simp] theorem putLink_power (p : Nat) (k : Link) (s : State) : (putLink p k s).power = s.power := rfl
@[simp] theorem putLink_service (p : Nat) (k : Link) (s : State) : (putLink p k s).service = s.service := rfl
@[simp] theorem putLink_time (p : Nat) (k : Link) (s : State) : (putLink p k s).time = s.time := rfl
@[simp] theorem putLink_observe (p : Nat) (k : Link) (s : State) : (putLink p k s).observe = s.observe := rfl
@[simp] theorem putLink_hostMem (p : Nat) (k : Link) (s : State) : (putLink p k s).hostMem = s.hostMem := rfl

/-! ### putRun -/

@[simp] theorem putRun_pending (r : RunRec) (s : State) : (putRun r s).pending = s.pending := by
  unfold putRun; split <;> rfl
@[simp] theorem putRun_powered (r : RunRec) (s : State) : (putRun r s).powered = s.powered := by
  unfold putRun; split <;> rfl
@[simp] theorem putRun_clock (r : RunRec) (s : State) : (putRun r s).clock = s.clock := by
  unfold putRun; split <;> rfl
@[simp] theorem putRun_timeBase (r : RunRec) (s : State) : (putRun r s).timeBase = s.timeBase := by
  unfold putRun; split <;> rfl
@[simp] theorem putRun_timeFrac (r : RunRec) (s : State) : (putRun r s).timeFrac = s.timeFrac := by
  unfold putRun; split <;> rfl
@[simp] theorem putRun_freeCtr (r : RunRec) (s : State) : (putRun r s).freeCtr = s.freeCtr := by
  unfold putRun; split <;> rfl
@[simp] theorem putRun_regs (r : RunRec) (s : State) : (putRun r s).regs = s.regs := by
  unfold putRun; split <;> rfl
@[simp] theorem putRun_resets (r : RunRec) (s : State) : (putRun r s).resets = s.resets := by
  unfold putRun; split <;> rfl
@[simp] theorem putRun_img (r : RunRec) (s : State) : (putRun r s).img = s.img := by
  unfold putRun; split <;> rfl
@[simp] theorem putRun_mem (r : RunRec) (s : State) : (putRun r s).mem = s.mem := by
  unfold putRun; split <;> rfl
@[simp] theorem putRun_memory (r : RunRec) (s : State) : (putRun r s).memory = s.memory := by
  unfold putRun; split <;> rfl
@[simp] theorem putRun_xlt (r : RunRec) (s : State) : (putRun r s).xlt = s.xlt := by
  unfold putRun; split <;> rfl
@[simp] theorem putRun_queues (r : RunRec) (s : State) : (putRun r s).queues = s.queues := by
  unfold putRun; split <;> rfl
@[simp] theorem putRun_req (r : RunRec) (s : State) : (putRun r s).req = s.req := by
  unfold putRun; split <;> rfl
@[simp] theorem putRun_tgt (r : RunRec) (s : State) : (putRun r s).tgt = s.tgt := by
  unfold putRun; split <;> rfl
@[simp] theorem putRun_sw (r : RunRec) (s : State) : (putRun r s).sw = s.sw := by
  unfold putRun; split <;> rfl
@[simp] theorem putRun_links (r : RunRec) (s : State) : (putRun r s).links = s.links := by
  unfold putRun; split <;> rfl
@[simp] theorem putRun_credit (r : RunRec) (s : State) : (putRun r s).credit = s.credit := by
  unfold putRun; split <;> rfl
@[simp] theorem putRun_owed (r : RunRec) (s : State) : (putRun r s).owed = s.owed := by
  unfold putRun; split <;> rfl
@[simp] theorem putRun_counters (r : RunRec) (s : State) : (putRun r s).counters = s.counters := by
  unfold putRun; split <;> rfl
@[simp] theorem putRun_latched (r : RunRec) (s : State) : (putRun r s).latched = s.latched := by
  unfold putRun; split <;> rfl
@[simp] theorem putRun_caravan (r : RunRec) (s : State) : (putRun r s).caravan = s.caravan := by
  unfold putRun; split <;> rfl
@[simp] theorem putRun_tenant (r : RunRec) (s : State) : (putRun r s).tenant = s.tenant := by
  unfold putRun; split <;> rfl
@[simp] theorem putRun_host (r : RunRec) (s : State) : (putRun r s).host = s.host := by
  unfold putRun; split <;> rfl
@[simp] theorem putRun_side (r : RunRec) (s : State) : (putRun r s).side = s.side := by
  unfold putRun; split <;> rfl
@[simp] theorem putRun_power (r : RunRec) (s : State) : (putRun r s).power = s.power := by
  unfold putRun; split <;> rfl
@[simp] theorem putRun_service (r : RunRec) (s : State) : (putRun r s).service = s.service := by
  unfold putRun; split <;> rfl
@[simp] theorem putRun_time (r : RunRec) (s : State) : (putRun r s).time = s.time := by
  unfold putRun; split <;> rfl
@[simp] theorem putRun_observe (r : RunRec) (s : State) : (putRun r s).observe = s.observe := by
  unfold putRun; split <;> rfl
@[simp] theorem putRun_hostMem (r : RunRec) (s : State) : (putRun r s).hostMem = s.hostMem := by
  unfold putRun; split <;> rfl

/-! ### putColl -/

@[simp] theorem putColl_pending (c : Coll) (s : State) : (putColl c s).pending = s.pending := rfl
@[simp] theorem putColl_powered (c : Coll) (s : State) : (putColl c s).powered = s.powered := rfl
@[simp] theorem putColl_clock (c : Coll) (s : State) : (putColl c s).clock = s.clock := rfl
@[simp] theorem putColl_timeBase (c : Coll) (s : State) : (putColl c s).timeBase = s.timeBase := rfl
@[simp] theorem putColl_timeFrac (c : Coll) (s : State) : (putColl c s).timeFrac = s.timeFrac := rfl
@[simp] theorem putColl_freeCtr (c : Coll) (s : State) : (putColl c s).freeCtr = s.freeCtr := rfl
@[simp] theorem putColl_regs (c : Coll) (s : State) : (putColl c s).regs = s.regs := rfl
@[simp] theorem putColl_resets (c : Coll) (s : State) : (putColl c s).resets = s.resets := rfl
@[simp] theorem putColl_img (c : Coll) (s : State) : (putColl c s).img = s.img := rfl
@[simp] theorem putColl_mem (c : Coll) (s : State) : (putColl c s).mem = s.mem := rfl
@[simp] theorem putColl_memory (c : Coll) (s : State) : (putColl c s).memory = s.memory := rfl
@[simp] theorem putColl_xlt (c : Coll) (s : State) : (putColl c s).xlt = s.xlt := rfl
@[simp] theorem putColl_queues (c : Coll) (s : State) : (putColl c s).queues = s.queues := rfl
@[simp] theorem putColl_req (c : Coll) (s : State) : (putColl c s).req = s.req := rfl
@[simp] theorem putColl_tgt (c : Coll) (s : State) : (putColl c s).tgt = s.tgt := rfl
@[simp] theorem putColl_sw (c : Coll) (s : State) : (putColl c s).sw = s.sw := rfl
@[simp] theorem putColl_links (c : Coll) (s : State) : (putColl c s).links = s.links := rfl
@[simp] theorem putColl_credit (c : Coll) (s : State) : (putColl c s).credit = s.credit := rfl
@[simp] theorem putColl_owed (c : Coll) (s : State) : (putColl c s).owed = s.owed := rfl
@[simp] theorem putColl_counters (c : Coll) (s : State) : (putColl c s).counters = s.counters := rfl
@[simp] theorem putColl_latched (c : Coll) (s : State) : (putColl c s).latched = s.latched := rfl
@[simp] theorem putColl_array (c : Coll) (s : State) : (putColl c s).array = s.array := rfl
@[simp] theorem putColl_rope (c : Coll) (s : State) : (putColl c s).rope = s.rope := rfl
@[simp] theorem putColl_tenant (c : Coll) (s : State) : (putColl c s).tenant = s.tenant := rfl
@[simp] theorem putColl_host (c : Coll) (s : State) : (putColl c s).host = s.host := rfl
@[simp] theorem putColl_side (c : Coll) (s : State) : (putColl c s).side = s.side := rfl
@[simp] theorem putColl_power (c : Coll) (s : State) : (putColl c s).power = s.power := rfl
@[simp] theorem putColl_service (c : Coll) (s : State) : (putColl c s).service = s.service := rfl
@[simp] theorem putColl_time (c : Coll) (s : State) : (putColl c s).time = s.time := rfl
@[simp] theorem putColl_observe (c : Coll) (s : State) : (putColl c s).observe = s.observe := rfl
@[simp] theorem putColl_hostMem (c : Coll) (s : State) : (putColl c s).hostMem = s.hostMem := rfl

/-- An entry of the log touches the service state alone. -/
theorem logEvent_frame (b i k : Nat) (st p : Byte) (d : BitVec 128) (s : State) :
    logEvent b i k st p d s = { s with service := (logEvent b i k st p d s).service } := by rw [logEvent]

/-! ### What is read back -/

@[simp] theorem getReg_logEvent (o b i k : Nat) (st p : Byte) (d : BitVec 128) (s : State) :
    getReg o (logEvent b i k st p d s) = getReg o s := by simp only [getReg, logEvent_regs]


@[simp] theorem getQ_putQ_self (q : Nat) (v : Queue) (s : State) : getQ q (putQ q v s) = v := by simp [getQ, putQ]

@[simp] theorem linkOf_putLink_self (p : Nat) (k : Link) (s : State) : linkOf p (putLink p k s) = k := by
  simp [linkOf, putLink]

@[simp] theorem getStack_putStack_self (k : Nat) (v : Stack) (s : State) : getStack k (putStack k v s) = v := by
  simp [getStack, putStack]

@[simp] theorem getSlot_putSlot_self (n : Nat) (k : KeySlot) (s : State) : getSlot n (putSlot n k s) = k := by
  simp [getSlot, putSlot]

theorem getQ_putQ_ne {p q : Nat} (h : p ≠ q) (v : Queue) (s : State) : getQ p (putQ q v s) = getQ p s := by
  simp [getQ, putQ, tblGet_tblSet_ne _ _ _ (Ne.symm h)]

theorem linkOf_putLink_ne {p q : Nat} (h : p ≠ q) (k : Link) (s : State) : linkOf p (putLink q k s) = linkOf p s := by
  simp [linkOf, putLink, tblGet_tblSet_ne _ _ _ (Ne.symm h)]

end Sys2Proof.Machine
end

