-- ==== Sys2Proof/Machine/Library.lean ====
section
/-! DEFINITION. What the library's routes compute (R255). A run executes the bytes of the image it is given (R241); these
are the functions that the images of the library have, which the caravan's steps use for IDs 1 to 8 (`stepRoute`,
`combineElem`, `toAnchored`, `fromAnchored` of Plan.lean; log entry 36). -/
namespace Sys2Proof.Machine

/-- A route of the library: its ID, whether ORDER_DEP is 1, how many argument words from word 2 on it takes, whether the
caravan runs its steps with it. -/
structure LibRoute where
  id : Nat
  orderDep : Bool
  words : Nat
  step : Bool
  deriving DecidableEq, Repr

/-- The routes of R255. -/
def libraryTable : List LibRoute :=
  [⟨0x0001, false, 0, true⟩, ⟨0x0002, false, 0, true⟩, ⟨0x0003, false, 1, true⟩, ⟨0x0004, false, 1, true⟩,
   ⟨0x0005, true, 1, true⟩, ⟨0x0006, false, 1, true⟩, ⟨0x0007, false, 1, true⟩, ⟨0x0008, false, 1, true⟩,
   ⟨0x0009, false, 1, false⟩, ⟨0x000A, false, 1, false⟩, ⟨0x000B, false, 2, false⟩, ⟨0x000C, false, 5, false⟩,
   ⟨0x000D, false, 1, false⟩, ⟨0x000E, false, 1, false⟩, ⟨0x000F, false, 1, false⟩, ⟨0x0010, false, 0, false⟩]

/-- CAST: a code of a format in another (R183). -/
def libCast (src dst : Fmt) (mode code : Nat) : Option Nat :=
  convert src dst (src.width mode) (dst.width mode) .nearest code

/-- MX_QUANT: a block of fp32 or bf16 values in an MX format (R147, R184). -/
def libMxQuant (src target : Nat) (bs : List Byte) : List Byte :=
  encodeBlock ⟨0, 0, target, 0, 0, 0⟩ (blockValues ⟨0, 0, src, 0, 0, 0⟩ bs)

/-- The anchored sum in bf16 of one element of two contributions under their block's anchor byte (R189 to R191). -/
def anchoredPair (anchor a b : Nat) : Option Nat :=
  match toFixed false anchor (decodeLane .bf16 16 a), toFixed false anchor (decodeLane .bf16 16 b) with
  | some x, some y => roundFloat .bf16 (fromFixed false anchor (decodeInt true 32 (wrapInt 32 (x + y))))
  | _, _ => none

/-- OPT_MOMENTUM on one element: v′ = β v + g and w′ = w − η v′ in fp32, each rounded once, where g is the anchored sum of
the contributions; words 2 and 3 give β and −η. -/
def libMomentum (anchor a b v w beta negEta : Nat) : Option (Nat × Nat) := do
  let g ← anchoredPair anchor a b
  let g32 ← convert .bf16 .fp32 16 32 .nearest g
  let v1 ← ringMac .plusTimes .fp32 32 v beta g32
  let w1 ← ringMac .plusTimes .fp32 32 v1 negEta w
  pure (v1, w1)

/-- SCAN: the inclusive prefix ⊕ of a sequence, from a value before it (R187). -/
def libScan (r : Ring) (f : Fmt) (w : Nat) : Option Nat → List Nat → List (Option Nat)
  | _, [] => []
  | acc, x :: t =>
    let here := match acc with
      | some a => ringPlus r f w a x
      | none => some x
    here :: libScan r f w here t

/-- A (value, index) pair stands before another: the larger value, a NaN above all, of equal ones the lower index
(R185). -/
def standsBefore (f : Fmt) (w : Nat) (x y : Nat × Nat) : Bool :=
  let a := decodeLane f w x.1
  let b := decodeLane f w y.1
  if a.isNan && b.isNan then decide (x.2 ≤ y.2)
  else if a.isNan || b.isNan then a.isNan
  else if fEq a b then decide (x.2 ≤ y.2)
  else fLt b a

/-- Inserts a pair into pairs in that order. -/
def insertPair (f : Fmt) (w : Nat) (x : Nat × Nat) : List (Nat × Nat) → List (Nat × Nat)
  | [] => [x]
  | y :: t => if standsBefore f w x y then x :: y :: t else y :: insertPair f w x t

/-- TOPK: the `k` largest values with their 32-bit indices, `k` at most 256. -/
def libTopk (f : Fmt) (w k : Nat) (l : List Nat) : List (Nat × Nat) :=
  ((l.mapIdx (fun i v => (v, i))).foldl (fun acc x => insertPair f w x acc) []).take (min k 256)

/-- Inserts a key with its payload into an ascending sequence, behind equal keys. -/
def insertKey (f : Fmt) (w : Nat) (x : Nat × Nat) : List (Nat × Nat) → List (Nat × Nat)
  | [] => [x]
  | y :: t => if fLt (decodeLane f w x.1) (decodeLane f w y.1) then x :: y :: t else y :: insertKey f w x t

/-- MERGE_SORT: keys ascending, each with its 32-bit payload. -/
def libMergeSort (f : Fmt) (w : Nat) (l : List (Nat × Nat)) : List (Nat × Nat) :=
  l.foldl (fun acc x => insertKey f w x acc) []

/-- MINPLUS: a label relaxed over (label, weight) of its predecessors: (min,+) in fp32. -/
def libMinplus (label : Nat) (preds : List (Nat × Nat)) : Option Nat :=
  preds.foldl (fun acc p => acc.bind (fun l => ringMac .minPlus .fp32 32 p.1 p.2 l)) (some label)

end Sys2Proof.Machine
end

