-- ==== Sys2Proof/Machine/Module.lean ====
section
/-! DEFINITION. What the module shows outside its registers: the side-band connector's pins (R379, R400, R411, R412), the
islands that clock the part's blocks (R12, R442), how its power divides and how warm that makes it (R407, R414), and the
kind of a CXL.cache request (R365). -/
namespace Sys2Proof.Machine

/-! ### The side-band connector (R379, R411, R412) -/

/-- The signals of the connector. -/
inductive Pin where
  | gnd | i3cScl | i3cSda | pwrWarnN | perstN | sbRstN | ready | attnN | thermAlertN | thermTripN | timeSync
  deriving DecidableEq, Repr

/-- The signal at a position of the connector, 1 to 16 (R411). -/
def pinAt : Nat → Pin
  | 2 => .i3cScl
  | 3 => .i3cSda
  | 5 => .pwrWarnN
  | 6 => .perstN
  | 7 => .sbRstN
  | 9 => .ready
  | 10 => .attnN
  | 11 => .thermAlertN
  | 12 => .thermTripN
  | 14 => .timeSync
  | _ => .gnd

/-- What the part does to a pin: it drives it high or low, or leaves it alone. -/
inductive Drive where
  | high | low | off
  deriving DecidableEq, Repr

/-- An open-drain pin, low while asserted (R412). -/
def openDrain (asserted : Bool) : Drive := if asserted then .low else .off

/-- A push-pull pin (R412). -/
def pushPull (x : Bool) : Drive := if x then .high else .low

/-- The 48 V input feeds the part. -/
def inputPresent (s : State) : Bool := decide (s.power.supply ≠ .off)

/-- What the part does to its pins. Without 48 V every output is high-impedance; THERM_TRIP_N stays asserted after the
trip has taken the power from the domains, until 48 V is removed; READY follows KPR_STATUS.READY; TIME_SYNC is an output
at the time-base root (R379, R394, R412). -/
def pinDrive (pin : Pin) (s : State) : Drive :=
  if !(inputPresent s) then .off
  else match pin with
    | .gnd => .low
    | .i3cScl | .i3cSda | .pwrWarnN | .perstN | .sbRstN => .off
    | .ready => pushPull (s.powered && isReady s)
    | .attnN => openDrain (s.powered && attnPin s)
    | .thermAlertN => openDrain (s.powered && thermAlert s)
    | .thermTripN => openDrain s.power.tripped
    | .timeSync => if s.powered && isRoot s then pushPull (timeSyncPin s) else .off

/-! ### Clock islands (R12, R442) -/

/-- The islands. -/
inductive Island where
  | array | switchCore | memory | keeper | port (n : Nat)
  deriving DecidableEq, Repr

/-- An island's clock in kHz; a port runs on the recovered clock of its lanes. -/
def islandKhz : Island → Option Nat
  | .array => some 1500000
  | .switchCore => some 1250000
  | .memory => some 1200000
  | .keeper => some 800000
  | .port _ => none

/-- The island that clocks a register block (R442). -/
def registerIsland (blk : Nat) : Island :=
  if blk = bKPR ∨ blk = bSEC ∨ blk = bTIM ∨ blk = bCNT ∨ blk = bDBG then .keeper
  else if blk = bMEM then .memory
  else .switchCore

/-! ### Power and cooling (R407, R414) -/

/-- The part's loads at the rails, in W: links up with the array idle, and at most (R407). -/
def loads : List (Nat × Nat) := [(130, 130), (15, 15), (85, 115), (70, 150), (84, 314), (12, 12)]

/-- Total load with links up and the array idle, and at most. -/
def idleLoad : Nat := (loads.map (·.1)).sum
def maxLoad : Nat := (loads.map (·.2)).sum

/-- Input power of a load, in W to the nearest: 92 % reaches the rails (R407). -/
def inputOf (load : Nat) : Nat := (load * 100 + 46) / 92

/-- The hottest junction in hundredths of a degree, from the inlet in degrees, the input power in W and whether the
coolant is 25 % glycol (R414). -/
def junction (inlet watts : Nat) (glycol : Bool) : Nat := 100 * inlet + (if glycol then 11 * watts / 2 else 5 * watts)

/-! ### CXL.cache (R365) -/

/-- The requests of CXL.cache that the part makes. -/
inductive CacheReq where
  | rdCurr | itoMWr | wrCur
  deriving DecidableEq, Repr

/-- A read, a write of a whole line of 64 B, a write of part of one (R365). -/
def cacheReq (write : Bool) (addr n : Nat) : CacheReq :=
  if write = false then .rdCurr else if addr % 64 = 0 ∧ 64 ≤ n then .itoMWr else .wrCur

end Sys2Proof.Machine
end

