-- ==== Sys2Proof/Tests/Slice0.lean ====
section
/-! SUPPORT. Tests: ill-formed commands that the well-formedness check refuses, the spec's worked figures, and for each
statement of Obligations.lean a concrete state and operands that meet its hypotheses, clause by clause. -/
namespace Sys2Proof.Tests
open Sys2Proof Sys2Proof.Machine
set_option Elab.async false

/-! ### Small states -/

/-- A part in READY with no domain in reset, holding nothing. -/
def w0 : State :=
  let s := baseState imageDefault []
  { s with resets := [], power.stage := 13 }

/-- A state with some registers written. -/
def withRegs (l : List (Nat × Word)) (s : State) : State := l.foldl (fun s e => putReg e.1 e.2 s) s

/-- A state with eight bytes of memory written. -/
def put8 (a v : Nat) (s : State) : State := writeMem a (bytesOfNat 8 v) s

/-- A descriptor: its opcode, its flags, and fields of its body by byte offset. -/
def mkDesc (op flags : Nat) (l : List (Nat × Nat)) : Descriptor :=
  BitVec.ofNat 512 (op + 256 * flags + (l.map (fun e => e.2 * 2 ^ (8 * e.1))).sum)

/-- A fetched descriptor. -/
def fd (raw : Descriptor) : DescEx := freshDesc 0 raw

/-- A fetched descriptor that has started. -/
def fds (raw : Descriptor) : DescEx := { freshDesc 0 raw with started := true }

/-- Queue 3 enabled under a partition and an engine, running with some descriptors fetched. -/
def wq (part engine : Nat) (l : List DescEx) (s : State) : State :=
  putQ 3 { queue0 with st := .running, producer := 5, porter := some 0, fetched := l }
    (putReg (rQcfg 3) (BitVec.ofNat 64 (2 ^ 63 + part * 2 ^ 48 + 2 ^ 40 + engine * 2 ^ 34)) s)

/-- Partition 7 active in slot 2, its tables at the start of the part-private region, its 1 GiB page 0 mapped by a leaf. -/
def wp (leaf : Nat) (s : State) : State :=
  put8 0x2E00000200 leaf (put8 0x2E00000100 (1 + 0x2E00000200) (put8 0x2E00000000 (1 + 0x2E00000100)
    (putReg (rXltRoot 2) (BitVec.ofNat 64 (1 + 0x2E00000000))
      (putSlot 2 { keySlot0 with st := .active, partition := 7, generation := 1, installed := true } s))))

/-- A frame with nothing in it. -/
def f0 : Frame := blankFrame

/-- A fault of partition 7's page 0 that queue 3 waits on. -/
def fault3 : XltFault :=
  { tag := 4, part := 7, page := 0, reason := 1, level := 3, access := 1, waiters := [3], openedAt := 0, gathered := false,
    silent := false }

/-- An image that passes the three checks. -/
def goodImage (c : Byte) : FirmwareImage :=
  { sigOk := true, index := c, version := 2, digest := 5, config := some imageDefault, library := [] }

/-- A state with its six stacks in ONLINE. -/
def wm (s : State) : State :=
  { s with memory.stackTbl := (List.range 6).map (fun k => (k, { stack0 with st := .online })) }

/-- A request frame of partition 0 to the part-private region. -/
def fr (ty : BitVec 6) (len : BitVec 7) (off : BitVec 48) (data : List Slot) : Frame :=
  { f0 with ty := ty, src := 5, stream := 3, seq := 9, len := len, off := off, data := data, flagged := decide (ty = tyFlagged) }

/-- A request of queue 3 that has been sent. -/
def rq (kind : ReqKind) (ty : BitVec 6) : Request :=
  { newRequest (.queue 3) (some 0) kind { f0 with ty := ty, dst := 5, stream := 3, seq := 9 } none none 32 none with
    order := 1, sentAt := some 0, copies := 1, counted := 1 }

/-- A request of window 2 that has been sent. -/
def rw2 : Request :=
  { newRequest (.window 2) none .load { f0 with ty := tyLoad, dst := 5, off := 64, stream := 0x202, seq := 9 } none none 0 (some 128) with
    order := 1, sentAt := some 0, copies := 1, counted := 1 }

/-- A response to a request of queue 3. -/
def rsp (ty : BitVec 6) (be : Byte) : Frame := { f0 with ty := ty, src := 5, stream := 3, seq := 9, be := be, data := [7] }

/-- A settlement of queue 3. -/
def st3 : Sys2Proof.Machine.Settlement := ⟨.queue 3, 0, { f0 with ty := tyStore, dst := 5, stream := 3, seq := 9 }, 0, 0⟩

/-- A target request that waits on one line. -/
def tr (f : Frame) : TargetReq := ⟨0, 2, f, 0, 1, [], stOk, 0⟩

/-- A call of one chunk: all-reduce, SUM, int32, 16 elements. -/
def call0 : CollCall := { op := 0, operator := 1, format := 0x12, root := 0, count := 16, rooms := 8 }

/-- The member at local index 0: queue 3, its buffers in the part-private region. -/
def mem0 : CollMember :=
  { li := 0, queue := 3, index := 0, send := 0x2E00001000, recv := 0x2E00002000, signal := 0x2E00003000, signalled := 0,
    timeout := 10000000, status := none }

/-- A collective of group 9 with that member. -/
def coll0 (c : CollCall) (l : List CollChunk) : Coll :=
  { group := 9, epoch := 0, startedAt := 0, call := c, members := [mem0], admitted := some 0, depth := 8, grant := 8,
    staging := [0, 8], next := 1, chunks := l }

/-- Group 9 of partition 0: tag 0x77, local index 0 only, a box of `n` parts along X from this part on. -/
def wgr (n : Nat) (s : State) : State :=
  withRegs [(rRteSelf, BitVec.ofNat 64 (3 * 2 ^ 32 + 2 ^ 28 + 2 ^ 24)), (rRteCoord 0, 0x10000),
    (rGroup 9, BitVec.ofNat 64 (2 ^ 63 + 0x77 * 2 ^ 32 + 1)),
    (rGroup 9 + 8, BitVec.ofNat 64 (n * 2 ^ 44 + 2 ^ 40 + 2 ^ 36))] (wm s)

/-- That group with one collective in work. -/
def wgc (n : Nat) (c : Coll) (s : State) : State :=
  { wgr n (wq 0 1 [fds (mkDesc 0x20 0 [])] s) with caravan.colls := [c], caravan.waiting := [], caravan.landed := [] }

/-- A chunk with one step. -/
def chunk0 (st : List CollStepSt) : CollChunk :=
  { number := 0, place := 0, attempt := 0, voided := 0, steps := st, anchors := false, anchorGot := [], result := false,
    got := [], served := [], owed := [], crc := 0, readback := false, sealHeld := false, sealFrom := none, refused := 0,
    seals := [] }

/-- An input of 64 bytes from this part's member. -/
def in0 : CollIn :=
  { src := 0, lo := 0, len := 64, rooms := [], offered := true, invitedAt := none, asked := [], repeats := 0, got := [],
    checks := [], arrived := none }

/-- The step of LOCAL with one input. -/
def step0 : CollStepSt :=
  { stage := 0, anchor := false, inputs := [in0], round := 0, ran := none, staged := 0, bad := false, done := false, offered := false }

/-- A frame of that collective's call. -/
def cf (ty : BitVec 6) (slot : Nat) : Frame :=
  { f0 with ty := ty, stream := 0x77, be := 0, data := [BitVec.ofNat 256 slot] }

/-- A run of queue 3 with one stripe's rooms asked for. -/
def run0 : RunRec :=
  { queue := 3, index := 0, phase := .ready, part := 0, admitted := 0, image := 0x2E00100000, fa := 0x2E00100000, crc := 5, args := [],
    passes := 1, stripes := 0, loadIn := false, saveOut := false, roomSrc := 0, roomDst := 0, rooms := [],
    inAt := 0x2E00500000, outAt := 0x2E00600000, seeded := true, seed := 0, stream := 0, status := stOk, early := false, result := 0 }

/-- A plane that serves that run. -/
def plane5 : Plane := { plane0 with loaded := true, fa := 0x2E00100000, crc := 5, routeId := 0x10000, loop := 1 }

/-- A state with that run alone at the array, on queue 3. -/
def wrun (p : RunPhase) (r : RunRec) (s : State) : State :=
  { wm (wq 0 2 [fds (mkDesc opRoute 0 [])] s) with
    array.runs := [{ r with phase := p }], array.planeA := plane5, array.activeB := false, caravan.colls := [] }

/-- That run under way. -/
def wrun1 (r : RunRec) (s : State) : State :=
  { wrun .running r s with array.current := some (.route 3 0), array.limitMs := 1000 }

/-- The header of a route image at its place. -/
def wimg (crc : Nat) (s : State) : State :=
  put8 0x2E00100018 crc (put8 0x2E00100008 (0x10000 + 2 ^ 32) (put8 0x2E00100000 (0x4C4D5254 + 2 ^ 32 + 2 ^ 48) s))

/-- A descriptor of ROUTE_RUN with its operands placed. -/
def dRun : DescEx :=
  fd (mkDesc opRoute 0 [(8, 0x2E00100000), (16, 0x2E00400000), (24, 0x2E00500000), (32, 0x2E00600000), (59, 1)])

/-- A slot: opcode, stage, lanes, format, semiring, destination, sources A, B and C, AUX and IMM. -/
def slot0 (op stage lanes fmt ring dst a b c aux imm : Nat) : Word :=
  BitVec.ofNat 64 (op * 2 ^ 58 + stage * 2 ^ 55 + lanes * 2 ^ 53 + fmt * 2 ^ 49 + ring * 2 ^ 46 + dst * 2 ^ 39 + a * 2 ^ 32 +
    b * 2 ^ 25 + c * 2 ^ 18 + aux * 2 ^ 14 + imm)

/-- That run under way with one slot in cell 70, which alone is active, and some registers set. -/
def wcell (i : Word) (s : State) : State :=
  { wrun1 { run0 with stripes := 1, rooms := (List.range 64).map (fun k => 80 * k + 9), args := [11, 12] } s with
    array.planeA := { plane5 with active := 1, slots := [(32 * 70, i)], switch := [(70, (7 * 2 ^ 256 + 2 ^ 192 : Nat))] },
    array.regs := [(64 * 70 + 1, 0x11), (64 * 70 + 2, 0x22), (64 * 70 + 3, 0x33)], array.latches := [(4 * 70 + 2, 0x44)],
    array.inFifo := [(70, [0x55, 0x66])], array.bus := [(1, 0x77)] }

/-- A LOAD frame to an end-point. -/
def fl (dst : Eid) : Frame := { f0 with ty := tyLoad, cls := clReq, dst := dst, src := 5, seq := 9, len := 2, off := 64 }

/-- A frame in the buffer, on input 40. -/
def bu (out : Option Nat) (f : Frame) : Buffered := ⟨40, out, 0, f.dst, f, 0, 0, [3], 0, true, false, false, false⟩

/-- A state with one frame in the buffer. -/
def wbuf (e : Buffered) (s : State) : State :=
  { s with sw.buf := [e], sw.cells := tblSet bufCell0 s.sw.cells 3 ⟨false, 1, false⟩ }

/-- A state whose link on port 7 is in a state, in the role of a torus port. -/
def wl (k : Link) (s : State) : State :=
  putReg (rPrtCfg 7) (BitVec.ofNat 64 (2 ^ 63 + 2 * 2 ^ 56)) { s with links := tblSet link0 s.links 7 k }

/-- A control slot with its CRC. -/
def ctl0 (v : Nat) (slots : List Slot) : Slot := BitVec.ofNat 256 (v + flitCrc v slots * 2 ^ 224)

/-- The part with its identity made and its side band and mailbox served. -/
def wid (s : State) : State := { s with tenant.identity := true, host.configured := true, host.linkUp := true }

/-- An open session in session slot 1. -/
def ses0 (via : Transport) : Session := ⟨via, 11, 12, 13, 14, 4, 7, 0⟩

/-- A state with that session. -/
def wse (via : Transport) (s : State) : State := { wid s with tenant.sessions := [(1, some (ses0 via))] }

/-- A manifest of a partition without images. -/
def man0 (p : Byte) (flags : Byte) : List Byte := bytesOfNat 4 0x4D465A36 ++ [1, flags, 0, p] ++ List.replicate 56 0

/-- The key slot of partition 7 in a state. -/
def ks (st : SlotState) : KeySlot :=
  { keySlot0 with st := st, partition := 7, generation := 3, installed := decide (st ≠ .bound), manifest := man0 7 0 }

/-- That slot as slot 2, alone. -/
def wks (k : KeySlot) (s : State) : State := { s with tenant.slots := [(2, k)], tenant.run := none }

/-- A page in a state, of partition 7's slot 2. -/
def wpg (i st : Nat) (s : State) : State := putReg (rPageOwn i) (BitVec.ofNat 64 (st * 2 ^ 61 + 7 * 2 ^ 48 + 2 * 2 ^ 40)) s

/-- An end-point attached at local index 3 over port 7, in service. -/
def watt (s : State) : State :=
  withRegs [(rRteLocal 3, BitVec.ofNat 64 (2 ^ 63 + 2 ^ 7)), (rPrtCfg 7, BitVec.ofNat 64 (2 ^ 63 + 2 ^ 56))]
    { s with links := tblSet link0 s.links 7 { link0 with st := .active } }

/-! ### Ill-formed commands that `Instr.wf` refuses, one for each of its checks -/

theorem test_wf_frame_slots : Instr.wf (.loadRsp { f0 with ty := tyLoadRsp, len := 2, data := [] }) = false := by decide
theorem test_wf_load_has_no_slots : Instr.wf (.load 0 { f0 with ty := tyLoad, len := 2, data := [0, 0] }) = false := by decide
theorem test_wf_trailer : Instr.wf (.storeAck { f0 with enc := true, sealed := none }) = false := by decide
theorem test_wf_multicast_slot : Instr.wf (.seal { f0 with mcast := false, mslot := 1 }) = false := by decide
theorem test_wf_stage : Instr.wf (.sendOffer 9 0 ⟨0, 16, false⟩) = false := by decide
theorem test_wf_step_chunk : Instr.wf (.sendInvite 9 0 ⟨2 ^ 32, 0, false⟩) = false := by decide
theorem test_wf_chunk : Instr.wf (.sealSignal 9 0 (2 ^ 32)) = false := by decide
theorem test_wf_host_descriptors : Instr.wf (.descriptorFetch 3 (List.replicate 65 0)) = false := by decide
theorem test_wf_flit_slots : Instr.wf (.flitReceive 0 0 (List.replicate 14 0) []) = false := by decide
theorem test_wf_signatures : Instr.wf (.ropeCaptureDone [0]) = false := by decide
theorem test_wf_queue_position : Instr.wf (.frameAgeExpiry 131072) = false := by decide
theorem test_wf_public_key : Instr.wf (.keyExchange .mctp (List.replicate 4097 0) 0) = false := by decide +kernel
theorem test_wf_manifest : Instr.wf (.install ⟨0, 0, true⟩ ⟨7, 0, 0, List.replicate 4097 0⟩) = false := by decide +kernel
theorem test_wf_ide_body : Instr.wf (.ideKm ⟨0, 0, true⟩ (List.replicate 4097 0)) = false := by decide +kernel
theorem test_wf_register_words : Instr.wf (.regWrite 0 0 0 (List.replicate 256 0)) = false := by decide +kernel
theorem test_wf_firmware_data : Instr.wf (.requestFirmwareData 0 0 (List.replicate 1025 0)) = false := by decide +kernel
theorem test_wf_library_place :
    Instr.wf (.activateFirmware 7 { goodImage 7 with library := [(0x4000000, 1)] }) = false := by decide
theorem test_wf_library_order :
    Instr.wf (.activateFirmware 7 { goodImage 7 with library := [(5, 1), (4, 1)] }) = false := by decide
theorem test_wf_accepts_load : Instr.wf (.load 0 { f0 with ty := tyLoad, len := 2 }) = true := by decide

/-! ### The spec's worked figures -/

/-- The generator's test vector (spec/07, R194). -/
theorem test_generator_vector : gen 0 0 0 = 0xAD8E8C21099CC669B0BEC7D1CB8CEA2C := by decide +kernel

/-- The conversions of the worked element under anchor byte 0x82 (spec/07). -/
theorem test_anchored_in : [0x3F80, 0x3B80, 0xBF40].map (fun x => toFixed false 0x82 (decodeLane .bf16 16 x)) =
    [some 16384, some 64, some (-12288)] := by decide +kernel

/-- Its total converts back to 0x3E84 (spec/07). -/
theorem test_anchored_out : roundFloat .bf16 (fromFixed false 0x82 0x1080) = some 0x3E84 := by decide +kernel

/-- The relaxed label of the third worked route (spec/09): 14,520 against 14,400 + 95 and 14,460 + 90. -/
theorem test_minplus_route :
    libMinplus 0x4662E000 [(0x46610000, 0x42BE0000), (0x4661F000, 0x42B40000)] = some 0x46627C00 := by decide +kernel

/-- The flow hash and the links of the worked ATOMIC (spec/10). -/
theorem test_flow_hash : flowHash { f0 with src := 0x0120, dst := 0x0130, cls := 1 } = 0x13EE ∧
    hashPick { f0 with src := 0x0120, dst := 0x0130, cls := 1 } [16, 17, 18] = some 16 ∧
    hashPick { f0 with src := 0x0120, dst := 0x0130, cls := 1 } [17, 18] = some 17 := by decide +kernel

/-- The worked cell slot: its fields, and that a cell with neighbours may hold it (spec/08). -/
theorem test_cell_slot : [slOp 0x108042C004140000, slStage 0x108042C004140000, slRing 0x108042C004140000,
    slDst 0x108042C004140000, slSrcA 0x108042C004140000, slSrcB 0x108042C004140000, slSrcC 0x108042C004140000] =
    [oMac, 1, 1, 5, 0x40, 2, 5] ∧ slotGood 70 0x108042C004140000 = true ∧ slotGood 5 0x108042C004140000 = false := by
  decide +kernel

/-- The place in memory of the worked address: its stack, local line, channel and tag word (spec/12). -/
theorem test_memory_place : lineStack 0xB523456 = 0 ∧ localLine 0xB523456 = 31656121 ∧ lineChannel 0xB523456 = 9 ∧
    tagOffset 0xB523456 = 0x2EDA919EC8 := by decide +kernel

/-- The tables of the worked translation (spec/02): partition 7 in slot 3, three entries. -/
def wxlt : State :=
  put8 0x2E00200150 0x0120000B40000031 (put8 0x2E00100518 0x2E00200101 (put8 0x2E000400A8 0x2E00100401
    (putReg (rXltRoot 3) 0x2E00040001 (putSlot 3 (ks .active) w0))))

/-- The worked walk reaches its leaf, and the leaf gives the worked FA (spec/02). -/
theorem test_worked_walk : walkTables 7 0x551A92345678 wxlt = .leaf false 0x0120000B40000031 0x2E00200150 ∧
    leafFa false 0x0120000B40000031 0x551A92345678 = 0x0120000B52345678 := by decide +kernel

/-- One step with a command at the front of the queue is that command's effect. -/
theorem test_step_is_exec : (Sys2Proof.Machine.step { w0 with pending := [.cellNop 0] }) =
    Sys2Proof.Machine.exec (.cellNop 0) w0 := by rfl

/-- A tick of the idle block (log entry 4). -/
theorem test_idle_tick : ∃ t, Sys2Proof.Machine.step w0 = .next t ∧ t.clock = 1 := ⟨_, rfl, by decide +kernel⟩

/-- What reset leaves (R8, R401): nothing pending, the reset values of three registers' fields. -/
theorem test_reset : State.reset.pending = [] ∧ State.reset.memWf = true ∧ State.reset.mem = [] := by decide +kernel

/-! ### What meets the hypotheses of each statement -/

set_option maxRecDepth 4000

theorem meets_StepRunsQueueFront :
    (∃ (c : Instr) (rest : List Instr) (s : State), s.pending = c :: rest) :=
  ⟨.pwrWarnDeassert, [.brownout], { w0 with pending := [.pwrWarnDeassert, .brownout] }, by decide +kernel⟩

theorem meets_EmptyQueueLetsTimePass :
    (∃ (s : State), s.pending = [] ∧ s.powered = false) ∧
    (∃ (s : State), s.pending = [] ∧ s.powered = true ∧ 5 ≤ s.power.stage ∧ s.power.stage ≤ 13 ∧ s.time.rate = 0 ∧ s.timeFrac = 0) :=
  ⟨⟨{ w0 with powered := false, clock := 999 }, by decide +kernel⟩,
    ⟨w0, by decide +kernel⟩⟩

theorem meets_EveryCommandCompletesAndKeeps :
    (∃ (s : State), s.memWf = true) :=
  ⟨w0, by decide +kernel⟩

theorem meets_StepKeepsMemoryAndRetiredPages :
    (∃ (l : List Nat) (s : State) (t : State), (s.memWf = true ∧ (∀ p ∈ l, p ∈ s.memory.retired)) ∧ Sys2Proof.Machine.step s = .next t) :=
  ⟨[], w0, _, ⟨by decide +kernel, fun _ h => nomatch h⟩, rfl⟩

theorem meets_NoPowerNoEffect :
    (∃ (c : Instr) (s : State), s.powered = false ∧ c ≠ .powerApplied ∧ c ≠ .inputQualified ∧ c ≠ .brownout ∧ c ≠ .overvoltage) :=
  ⟨.snoop 0, { w0 with powered := false }, by decide +kernel⟩

theorem meets_SupplyEvents :
    (∃ (s : State), s.power.supply = .off) ∧
    (∃ (s : State) (t : Nat), (s.power.supply = .standby t ∨ s.power.supply = .above t) ∧ t + 100000000 ≤ s.clock) ∧
    (∃ (s : State) (t : Nat), (s.power.supply = .standby t ∨ s.power.supply = .above t) ∧ s.clock < t + 100000000) ∧
    (∃ (s : State), s.power.supply ≠ .off) ∧
    (∃ (s : State), s.power.supply ≠ .off) :=
  ⟨⟨{ w0 with power.supply := .off }, by decide +kernel⟩,
    ⟨{ w0 with power.supply := .standby 0, clock := 100000000 }, 0, by decide +kernel⟩,
    ⟨{ w0 with power.supply := .above 0, clock := 99999999 }, 0, by decide +kernel⟩,
    ⟨w0, by decide +kernel⟩,
    ⟨{ w0 with power.supply := .standby 0 }, by decide +kernel⟩⟩

theorem meets_WarningsAndTemperature :
    (∃ (s : State), s.powered = true ∧ s.power.warn = false) ∧
    (∃ (s : State), s.powered = true) ∧
    (∃ (s : State), s.powered = true) ∧
    (∃ (s : State), s.powered = true ∧ s.power.aboveHot = true ∧ s.power.clockStep < 7 ∧ s.power.stepAt + 1000000 ≤ s.clock ∧ s.power.clockStep = 0) ∧
    (∃ (s : State), s.powered = true ∧ s.power.belowCool = true ∧ 0 < s.power.clockStep ∧ s.power.stepAt + 10000000 ≤ s.clock) :=
  ⟨⟨w0, by decide +kernel⟩,
    ⟨w0, by decide +kernel⟩,
    ⟨w0, by decide +kernel⟩,
    ⟨{ w0 with power.aboveHot := true, clock := 1000000 }, by decide +kernel⟩,
    ⟨{ w0 with power.belowCool := true, power.clockStep := 1, clock := 10000000 }, by decide +kernel⟩⟩

theorem meets_BringUpAdvances :
    (∃ (s : State), s.powered = true ∧ s.power.stage < 13 ∧ inReset .kpr s = false ∧ s.power.thermHold = false ∧ s.power.warn = false ∧ ((s.power.stage = 2 → tblGet 0 (bootImage s).minVersions 0 ≤ (getImage 0 (activeSlot 0 s) s).version.toNat)) ∧ s.power.stage + 1 = 2) ∧
    (∃ (s : State), s.powered = true ∧ s.power.stage < 13 ∧ inReset .kpr s = false ∧ s.power.thermHold = false ∧ s.power.warn = false ∧ ((s.power.stage = 2 → tblGet 0 (bootImage s).minVersions 0 ≤ (getImage 0 (activeSlot 0 s) s).version.toNat)) ∧ s.power.stage + 1 = 5) ∧
    (∃ (s : State), s.powered = true ∧ s.power.stage < 13 ∧ inReset .kpr s = false ∧ s.power.thermHold = false ∧ s.power.warn = false ∧ ((s.power.stage = 2 → tblGet 0 (bootImage s).minVersions 0 ≤ (getImage 0 (activeSlot 0 s) s).version.toNat)) ∧ s.power.stage + 1 = 8) ∧
    (∃ (s : State), s.powered = true ∧ s.power.stage < 13 ∧ inReset .kpr s = false ∧ s.power.thermHold = false ∧ s.power.warn = false ∧ ((s.power.stage = 2 → tblGet 0 (bootImage s).minVersions 0 ≤ (getImage 0 (activeSlot 0 s) s).version.toNat)) ∧ s.power.stage + 1 = 12) ∧
    (∃ (s : State), s.powered = true ∧ s.power.stage < 13 ∧ inReset .kpr s = false ∧ s.power.thermHold = false ∧ s.power.warn = false ∧ ((s.power.stage = 2 → tblGet 0 (bootImage s).minVersions 0 ≤ (getImage 0 (activeSlot 0 s) s).version.toNat)) ∧ s.power.stage + 1 = 13) ∧
    (∃ (s : State), s.powered = true ∧ s.power.stage = 2 ∧ inReset .kpr s = false ∧ (getImage 0 (activeSlot 0 s) s).version.toNat < tblGet 0 (bootImage s).minVersions 0) ∧
    (∃ (s : State), s.powered = true ∧ s.power.stage = 1 ∧ inReset .kpr s = false) ∧
    (∃ (s : State), s.powered = true ∧ s.power.stage = 2 ∧ inReset .kpr s = false) ∧
    (∃ (s : State), s.powered = true ∧ s.power.stage = 6 ∧ inReset .kpr s = false ∧ s.power.oos = false ∧ s.power.failStage = 0) :=
  ⟨⟨{ w0 with power.stage := 1 }, by decide +kernel⟩,
    ⟨{ w0 with power.stage := 4 }, by decide +kernel⟩,
    ⟨{ w0 with power.stage := 7 }, by decide +kernel⟩,
    ⟨{ w0 with power.stage := 11 }, by decide +kernel⟩,
    ⟨{ w0 with power.stage := 12 }, by decide +kernel⟩,
    ⟨{ w0 with power.stage := 2, service.slots := [(12, { slotImage0 with config := some { imageDefault with minVersions := [(0, 2)] } })] }, by decide +kernel⟩,
    ⟨{ w0 with power.stage := 1 }, by decide +kernel⟩,
    ⟨{ w0 with power.stage := 2 }, by decide +kernel⟩,
    ⟨{ w0 with power.stage := 6 }, by decide +kernel⟩⟩

theorem meets_FirmwareUpdate :
    (∃ (c : Fin 8) (off : BitVec 32) (data : List Byte) (s : State), s.powered = true ∧ sidebandUp s = true ∧ s.service.activation = none ∧ data.length ≤ 1024 ∧ off ≠ 0 ∧ off.toNat = (getImage c.val (1 - activeSlot c.val s) s).bytes) ∧
    (∃ (c : Fin 8) (img : FirmwareImage) (s : State), s.powered = true ∧ sidebandUp s = true ∧ s.service.activation = none ∧ img.sigOk = true ∧ img.index.toNat = c.val ∧ tblGet 0 s.img.minVersions c.val ≤ img.version.toNat ∧ ((c.val = 6 → img.config.isSome = true)) ∧ c.val = 1) ∧
    (∃ (c : Fin 8) (img : FirmwareImage) (s : State), s.powered = true ∧ sidebandUp s = true ∧ s.service.activation = none ∧ img.sigOk = true ∧ img.index.toNat = c.val ∧ tblGet 0 s.img.minVersions c.val ≤ img.version.toNat ∧ ((c.val = 6 → img.config.isSome = true)) ∧ c.val ≠ 1) ∧
    (∃ (c : Fin 8) (img : FirmwareImage) (s : State), s.powered = true ∧ sidebandUp s = true ∧ s.service.activation = none ∧ img.sigOk = true ∧ img.index.toNat = c.val ∧ tblGet 0 s.img.minVersions c.val ≤ img.version.toNat ∧ ((c.val = 6 → img.config.isSome = true)) ∧ c.val ≠ 3 ∧ c.val ≠ 4) ∧
    (∃ (c : Fin 8) (img : FirmwareImage) (s : State), s.powered = true ∧ sidebandUp s = true ∧ s.service.activation = none ∧ (img.sigOk = false ∨ img.index.toNat ≠ c.val ∨ img.version.toNat < tblGet 0 s.img.minVersions c.val)) ∧
    (∃ (s : State) (a : Activation), s.powered = true ∧ s.service.activation = some a ∧ fenceMet a s = true ∧ (a.component = 1 ∨ a.component = 2 ∨ a.component = 5) ∧ a.fencedQueues = []) ∧
    (∃ (s : State) (a : Activation) (k : Nat), s.powered = true ∧ s.service.activation = some a ∧ a.component = 2 ∧ s.power.warn = false ∧ s.power.thermHold = false ∧ nextStackSwap a s = some k ∧ ((∃ j ∈ List.range 6, j ≠ k ∧ a.swapped.contains j = false))) ∧
    (∃ (s : State) (a : Activation), s.powered = true ∧ s.service.activation = some a ∧ s.power.warn = true) :=
  ⟨⟨1, 3, [1, 2, 3], { w0 with service.slots := [(3, { slotImage0 with bytes := 3 })], service.activeB := 0, service.activation := none }, by decide +kernel⟩,
    ⟨1, goodImage 1, { w0 with service.activation := none }, by decide +kernel⟩,
    ⟨6, goodImage 6, { w0 with service.activation := none }, by decide +kernel⟩,
    ⟨6, goodImage 6, { w0 with service.activation := none }, by decide +kernel⟩,
    ⟨6, goodImage 5, { w0 with service.activation := none }, by decide +kernel⟩,
    ⟨{ w0 with service.activation := some ⟨1, 0, [], List.range 36⟩, clock := 1000000000000 }, ⟨1, 0, [], List.range 36⟩, by decide +kernel⟩,
    ⟨{ wm w0 with service.activation := some ⟨2, 0, [], []⟩ }, ⟨2, 0, [], []⟩, 0, by decide +kernel⟩,
    ⟨{ w0 with service.activation := some ⟨3, 0, [], []⟩, power.warn := true }, ⟨3, 0, [], []⟩, by decide +kernel⟩⟩

theorem meets_TimeMeasurement :
    (∃ (side : Side) (s : State), s.powered = true ∧ gate side bTIM false .pwr s = .go ∧ getBit rTimCfg 63 s = false ∧ s.time.measuring = false) ∧
    (∃ (side : Side) (s : State), s.powered = true ∧ gate side bTIM false .pwr s = .go ∧ getBit rTimCfg 63 s = true) ∧
    (∃ (s : State), s.powered = true ∧ s.time.measuring = true ∧ s.time.exchanges < 100 ∧ (s.time.sentAt = none ∨ s.time.forMeasure = false) ∧ s.time.missed < 10 ∧ s.time.lastExchange + 1000000 ≤ s.clock) ∧
    (∃ (s : State), s.powered = true ∧ s.time.measuring = true ∧ s.time.exchanges < 100 ∧ 9 ≤ s.time.missed ∧ s.time.sentAt.isSome = true ∧ s.time.forMeasure = true ∧ s.time.lastExchange + 1000000 ≤ s.clock) ∧
    (∃ (s : State), s.time.measuring = true ∧ s.time.forMeasure = true) ∧
    (∃ (s : State), s.powered = true ∧ s.time.measuring = true ∧ s.time.exchanges = 100) :=
  ⟨⟨.host, { withRegs [(rTimCfg, 0)] w0 with time.measuring := false }, by decide +kernel⟩,
    ⟨.host, withRegs [(rTimCfg, 0x8000000000000000)] w0, by decide +kernel⟩,
    ⟨{ w0 with time.measuring := true, time.exchanges := 99, time.lastExchange := 0, clock := 1000000 }, by decide +kernel⟩,
    ⟨{ w0 with time.measuring := true, time.exchanges := 9, time.missed := 9, time.sentAt := some 7, time.forMeasure := true, time.lastExchange := 0, clock := 1000000 }, by decide +kernel⟩,
    ⟨{ w0 with time.measuring := true, time.exchanges := 7, time.forMeasure := true }, by decide +kernel⟩,
    ⟨{ w0 with time.measuring := true, time.exchanges := 100, time.samples := [⟨5, 3, 2⟩, ⟨9, 4, 2⟩] }, by decide +kernel⟩⟩

theorem meets_LockedTime :
    (∃ (s : State), s.powered = true ∧ lockedMode s = true ∧ isRoot s = false ∧ s.time.lastLock + 10000 ≤ s.clock ∧ (s.time.sentAt = none ∨ s.time.forMeasure = false)) ∧
    (∃ (s : State), s.powered = true ∧ lockedMode s = true ∧ isRoot s = false ∧ s.time.lastLock + 10000 ≤ s.clock ∧ s.time.sentAt ≠ none ∧ s.time.forMeasure = true) ∧
    (∃ (x : TimeStamps), timeDiff x.t2 x.t1 - timeDiff x.t4 x.t3 ≤ 200000) ∧
    (∃ (x : TimeStamps), 200000 < timeDiff x.t2 x.t1 - timeDiff x.t4 x.t3) ∧
    (∃ (side : Side) (s : State), s.powered = true ∧ gate side bTIM false .pwr s = .go ∧ s.time.measuring = false) ∧
    (∃ (s : State), s.powered = true ∧ isRoot s = true ∧ s.timeBase.toNat % 1000000 = 0) ∧
    (∃ (s : State), s.powered = true ∧ isRoot s = false ∧ ((∀ t ∈ s.time.lastEdge, t + 1000 ≤ s.clock))) ∧
    (∃ (s : State) (t : Nat), s.powered = true ∧ isRoot s = false ∧ s.time.lastEdge = some t ∧ s.clock < t + 1000) ∧
    (∃ (f : Frame) (s : State), s.powered = true ∧ f.cls = clTime ∧ f.ty = tyMgmt ∧ f.be = 1) :=
  ⟨⟨{ withRegs [(rTimCfg, 0x2000000000000000)] w0 with time.lastLock := 0, clock := 10000 }, by decide +kernel⟩,
    ⟨{ withRegs [(rTimCfg, 0x2000000000000000)] w0 with time.lastLock := 0, clock := 10000, time.sentAt := some 5, time.forMeasure := true }, by decide +kernel⟩,
    ⟨⟨0, 500, 600, 700⟩, by decide +kernel⟩,
    ⟨⟨0, 500000, 600, 700⟩, by decide +kernel⟩,
    ⟨.host, { withRegs [(rTimCfg, 0)] w0 with time.measuring := false, time.locked := true }, by decide +kernel⟩,
    ⟨{ withRegs [(rTimCfg, 0x8000000000000000)] w0 with timeBase := 3000000 }, by decide +kernel⟩,
    ⟨{ withRegs [(rTimCfg, 0)] w0 with time.lastEdge := some 0, clock := 1000, timeBase := 77 }, by decide +kernel⟩,
    ⟨{ withRegs [(rTimCfg, 0)] w0 with time.lastEdge := some 1, clock := 1000 }, 1, by decide +kernel⟩,
    ⟨{ f0 with cls := clTime, ty := tyMgmt, be := 1 }, w0, by decide +kernel⟩⟩

theorem meets_CounterLatch :
    (∃ (side : Side) (s : State), s.powered = true ∧ gate side bCNT false .pwr s = .go) ∧
    (∃ (s : State), s.powered = true ∧ s.observe.latchWaiting = true ∧ s.timeBase.toNat % 10000 = 0) ∧
    (∃ (s : State), s.powered = true ∧ s.timeBase.toNat % 10000 ≠ 0) ∧
    (∃ (side : Side) (s : State), s.powered = true ∧ gate side bCNT false .pwr s = .go) :=
  ⟨⟨.host, w0, by decide +kernel⟩,
    ⟨{ w0 with observe.latchWaiting := true, timeBase := 20000, counters := [(0x1900000, 5)] }, by decide +kernel⟩,
    ⟨{ w0 with observe.latchWaiting := true, timeBase := 20001 }, by decide +kernel⟩,
    ⟨.host, { w0 with counters := [(rProfCount 13 63, 5)] }, by decide +kernel⟩⟩

theorem meets_UndecodedOffsets :
    (∃ (o : Nat), regDesc o = none) ∧
    (∃ (off : BitVec 32) (s : State), s.powered = true ∧ regDesc off.toNat = none) ∧
    (∃ (off : BitVec 32) (n : Byte) (i : Nat) (s : State), s.powered = true ∧ sidebandUp s = true ∧ s.side.capWaiting.length < 4 ∧ i < n.toNat ∧ regDesc (off.toNat + 8 * i) = none) ∧
    (∃ (off : BitVec 32) (n : Byte) (i : Nat) (s : State), s.powered = true ∧ sidebandUp s = true ∧ s.side.capWaiting.length < 4 ∧ i < n.toNat ∧ regDesc (off.toNat + 8 * i) = none) :=
  ⟨⟨0x3FF8, by decide +kernel⟩,
    ⟨0xFFFFFF8, w0, by decide +kernel⟩,
    ⟨0x2FF0, 3, 2, { w0 with side.capWaiting := [] }, by decide +kernel⟩,
    ⟨0x2FF0, 3, 2, { w0 with side.capWaiting := [] }, by decide +kernel⟩⟩

theorem meets_RegisterAccess :
    (∃ (side : Side) (s : State), s.powered = true ∧ gate side bKPR false .kpr s = .go) ∧
    (∃ (off : BitVec 32) (d : RegDesc) (s : State), s.powered = true ∧ regDesc off.toNat = some d ∧ alwaysSideband off.toNat = false ∧ isReady s = true ∧ sidebandOwns d.blk s = true ∧ inReset .ept s = false) ∧
    (∃ (side : Side) (off : BitVec 32) (d : RegDesc) (s : State), s.powered = true ∧ regDesc off.toNat = some d ∧ gate side d.blk (alwaysSideband off.toNat) d.dom s = .held) ∧
    (∃ (off : BitVec 32) (s : State), s.powered = true ∧ takesHalf off.toNat = false) ∧
    (∃ (off : BitVec 32) (s : State), s.powered = true ∧ rHstMsix ≤ off.toNat ∧ off.toNat < rHstPba ∧ off.toNat % 4 = 0 ∧ sidebandOwns bHST s = false ∧ inReset .ept s = false ∧ off.toNat % 8 = 0) ∧
    (∃ (off : BitVec 32) (s : State), s.powered = true ∧ rHstMsix ≤ off.toNat ∧ off.toNat < rHstPba ∧ off.toNat % 4 = 0 ∧ sidebandOwns bHST s = false ∧ inReset .ept s = false ∧ off.toNat % 8 = 4) ∧
    (∃ (s : State), s.powered = true ∧ sidebandUp s = true ∧ s.side.capWaiting.length < 4) ∧
    (∃ (off : BitVec 32) (n : Byte) (s : State), s.powered = true ∧ sidebandUp s = true ∧ s.side.capWaiting.length < 4 ∧ rangeGood off.toNat n.toNat = true) ∧
    (∃ (s : State), s.powered = true ∧ sidebandUp s = true ∧ s.side.capWaiting.length < 4 ∧ inReset .kpr s = false) ∧
    (∃ (off : BitVec 32) (n : Byte) (l : List Word) (s : State), s.powered = true ∧ sidebandUp s = true ∧ s.side.capWaiting.length < 4 ∧ rangeGood off.toNat n.toNat = true ∧ l.length = n.toNat ∧ ((∃ i ∈ List.range n.toNat, sidebandMay (off.toNat + 8 * i) s = false))) :=
  ⟨⟨.host, withRegs [(rKprAttn, 0x3F0000003F)] w0, by decide +kernel⟩,
    ⟨0x300008, (regDesc 0x300008).getD ⟨0, .pwr, []⟩, withRegs [(rKprOwn, 8), (rHstStatus, 0xFFFF000000000000)] w0, by decide +kernel⟩,
    ⟨.host, 0x1800000, (regDesc 0x1800000).getD ⟨0, .pwr, []⟩, { w0 with resets := [((Dom.stk 0).code, 7)] }, by decide +kernel⟩,
    ⟨0x48, w0, by decide +kernel⟩,
    ⟨BitVec.ofNat 32 rHstMsix, w0, by decide +kernel⟩,
    ⟨BitVec.ofNat 32 (rHstMsix + 4), w0, by decide +kernel⟩,
    ⟨{ withRegs [(rKprOwn, 8)] w0 with side.capWaiting := [] }, by decide +kernel⟩,
    ⟨0x40, 2, { w0 with side.capWaiting := [] }, by decide +kernel⟩,
    ⟨{ w0 with side.capWaiting := [] }, by decide +kernel⟩,
    ⟨0x300008, 2, [1, 2], { withRegs [(rKprOwn, 0)] w0 with side.capWaiting := [], power.stage := 13 }, by decide +kernel⟩⟩

theorem meets_CompletedWalkGivesTheFa :
    (∃ (q : Fin 512) (fva : Word) (k : Access) (big : Bool) (w : Word) (a : Nat) (s : State), s.powered = true ∧ (getQ q.val s).st = .running ∧ (getQ q.val s).fencing = none ∧ qPart q.val s ≠ 0 ∧ fva.toNat < 2 ^ 57 ∧ withdrawing (qPart q.val s) (fva.toNat / 2 ^ 30) s = none ∧ walkTables (qPart q.val s) fva.toNat s = .leaf big w a ∧ leafPermits k w = true) :=
  ⟨3, 0x12345678, .r, false, 0x0005000040000011, 0x2E00000200, wq 7 0 [] (wp 0x0005000040000011 w0), by decide +kernel⟩

theorem meets_TranslationWalk :
    (∃ (q : Fin 512) (fva : Word) (k : Access) (big : Bool) (w : Word) (a : Nat) (s : State), s.powered = true ∧ (getQ q.val s).st = .running ∧ (getQ q.val s).fencing = none ∧ qPart q.val s ≠ 0 ∧ fva.toNat < 2 ^ 57 ∧ withdrawing (qPart q.val s) (fva.toNat / 2 ^ 30) s = none ∧ walkTables (qPart q.val s) fva.toNat s = .leaf big w a ∧ leafPermits k w = false) ∧
    (∃ (q : Fin 512) (fva : Word) (r : Nat) (l : Nat) (s : State), s.powered = true ∧ (getQ q.val s).st = .running ∧ (getQ q.val s).fencing = none ∧ qPart q.val s ≠ 0 ∧ fva.toNat < 2 ^ 57 ∧ withdrawing (qPart q.val s) (fva.toNat / 2 ^ 30) s = none ∧ walkTables (qPart q.val s) fva.toNat s = .fault r l ∧ ((∀ f ∈ s.xlt.faults ++ s.xlt.waitingFaults, f.part = qPart q.val s → f.page ≠ fva.toNat / 2 ^ 30)) ∧ s.xlt.faults.length < 256) ∧
    (∃ (s : State), s.powered = true) ∧
    (∃ (p : Byte) (n : Nat) (s : State), partSlot p s = some n ∧ getBit (rXltRoot n) 0 s = false) ∧
    (∃ (p : Byte) (fva : Nat) (n : Nat) (t1 : Nat) (t2 : Nat) (t3 : Nat) (s : State), partSlot p s = some n ∧ getBit (rXltRoot n) 0 s = true ∧ getField (rXltRoot n) 47 18 s * 2 ^ 18 = t1 ∧ tenantEnd ≤ t1 ∧ t1 < privEnd ∧ wbit (tableEntry (t1 + 8 * field fva 56 42) s) 0 = true ∧ wbit (tableEntry (t1 + 8 * field fva 56 42) s) 1 = false ∧ wfield (tableEntry (t1 + 8 * field fva 56 42) s) 47 8 * 2 ^ 8 = t2 ∧ tenantEnd ≤ t2 ∧ t2 < privEnd ∧ wbit (tableEntry (t2 + 8 * field fva 41 35) s) 0 = true ∧ wbit (tableEntry (t2 + 8 * field fva 41 35) s) 1 = false ∧ wfield (tableEntry (t2 + 8 * field fva 41 35) s) 47 8 * 2 ^ 8 = t3 ∧ tenantEnd ≤ t3 ∧ t3 < privEnd) :=
  ⟨⟨3, 0x12345678, .w, false, 0x0005000040000011, 0x2E00000200, wq 7 0 [] (wp 0x0005000040000011 w0), by decide +kernel⟩,
    ⟨3, 0x52345678, 1, 3, { wq 7 0 [] (wp 0x0005000040000011 w0) with xlt.faults := [], xlt.waitingFaults := [], xlt.withdraws := [] }, by decide +kernel⟩,
    ⟨wq 7 0 [] (wp 0x0005000040000011 w0), by decide +kernel⟩,
    ⟨7, 2, withRegs [(rXltRoot 2, 0)] (wp 0 w0), by decide +kernel⟩,
    ⟨7, 0x12345678, 2, 0x2E00000000, 0x2E00000100, 0x2E00000200, wp 0x0005000040000011 w0, by decide +kernel⟩⟩

theorem meets_FaultRecords :
    (∃ (tag : BitVec 16) (f : XltFault) (s : State), s.powered = true ∧ s.xlt.faults.find? (fun f => decide (f.tag = tag)) = some f ∧ f.gathered = false ∧ f.silent = false ∧ f.openedAt + 1000 ≤ s.clock) ∧
    (∃ (f : XltFault) (t : List XltFault) (s : State), s.powered = true ∧ s.xlt.records = f :: t ∧ evRingReady rFaultRing rFaultPtrs 64 s = true ∧ getBit rFaultRing 63 s = false) ∧
    (∃ (f : XltFault) (t : List XltFault) (s : State), s.powered = true ∧ s.xlt.records = f :: t ∧ evRingReady rFaultRing rFaultPtrs 64 s = true ∧ getBit rFaultRing 63 s = true) ∧
    (∃ (s : State), s.powered = true ∧ evRingReady rFaultRing rFaultPtrs 64 s = false) ∧
    (∃ (f : XltFault) (t : List XltFault) (s : State), s.powered = true ∧ s.xlt.waitingFaults = f :: t ∧ s.xlt.faults.length < 256) ∧
    (∃ (s : State), s.powered = true ∧ 256 ≤ s.xlt.faults.length) :=
  ⟨⟨4, fault3, { w0 with xlt.faults := [fault3], clock := 1000 }, by decide +kernel⟩,
    ⟨fault3, [], { withRegs [(rFaultRing, 0x10001), (rFaultPtrs, 62)] w0 with xlt.records := [fault3], host.linkUp := true }, by decide +kernel⟩,
    ⟨fault3, [], { withRegs [(rFaultRing, 0x8000002E00010001), (rFaultPtrs, 0x50000003F)] w0 with xlt.records := [fault3] }, by decide +kernel⟩,
    ⟨{ withRegs [(rFaultRing, 0)] w0 with xlt.records := [fault3] }, by decide +kernel⟩,
    ⟨fault3, [], { w0 with xlt.waitingFaults := [fault3], xlt.faults := [] }, by decide +kernel⟩,
    ⟨{ w0 with xlt.waitingFaults := [fault3], xlt.faults := List.replicate 256 fault3 }, by decide +kernel⟩⟩

theorem meets_RingsAndResume :
    (∃ (side : Side) (s : State), s.powered = true ∧ gate side bEPT false .ept s = .go) ∧
    (∃ (side : Side) (s : State), s.powered = true ∧ gate side bEPT false .ept s = .go) ∧
    (∃ (side : Side) (tag : BitVec 16) (f : XltFault) (s : State), s.powered = true ∧ gate side bEPT false .ept s = .go ∧ openFault tag s = some f) ∧
    (∃ (side : Side) (tag : BitVec 16) (f : XltFault) (s : State), s.powered = true ∧ gate side bEPT false .ept s = .go ∧ openFault tag s = some f) ∧
    (∃ (side : Side) (tag : BitVec 16) (f : XltFault) (q : Fin 512) (d : DescEx) (s : State), s.powered = true ∧ gate side bEPT false .ept s = .go ∧ openFault tag s = some f ∧ f.waiters = [q] ∧ ((∀ x ∈ s.xlt.faults, x.tag ≠ tag → q ∉ x.waiters)) ∧ ((∀ x ∈ s.xlt.waitingFaults, q ∉ x.waiters)) ∧ (getQ q.val s).st = .parked ∧ (getQ q.val s).fencing = none ∧ (getQ q.val s).fetched = [d] ∧ parkedDesc q s = some d ∧ (descReqs q.val d.index s).isEmpty = true ∧ dOp d.raw ≠ opMigrate ∧ d.failed = none ∧ d.index = (getQ q.val s).consumer ∧ inReset .ary s = false ∧ cmplRoom q.val s = true ∧ dCont d.raw = false) ∧
    (∃ (side : Side) (tag : BitVec 16) (f : XltFault) (q : Fin 512) (d : DescEx) (s : State), s.powered = true ∧ gate side bEPT false .ept s = .go ∧ openFault tag s = some f ∧ f.waiters = [q] ∧ ((∀ x ∈ s.xlt.faults, x.tag ≠ tag → q ∉ x.waiters)) ∧ ((∀ x ∈ s.xlt.waitingFaults, q ∉ x.waiters)) ∧ (getQ q.val s).st = .parked ∧ (getQ q.val s).fencing = none ∧ (getQ q.val s).fetched = [d] ∧ parkedDesc q s = some d ∧ (descReqs q.val d.index s).isEmpty = true ∧ dOp d.raw ≠ opMigrate ∧ d.failed = none ∧ d.index = (getQ q.val s).consumer ∧ inReset .ary s = false ∧ cmplRoom q.val s = true ∧ dCont d.raw = true) ∧
    (∃ (side : Side) (tag : BitVec 16) (f : XltFault) (q : Fin 512) (d : DescEx) (s : State), s.powered = true ∧ gate side bEPT false .ept s = .go ∧ openFault tag s = some f ∧ f.waiters = [q] ∧ ((∀ x ∈ s.xlt.faults, x.tag ≠ tag → q ∉ x.waiters)) ∧ ((∀ x ∈ s.xlt.waitingFaults, q ∉ x.waiters)) ∧ (getQ q.val s).st = .parked ∧ (getQ q.val s).fencing = none ∧ (getQ q.val s).fetched = [d] ∧ parkedDesc q s = some d ∧ (descReqs q.val d.index s).isEmpty = true ∧ dOp d.raw ≠ opMigrate ∧ d.failed = none ∧ d.index = (getQ q.val s).consumer ∧ inReset .ary s = false ∧ cmplRoom q.val s = false) ∧
    (∃ (side : Side) (tag : BitVec 16) (s : State) (c : Instr), c ∈ [(.retry side tag : Instr), .abort side tag] ∧ s.powered = true ∧ gate side bEPT false .ept s = .go ∧ openFault tag s = none) :=
  ⟨⟨.host, { withRegs [(rFaultRing, 0), (rFaultPtrs, 5)] w0 with xlt.faultPass := 3 }, by decide +kernel⟩,
    ⟨.host, { withRegs [(rSettleRing, 0), (rSettlePtrs, 5)] w0 with req.settlePass := 3 }, by decide +kernel⟩,
    ⟨.host, 4, fault3, { putQ 3 { queue0 with st := .parked } w0 with xlt.faults := [fault3], xlt.cache := [⟨7, false, 0, 5, false⟩] }, by decide +kernel⟩,
    ⟨.host, 4, fault3, { putQ 3 { queue0 with st := .parked, fetched := [fds (mkDesc 1 1 [(24, 32)])], producer := 1 } (withRegs [(rQcmpl 3, 0x8000000000000000)] (wq 7 0 [] w0)) with xlt.faults := [fault3], req.reqs := [] }, by decide +kernel⟩,
    ⟨.host, 4, fault3, 3, fds (mkDesc 1 1 [(24, 32)]), { putQ 3 { queue0 with st := .parked, fetched := [fds (mkDesc 1 1 [(24, 32)])], producer := 1, parkedOn := some 0 } (withRegs [(rQcmpl 3, 0x8000002E00100000)] (wq 0 0 [] w0)) with xlt.faults := [fault3], req.reqs := [] }, by decide +kernel⟩,
    ⟨.host, 4, fault3, 3, fds (mkDesc 1 8 [(24, 32)]), { putQ 3 { queue0 with st := .parked, fetched := [fds (mkDesc 1 8 [(24, 32)])], producer := 1, parkedOn := some 0 } (withRegs [(rQcmpl 3, 0x8000002E00100000)] (wq 0 0 [] w0)) with xlt.faults := [fault3], req.reqs := [] }, by decide +kernel⟩,
    ⟨.host, 4, fault3, 3, fds (mkDesc 1 1 [(24, 32)]), { putQ 3 { queue0 with st := .parked, fetched := [fds (mkDesc 1 1 [(24, 32)])], producer := 1, parkedOn := some 0 } (withRegs [(rQcmpl 3, 0x8000000000000000)] (wq 0 0 [] w0)) with xlt.faults := [fault3], req.reqs := [] }, by decide +kernel⟩,
    ⟨.host, 4, { w0 with xlt.faults := [{ fault3 with silent := true }] }, .retry .host 4, by decide +kernel⟩⟩

theorem meets_QueueControl :
    (∃ (side : Side) (q : Fin 512) (v : Word) (s : State), s.powered = true ∧ gate side bPOR false .ary s = .go ∧ getBit (rQcfg q.val) 63 s = false ∧ ((wbit v 63 = true → enableOk q.val (written (rQcfg q.val) v s) s = true))) ∧
    (∃ (side : Side) (q : Fin 512) (v : Word) (s : State), s.powered = true ∧ gate side bPOR false .ary s = .go ∧ getBit (rQcfg q.val) 63 s = false ∧ wbit v 63 = true ∧ enableOk q.val (written (rQcfg q.val) v s) s = false) ∧
    (∃ (side : Side) (q : Fin 512) (s : State), s.powered = true ∧ gate side bPOR false .ary s = .go ∧ (getQ q.val s).st ≠ .fenced ∧ (getQ q.val s).fencing = none ∧ (qEngine q.val s ≠ 0 ∨ sentReqs q.val s = [])) ∧
    (∃ (side : Side) (q : Fin 512) (s : State), s.powered = true ∧ gate side bPOR false .ary s = .go ∧ (getQ q.val s).st ≠ .fenced ∧ (getQ q.val s).fencing = none ∧ qEngine q.val s = 0 ∧ sentReqs q.val s ≠ []) ∧
    (∃ (side : Side) (q : Fin 512) (s : State), s.powered = true ∧ gate side bPOR false .ary s = .go ∧ ((getQ q.val s).st = .fenced ∨ (getQ q.val s).st = .error) ∧ (getQ q.val s).fencing = none ∧ partitionActive (qPart q.val s) s = true) ∧
    (∃ (side : Side) (q : Fin 512) (s : State), s.powered = true ∧ gate side bPOR false .ary s = .go ∧ ((getQ q.val s).st = .idle ∨ (getQ q.val s).st = .fenced) ∧ getBit (rQcfg q.val) 63 s = false) ∧
    (∃ (q : Fin 512) (s : State), s.powered = true ∧ (getQ q.val s).fencing ≠ none ∧ sentReqs q.val s = []) :=
  ⟨⟨.host, 511, 0x8000010007FF0000, withRegs [(rQcfg 511, 0), (rQring 511, 0x8000002E00000000), (rQcmpl 511, 0x8000002E00100000)] w0, by decide +kernel⟩,
    ⟨.host, 511, 0x8000010007FF0000, withRegs [(rQcfg 511, 0), (rQring 511, 0x8000002E00000000), (rQcmpl 511, 0x8000000000100000)] w0, by decide +kernel⟩,
    ⟨.host, 3, { wq 7 1 [] w0 with xlt.faults := [fault3] }, by decide +kernel⟩,
    ⟨.host, 3, { wq 7 0 [fds (mkDesc opFill 0 [(16, 64)])] w0 with req.reqs := [{ newRequest (.queue 3) (some 0) .store f0 none none 32 none with sentAt := some 0 }] }, by decide +kernel⟩,
    ⟨.host, 3, putQ 3 { queue0 with st := .error, producer := 5 } w0, by decide +kernel⟩,
    ⟨.host, 3, putQ 3 { queue0 with st := .fenced, producer := 5, consumer := 2, cmplCount := 1 } (withRegs [(rQcfg 3, 0)] w0), by decide +kernel⟩,
    ⟨3, { putQ 3 { queue0 with st := .running, producer := 5, fencing := some 0 } (withRegs [(rQcfg 3, 0)] w0) with req.reqs := [] }, by decide +kernel⟩⟩

theorem meets_Doorbells :
    (∃ (q : Fin 512) (v : Word) (s : State), s.powered = true ∧ isReady s = true ∧ inReset .ary s = false ∧ qEnabled q.val s = true ∧ qDbMode q.val s ≠ 1 ∧ (v.setWidth 32 - (getQ q.val s).producer).toNat < 2 ^ 31 ∧ (v.setWidth 32 - (getQ q.val s).consumer).toNat ≤ descEntries q.val s) ∧
    (∃ (q : Fin 512) (full : Bool) (v : Word) (s : State), s.powered = true ∧ isReady s = true ∧ inReset .ary s = false ∧ (full = false ∨ qDbMode q.val s = 1 ∨ qEnabled q.val s = false ∨ 2 ^ 31 ≤ (v.setWidth 32 - (getQ q.val s).producer).toNat ∨ descEntries q.val s < (v.setWidth 32 - (getQ q.val s).consumer).toNat)) ∧
    (∃ (s : State), s.powered = true ∧ isReady s = true ∧ inReset .ary s = false) ∧
    (∃ (q : Fin 512) (s : State), s.powered = true ∧ inReset .ary s = false ∧ qEnabled q.val s = true ∧ qDbMode q.val s = 1 ∧ ((∀ t ∈ (getQ q.val s).lastPoll, t + 250 * 2 ^ getField (rQmemdb q.val) 55 52 s ≤ s.clock)) ∧ doorbellBad q.val (memoryCount q.val s) s = false) :=
  ⟨⟨3, 16, putQ 3 queue0 (withRegs [(rQcfg 3, 0x8000010000000000), (rQring 3, 0)] w0), by decide +kernel⟩,
    ⟨3, true, 17, putQ 3 queue0 (withRegs [(rQcfg 3, 0x8000010000000000), (rQring 3, 0)] w0), by decide +kernel⟩,
    ⟨putQ 3 queue0 w0, by decide +kernel⟩,
    ⟨3, { put8 0x2E00000000 5 (putQ 3 { queue0 with lastPoll := some 0 } (withRegs [(rQcfg 3, 0x8000010100000000), (rQring 3, 0), (rQmemdb 3, 0x10002E00000000)] w0)) with clock := 500 }, by decide +kernel⟩⟩

theorem meets_FetchAndComplete :
    (∃ (q : Fin 512) (s : State), s.powered = true ∧ working q.val s = true ∧ ringReachable (getReg (rQring q.val) s) s = true ∧ ringAllowed (qPart q.val s) (getReg (rQring q.val) s) (64 * descEntries q.val s) s = true) ∧
    (∃ (q : Fin 512) (s : State), s.powered = true ∧ working q.val s = true ∧ ringReachable (getReg (rQring q.val) s) s = true ∧ ringAllowed (qPart q.val s) (getReg (rQring q.val) s) (64 * descEntries q.val s) s = true ∧ ((∀ e ∈ (getQ q.val s).fetched.zipIdx, e.1.index = (getQ q.val s).consumer + BitVec.ofNat 32 e.2)) ∧ (getQ q.val s).fetched.length < 2 ^ 31) ∧
    (∃ (q : Fin 512) (d : DescEx) (t : List DescEx) (s : State), s.powered = true ∧ (getQ q.val s).fetched = d :: t ∧ d.index = (getQ q.val s).consumer ∧ finalStatus q.val d s = some stOk ∧ cmplRoom q.val s = true ∧ inReset .ary s = false ∧ (dCmpl d.raw = false ∨ ringLocal (getReg (rQcmpl q.val) s) = false)) ∧
    (∃ (q : Fin 512) (d : DescEx) (t : List DescEx) (st : Byte) (s : State), s.powered = true ∧ (getQ q.val s).fetched = d :: t ∧ d.index = (getQ q.val s).consumer ∧ finalStatus q.val d s = some st ∧ cmplRoom q.val s = true ∧ inReset .ary s = false ∧ (getQ q.val s).st = .running ∧ (getQ q.val s).fencing = none ∧ st ≠ stOk ∧ st ≠ stClosed ∧ st ≠ stOos ∧ dCont d.raw = false) ∧
    (∃ (q : Fin 512) (d : DescEx) (t : List DescEx) (st : Byte) (s : State), s.powered = true ∧ (getQ q.val s).fetched = d :: t ∧ d.index = (getQ q.val s).consumer ∧ finalStatus q.val d s = some st ∧ cmplRoom q.val s = true ∧ inReset .ary s = false ∧ (getQ q.val s).st = .running ∧ (getQ q.val s).fencing = none ∧ st ≠ stOk ∧ st ≠ stClosed ∧ st ≠ stOos ∧ dCont d.raw = true) ∧
    (∃ (q : Fin 512) (d : DescEx) (t : List DescEx) (st : Byte) (s : State), s.powered = true ∧ (getQ q.val s).fetched = d :: t ∧ d.index = (getQ q.val s).consumer ∧ finalStatus q.val d s = some st ∧ cmplRoom q.val s = true ∧ inReset .ary s = false ∧ (getQ q.val s).st = .running ∧ (getQ q.val s).fencing = none ∧ (st = stClosed ∨ st = stOos)) ∧
    (∃ (q : Fin 512) (d : DescEx) (t : List DescEx) (s : State), s.powered = true ∧ (getQ q.val s).fetched = d :: t ∧ (finalStatus q.val d s = none ∨ cmplRoom q.val s = false ∨ inReset .ary s = true ∨ d.index ≠ (getQ q.val s).consumer)) :=
  ⟨⟨3, put8 0x2E00000040 1 (withRegs [(rQring 3, 0x8000002E00000000)] (wq 0 0 [] w0)), by decide +kernel⟩,
    ⟨3, put8 0x2E00000040 1 (withRegs [(rQring 3, 0x8000002E00000000)] (wq 0 0 [] w0)), by decide +kernel⟩,
    ⟨3, { fds (mkDesc opNop 3 []) with status := some stOk }, [fd 0], { withRegs [(rQcmpl 3, 0x100000)] (wq 0 0 [{ fds (mkDesc opNop 3 []) with status := some stOk }, fd 0] w0) with host.linkUp := true, req.reqs := [], host.vectors := [] }, by decide +kernel⟩,
    ⟨3, { fds (mkDesc opCopy 1 []) with failed := some stIntegrity }, [fd 0], stIntegrity, { withRegs [(rQcmpl 3, 0x8000002E00100000)] (wq 0 0 [{ fds (mkDesc opCopy 1 []) with failed := some stIntegrity }, fd 0] w0) with req.reqs := [] }, by decide +kernel⟩,
    ⟨3, { fds (mkDesc opCopy 8 []) with failed := some stIntegrity }, [fd 0], stIntegrity, { withRegs [(rQcmpl 3, 0x8000002E00100000)] (wq 0 0 [{ fds (mkDesc opCopy 8 []) with failed := some stIntegrity }, fd 0] w0) with req.reqs := [] }, by decide +kernel⟩,
    ⟨3, { fds (mkDesc opFill 0 []) with status := some stClosed }, [fd 0], stClosed, { withRegs [(rQcmpl 3, 0x8000002E00100000)] (wq 0 0 [{ fds (mkDesc opFill 0 []) with status := some stClosed }, fd 0] w0) with req.reqs := [] }, by decide +kernel⟩,
    ⟨3, fd 0, [], wq 0 0 [fd 0] w0, by decide +kernel⟩⟩

theorem meets_DescriptorStarts :
    (∃ (q : Fin 512) (d : DescEx) (s : State) (c : Instr) (op : Nat), s.powered = true ∧ nextToStart q.val s = some d ∧ (s.power.oos = false ∨ qPart q.val s = 0) ∧ checkDesc (qEngine q.val s) (qPart q.val s) d.raw = stOk ∧ ((c, op) ∈ [((.gather q : Instr), opGather), (.scatter q, opScatter), (.fill q, opFill), (.signal q, opSignal), (.wait q, opWait)] ∨ (c = .copy q ∧ op = opCopy ∧ rangesOverlap (dfield d.raw 8 8) (dfield d.raw 16 8) (dfield d.raw 24 8) = false) ∨ (c = .rekey q ∧ op = opRekey ∧ rekeyPermitted d.raw s = true)) ∧ dOp d.raw = op) ∧
    (∃ (q : Fin 512) (d : DescEx) (s : State) (c : Instr) (op : Nat) (st : Byte), s.powered = true ∧ nextToStart q.val s = some d ∧ (s.power.oos = false ∨ qPart q.val s = 0) ∧ checkDesc (qEngine q.val s) (qPart q.val s) d.raw = stOk ∧ ((c, op, st) ∈ [((.nop q : Instr), opNop, stOk), (.prefetch q, opPrefetch, stOk), (.advise q, opAdvise, stOk)] ∨ (c = .copy q ∧ op = opCopy ∧ st = stMalformed ∧ rangesOverlap (dfield d.raw 8 8) (dfield d.raw 16 8) (dfield d.raw 24 8) = true) ∨ (c = .rekey q ∧ op = opRekey ∧ st = stDenied ∧ rekeyPermitted d.raw s = false)) ∧ dOp d.raw = op ∧ op = opAdvise) ∧
    (∃ (q : Fin 512) (d : DescEx) (s : State) (c : Instr) (op : Nat) (st : Byte), s.powered = true ∧ nextToStart q.val s = some d ∧ (s.power.oos = false ∨ qPart q.val s = 0) ∧ checkDesc (qEngine q.val s) (qPart q.val s) d.raw = stOk ∧ ((c, op, st) ∈ [((.nop q : Instr), opNop, stOk), (.prefetch q, opPrefetch, stOk), (.advise q, opAdvise, stOk)] ∨ (c = .copy q ∧ op = opCopy ∧ st = stMalformed ∧ rangesOverlap (dfield d.raw 8 8) (dfield d.raw 16 8) (dfield d.raw 24 8) = true) ∨ (c = .rekey q ∧ op = opRekey ∧ st = stDenied ∧ rekeyPermitted d.raw s = false)) ∧ dOp d.raw = op ∧ (op = opNop ∨ op = opCopy ∨ op = opRekey)) ∧
    (∃ (q : Fin 512) (d : DescEx) (st : Byte) (s : State) (c : Instr), c ∈ [(.nop q : Instr), .copy q, .gather q, .scatter q, .fill q, .signal q, .wait q, .prefetch q, .advise q, .rekey q, .unmap q, .migrate q] ∧ s.powered = true ∧ nextToStart q.val s = some d ∧ (s.power.oos = false ∨ qPart q.val s = 0) ∧ checkDesc (qEngine q.val s) (qPart q.val s) d.raw = st ∧ st ≠ stOk) ∧
    (∃ (q : Fin 512) (d : DescEx) (s : State) (c : Instr), c ∈ [(.nop q : Instr), .copy q, .gather q, .scatter q, .fill q, .signal q, .wait q, .prefetch q, .advise q, .rekey q, .unmap q, .migrate q] ∧ s.powered = true ∧ nextToStart q.val s = some d ∧ s.power.oos = true ∧ qPart q.val s ≠ 0) :=
  ⟨⟨3, fd (mkDesc opCopy 0 [(8, 0), (16, 32), (24, 32)]), wq 0 0 [fd (mkDesc opCopy 0 [(8, 0), (16, 32), (24, 32)])] w0, .copy 3, opCopy, by decide +kernel⟩,
    ⟨3, fd (mkDesc opAdvise 0 [(16, 1), (20, 3)]), { wq 7 0 [fd (mkDesc opAdvise 0 [(16, 1), (20, 3)])] w0 with xlt.cache := [⟨7, false, 0, 5, false⟩] }, .advise 3, opAdvise, stOk, by decide +kernel⟩,
    ⟨3, fd (mkDesc opNop 0 []), wq 7 2 [fd (mkDesc opNop 0 [])] w0, .nop 3, opNop, stOk, by decide +kernel⟩,
    ⟨3, fd (mkDesc opFill 0 []), stMalformed, wq 0 0 [fd (mkDesc opFill 0 [])] w0, .fill 3, by decide +kernel⟩,
    ⟨3, fd (mkDesc opFill 0 []), { wq 7 0 [fd (mkDesc opFill 0 [])] w0 with power.oos := true }, .fill 3, by decide +kernel⟩⟩

theorem meets_RequestsIssued :
    (∃ (w : Fin 4) (r : Request) (s : State), s.powered = true ∧ s.req.reqs.find? (fun r => decide (r.who = .window w) && r.sentAt.isNone) = some r ∧ ivHeld r s = false ∧ r.copies = 0 ∧ r.kind ≠ .atomic ∧ maySend r s = true) ∧
    (∃ (q : Fin 512) (s : State), s.powered = true ∧ wouldSend q s = true ∧ turnOpen q s = true) ∧
    (∃ (q : Fin 512) (s : State), s.powered = true ∧ wouldSend q s = true ∧ turnOpen q s = false) ∧
    (∃ (q : Fin 512) (d : DescEx) (s : State), s.powered = true ∧ working q.val s = true ∧ qPart q.val s = 0 ∧ migrating q s = none ∧ workDesc q.val s = some d ∧ d.started = true ∧ dOp d.raw = opFill ∧ d.issued = 0 ∧ dfield d.raw 8 8 % 32 = 0 ∧ dfield d.raw 16 8 = 32 ∧ s.req.reqs = [] ∧ s.req.settling = [] ∧ s.req.held = [] ∧ porterStopped s = false ∧ (getQ q.val s).turns < qWeight q.val s) ∧
    (∃ (q : Fin 512) (d : DescEx) (s : State), s.powered = true ∧ waiting q.val s = some d ∧ working q.val s = true ∧ d.readWait = false ∧ qPart q.val s = 0 ∧ ((∀ t ∈ d.lastPoll, t + 250 * 2 ^ dfield d.raw 25 1 ≤ s.clock)) ∧ s.req.reqs = [] ∧ s.req.settling = [] ∧ s.req.held = [] ∧ porterStopped s = false) ∧
    (∃ (q : Fin 512) (d : DescEx) (s : State), s.powered = true ∧ waiting q.val s = some d ∧ (working q.val s = false ∨ d.readWait = true ∨ (∃ t ∈ d.lastPoll, s.clock < t + 250 * 2 ^ dfield d.raw 25 1))) ∧
    (∃ (q : Fin 512) (d : DescEx) (s : State), s.powered = true ∧ waiting q.val s = some d ∧ dfield d.raw 28 4 ≠ 0 ∧ d.beganAt + 1000 * dfield d.raw 28 4 ≤ s.clock) ∧
    (∃ (q : Fin 512) (d : DescEx) (s : State), s.powered = true ∧ waiting q.val s = some d ∧ (dfield d.raw 28 4 = 0 ∨ s.clock < d.beganAt + 1000 * dfield d.raw 28 4)) :=
  ⟨⟨3, newRequest (.window 3) none .load { f0 with ty := tyLoad } none none 32 (some 64), { w0 with req.reqs := [newRequest (.window 3) none .load { f0 with ty := tyLoad } none none 32 (some 64)], req.settling := [], req.held := [] }, by decide +kernel⟩,
    ⟨3, { wq 0 0 [fds (mkDesc opFill 0 [(8, 64), (16, 32)])] w0 with req.reqs := [], req.settling := [], req.held := [], xlt.withdraws := [] }, by decide +kernel⟩,
    ⟨3, putQ 4 { (getQ 3 ({ wq 0 0 [fds (mkDesc opFill 0 [(8, 64), (16, 32)])] w0 with req.reqs := [], req.settling := [], req.held := [], xlt.withdraws := [] })) with turns := 0 } (putQ 3 { (getQ 3 ({ wq 0 0 [fds (mkDesc opFill 0 [(8, 64), (16, 32)])] w0 with req.reqs := [], req.settling := [], req.held := [], xlt.withdraws := [] })) with turns := 9 } (putReg (rQcfg 4) (getReg (rQcfg 3) ({ wq 0 0 [fds (mkDesc opFill 0 [(8, 64), (16, 32)])] w0 with req.reqs := [], req.settling := [], req.held := [], xlt.withdraws := [] })) ({ wq 0 0 [fds (mkDesc opFill 0 [(8, 64), (16, 32)])] w0 with req.reqs := [], req.settling := [], req.held := [], xlt.withdraws := [] }))), by decide +kernel⟩,
    ⟨3, fds (mkDesc opFill 0 [(8, 64), (16, 32)]), { wq 0 0 [fds (mkDesc opFill 0 [(8, 64), (16, 32)])] w0 with req.reqs := [], req.settling := [], req.held := [], xlt.withdraws := [] }, by decide +kernel⟩,
    ⟨3, { fds (mkDesc opWait 0 [(8, 64 + 24), (25, 1)]) with lastPoll := some 0 }, { wq 0 0 [{ fds (mkDesc opWait 0 [(8, 64 + 24), (25, 1)]) with lastPoll := some 0 }] w0 with req.reqs := [], req.settling := [], req.held := [], clock := 500 }, by decide +kernel⟩,
    ⟨3, { fds (mkDesc opWait 0 [(8, 64 + 24), (25, 1)]) with lastPoll := some 0 }, { wq 0 0 [{ fds (mkDesc opWait 0 [(8, 64 + 24), (25, 1)]) with lastPoll := some 0 }] w0 with req.reqs := [], req.settling := [], req.held := [], clock := 499 }, by decide +kernel⟩,
    ⟨3, fds (mkDesc opWait 0 [(28, 2)]), { wq 0 0 [fds (mkDesc opWait 0 [(28, 2)])] w0 with clock := 2000 }, by decide +kernel⟩,
    ⟨3, fds (mkDesc opWait 0 [(28, 2)]), { wq 0 0 [fds (mkDesc opWait 0 [(28, 2)])] w0 with clock := 1999 }, by decide +kernel⟩⟩

theorem meets_WithdrawalsBegin :
    (∃ (q : Fin 512) (d : DescEx) (s : State), s.powered = true ∧ nextToStart q.val s = some d ∧ (s.power.oos = false ∨ qPart q.val s = 0) ∧ checkDesc (qEngine q.val s) (qPart q.val s) d.raw = stOk ∧ dOp d.raw = opUnmap ∧ s.xlt.withdraws = []) ∧
    (∃ (q : Fin 512) (d : DescEx) (s : State), s.powered = true ∧ nextToStart q.val s = some d ∧ (s.power.oos = false ∨ qPart q.val s = 0) ∧ checkDesc (qEngine q.val s) (qPart q.val s) d.raw = stOk ∧ dOp d.raw = opUnmap ∧ ((∀ x ∈ s.xlt.withdraws, x.queue = q → x.index ≠ d.index)) ∧ ((∃ x ∈ s.xlt.withdraws, x.part.toNat = dfield d.raw 21 1 ∧ x.first < dfield d.raw 8 8 / 2 ^ 30 + dfield d.raw 16 4 ∧ dfield d.raw 8 8 / 2 ^ 30 < x.first + x.count))) ∧
    (∃ (q : Fin 512) (d : DescEx) (big : Bool) (leaf : Word) (a : Nat) (s : State), s.powered = true ∧ nextToStart q.val s = some d ∧ s.power.oos = false ∧ qPart q.val s ≠ 0 ∧ checkDesc (qEngine q.val s) (qPart q.val s) d.raw = stOk ∧ dOp d.raw = opMigrate ∧ s.xlt.withdraws = [] ∧ walkTables (qPart q.val s) (dfield d.raw 8 8 / 2 ^ 30 * 2 ^ 30) s = .leaf big leaf a ∧ leafBad (BitVec.ofNat 64 (dfield d.raw 16 8)) = false ∧ leafBig (BitVec.ofNat 64 (dfield d.raw 16 8)) = big ∧ findDesc q.val d.index s = some d ∧ a % 8 = 0 ∧ lineStatus (lineOf a) s = stOk ∧ s.observe.cairns = []) ∧
    (∃ (f : Frame) (i : Nat) (p : Byte) (tag : BitVec 16) (st : Byte) (w : Withdraw) (s : State), s.powered = true ∧ invalAnswer f s = some (i, p, tag, st) ∧ s.xlt.withdraws = [w] ∧ w.started = true ∧ w.part = p ∧ w.tag = tag ∧ i ∈ w.waiting) :=
  ⟨⟨3, fd (mkDesc opUnmap 0 [(16, 2), (21, 7)]), { wq 0 0 [fd (mkDesc opUnmap 0 [(16, 2), (21, 7)])] (withRegs [(rRteLocal 1, 0x800000000000000F)] w0) with xlt.withdraws := [], xlt.cache := [⟨7, false, 1, 5, false⟩] }, by decide +kernel⟩,
    ⟨3, fd (mkDesc opUnmap 0 [(16, 2), (21, 7)]), { wq 0 0 [fd (mkDesc opUnmap 0 [(16, 2), (21, 7)])] (withRegs [(rRteLocal 1, 0x800000000000000F)] w0) with xlt.withdraws := [{ newWithdraw 4 (fd 0) 7 1 1 false with started := true }] }, by decide +kernel⟩,
    ⟨3, fd (mkDesc opMigrate 0 [(16, 0x0005000080000011)]), false, 0x0005000040000011, 0x2E00000200, { wq 7 0 [fd (mkDesc opMigrate 0 [(16, 0x0005000080000011)])] (wp 0x0005000040000011 (withRegs [(rRteLocal 1, 0x800000000000000F)] w0)) with xlt.withdraws := [], observe.cairns := [], xlt.cache := [⟨7, false, 0, 5, false⟩] }, by decide +kernel⟩,
    ⟨{ f0 with ty := tyMgmt, src := 1, data := [0x722 + 4 * 2 ^ 128 + 9 * 2 ^ 16] }, 1, 7, 9, 4, { newWithdraw 3 (fd 0) 7 0 1 false with started := true, tag := 9, waiting := [1, 2] }, { withRegs [(rRteSelf, 0)] w0 with xlt.withdraws := [{ newWithdraw 3 (fd 0) 7 0 1 false with started := true, tag := 9, waiting := [1, 2] }] }, by decide +kernel⟩⟩

theorem meets_WithdrawalsEnd :
    (∃ (q : Fin 512) (w : Withdraw) (s : State), s.powered = true ∧ s.xlt.withdraws = [w] ∧ w.queue = q ∧ w.migrate = false ∧ w.started = true ∧ w.copying = false ∧ w.waiting = [] ∧ w.inFlight = [] ∧ w.quietUntil ≤ s.clock ∧ ((∀ x ∈ w.uses, x ∉ collUses w.part w.first w.count s) ∨ w.startedAt + 3000000 ≤ s.clock)) ∧
    (∃ (q : Fin 512) (w : Withdraw) (s : State), s.powered = true ∧ s.xlt.withdraws = [w] ∧ w.queue = q ∧ w.migrate = false ∧ w.started = true ∧ w.copying = false ∧ w.waiting ≠ [] ∧ w.startedAt + 3000000 ≤ s.clock) ∧
    (∃ (w : Withdraw) (s : State), s.powered = true ∧ s.xlt.withdraws = [w] ∧ ((w.waiting ≠ [] ∧ s.clock < w.startedAt + 3000000) ∨ w.inFlight ≠ [] ∧ w.waiting = [] ∨ w.waiting = [] ∧ s.clock < w.startedAt + 3000000 ∧ (∃ x ∈ w.uses, x ∈ collUses w.part w.first w.count s))) ∧
    (∃ (q : Fin 512) (w : Withdraw) (s : State), s.powered = true ∧ s.xlt.withdraws = [w] ∧ w.queue = q ∧ w.migrate = true ∧ w.started = true ∧ w.copying = false ∧ w.waiting = [] ∧ w.inFlight = [] ∧ w.quietUntil ≤ s.clock ∧ ((∀ x ∈ w.uses, x ∉ collUses w.part w.first w.count s) ∨ w.startedAt + 3000000 ≤ s.clock) ∧ w.badStatus = none) ∧
    (∃ (q : Fin 512) (w : Withdraw) (d : DescEx) (s : State), s.powered = true ∧ s.xlt.withdraws = [w] ∧ w.queue = q ∧ w.migrate = true ∧ w.copying = true ∧ findDesc q.val w.index s = some d ∧ descReqs q.val w.index s = [] ∧ d.failed = none ∧ w.count * 2 ^ 30 ≤ d.landed ∧ s.xlt.faults = [] ∧ s.xlt.waitingFaults = [] ∧ w.leafAt % 8 = 0 ∧ lineStatus (lineOf w.leafAt) s = stOk ∧ s.observe.cairns = []) ∧
    (∃ (q : Fin 512) (w : Withdraw) (d : DescEx) (st : Byte) (s : State), s.powered = true ∧ s.xlt.withdraws = [w] ∧ w.queue = q ∧ w.migrate = true ∧ w.copying = true ∧ findDesc q.val w.index s = some d ∧ descReqs q.val w.index s = [] ∧ d.failed = some st ∧ st ≠ stOk ∧ s.xlt.faults = [] ∧ s.xlt.waitingFaults = []) ∧
    (∃ (q : Fin 512) (p : Fin 512) (w : Withdraw) (d : DescEx) (f : XltFault) (s : State), s.powered = true ∧ s.xlt.withdraws = [w] ∧ w.queue = q ∧ w.migrate = true ∧ w.copying = true ∧ findDesc q.val w.index s = some d ∧ descReqs q.val w.index s = [] ∧ d.failed = none ∧ w.count * 2 ^ 30 ≤ d.landed ∧ s.xlt.faults = [f] ∧ s.xlt.waitingFaults = [] ∧ f.silent = true ∧ f.part = w.part ∧ w.first ≤ f.page ∧ f.page < w.first + w.count ∧ f.waiters = [p] ∧ p ≠ q ∧ (getQ p.val s).st = .parked) :=
  ⟨⟨3, { newWithdraw 3 (fd 0) 7 0 1 false with started := true }, { wq 0 0 [fds (mkDesc opUnmap 0 [])] w0 with xlt.withdraws := [{ newWithdraw 3 (fd 0) 7 0 1 false with started := true }] }, by decide +kernel⟩,
    ⟨3, { newWithdraw 3 (fd 0) 7 0 1 false with started := true, waiting := [2] }, { wq 0 0 [fds (mkDesc opUnmap 0 [])] w0 with xlt.withdraws := [{ newWithdraw 3 (fd 0) 7 0 1 false with started := true, waiting := [2] }], clock := 3000000 }, by decide +kernel⟩,
    ⟨{ newWithdraw 3 (fd 0) 7 0 1 false with started := true, waiting := [2] }, { wq 0 0 [fds (mkDesc opUnmap 0 [])] w0 with xlt.withdraws := [{ newWithdraw 3 (fd 0) 7 0 1 false with started := true, waiting := [2] }], clock := 2999999 }, by decide +kernel⟩,
    ⟨3, { newWithdraw 3 (fd 0) 7 0 1 true with started := true }, { wq 7 0 [fds (mkDesc opMigrate 0 [])] w0 with xlt.withdraws := [{ newWithdraw 3 (fd 0) 7 0 1 true with started := true }] }, by decide +kernel⟩,
    ⟨3, { newWithdraw 3 (fd 0) 7 0 1 true with started := true, copying := true, leafAt := 0x2E00000200 }, { fds (mkDesc opMigrate 0 [(16, 0x0005000080000011)]) with issued := 0x40000000, landed := 0x40000000 }, { wq 7 0 [{ fds (mkDesc opMigrate 0 [(16, 0x0005000080000011)]) with issued := 0x40000000, landed := 0x40000000 }] w0 with xlt.withdraws := [{ newWithdraw 3 (fd 0) 7 0 1 true with started := true, copying := true, leafAt := 0x2E00000200 }], xlt.faults := [], req.reqs := [], observe.cairns := [] }, by decide +kernel⟩,
    ⟨3, { newWithdraw 3 (fd 0) 7 0 1 true with started := true, copying := true, leafAt := 0x2E00000200 }, { fds (mkDesc opMigrate 0 []) with failed := some stIntegrity }, stIntegrity, { wq 7 0 [{ fds (mkDesc opMigrate 0 []) with failed := some stIntegrity }] w0 with xlt.withdraws := [{ newWithdraw 3 (fd 0) 7 0 1 true with started := true, copying := true, leafAt := 0x2E00000200 }], xlt.faults := [], req.reqs := [] }, by decide +kernel⟩,
    ⟨3, 4, { newWithdraw 3 (fd 0) 7 0 1 true with started := true, copying := true, leafAt := 0x2E00000200 }, { fds (mkDesc opMigrate 0 [(16, 0x0005000080000011)]) with issued := 0x40000000, landed := 0x40000000 }, { fault3 with silent := true, waiters := [4] }, { putQ 4 { queue0 with st := .parked } (wq 7 0 [{ fds (mkDesc opMigrate 0 [(16, 0x0005000080000011)]) with issued := 0x40000000, landed := 0x40000000 }] w0) with xlt.withdraws := [{ newWithdraw 3 (fd 0) 7 0 1 true with started := true, copying := true, leafAt := 0x2E00000200 }], xlt.faults := [{ fault3 with silent := true, waiters := [4] }], xlt.waitingFaults := [], req.reqs := [], observe.cairns := [] }, by decide +kernel⟩⟩

theorem meets_ResponsesTaken :
    (∃ (f : Frame) (r : Request) (q : Fin 512) (i : BitVec 32) (s : State) (c : Instr) (ty : BitVec 6), s.powered = true ∧ f.part = 0 ∧ f.swRsp = false ∧ f.be = stOk ∧ findRequest f s = some r ∧ r.kind ≠ .load ∧ r.who = .queue q ∧ r.desc = some i ∧ r.detached = false ∧ ((∀ x ∈ s.req.reqs, heldKind x = true → x.sentAt ≠ none)) ∧ ((c, ty) ∈ [((.bulkAck f : Instr), tyBulkAck), (.atomicRsp f, tyAtomicRsp)] ∨ (c = .storeAck f ∧ ty = tyStoreAck ∧ findSealed f s = none)) ∧ f.ty = ty) ∧
    (∃ (f : Frame) (r : Request) (w : Fin 4) (hpa : Word) (s : State), s.powered = true ∧ f.part = 0 ∧ f.swRsp = false ∧ f.be = stOk ∧ f.ty = tyLoadRsp ∧ findRequest f s = some r ∧ r.kind = .load ∧ r.who = .window w ∧ r.hpa = some hpa ∧ ((∀ x ∈ s.req.reqs, heldKind x = true → x.sentAt ≠ none))) ∧
    (∃ (f : Frame) (r : Request) (s : State) (c : Instr) (ty : BitVec 6), s.powered = true ∧ f.part = 0 ∧ findRequest f s = some r ∧ ((c, ty) ∈ [((.loadRsp f : Instr), tyLoadRsp), (.bulkAck f, tyBulkAck), (.atomicRsp f, tyAtomicRsp)] ∨ (c = .storeAck f ∧ ty = tyStoreAck ∧ findSealed f s = none)) ∧ f.ty = ty ∧ f.swRsp = false ∧ f.be = stRetryBusy) ∧
    (∃ (f : Frame) (r : Request) (s : State) (c : Instr) (ty : BitVec 6), s.powered = true ∧ f.part = 0 ∧ findRequest f s = some r ∧ ((c, ty) ∈ [((.loadRsp f : Instr), tyLoadRsp), (.bulkAck f, tyBulkAck), (.atomicRsp f, tyAtomicRsp)] ∨ (c = .storeAck f ∧ ty = tyStoreAck ∧ findSealed f s = none)) ∧ f.ty = ty ∧ f.swRsp = true ∧ (f.be = stAged ∨ f.be = stUnreachable ∨ f.be = stMalformed)) ∧
    (∃ (f : Frame) (r : Request) (s : State) (c : Instr) (ty : BitVec 6), s.powered = true ∧ f.part = 0 ∧ findRequest f s = some r ∧ ((c, ty) ∈ [((.loadRsp f : Instr), tyLoadRsp), (.bulkAck f, tyBulkAck), (.atomicRsp f, tyAtomicRsp)] ∨ (c = .storeAck f ∧ ty = tyStoreAck ∧ findSealed f s = none)) ∧ f.ty = ty ∧ (f.be = stRetryBusy ∧ f.swRsp = false ∨ f.swRsp = true ∧ f.be = stAged)) ∧
    (∃ (f : Frame) (r : Request) (s : State), s.powered = true ∧ f.part ≠ 0 ∧ slotRec f.part s = none ∧ findRequest f s = some r ∧ f.ty = tyLoadRsp) :=
  ⟨⟨rsp tyBulkAck stOk, rq .store tyBulk, 3, 0, { wq 0 0 [fds (mkDesc opFill 0 [(16, 64)])] w0 with req.reqs := [rq .store tyBulk] }, .bulkAck (rsp tyBulkAck stOk), tyBulkAck, by decide +kernel⟩,
    ⟨{ rsp tyLoadRsp stOk with stream := 0x202 }, rw2, 2, 128, { w0 with req.reqs := [rw2], req.hostAnswers := [] }, by decide +kernel⟩,
    ⟨{ rsp tyBulkAck stRetryBusy with swRsp := false }, rq .store tyBulk, { w0 with req.reqs := [rq .store tyBulk] }, .bulkAck { rsp tyBulkAck stRetryBusy with swRsp := false }, tyBulkAck, by decide +kernel⟩,
    ⟨{ rsp tyBulkAck stAged with swRsp := true }, rq .store tyBulk, { w0 with req.reqs := [rq .store tyBulk] }, .bulkAck { rsp tyBulkAck stAged with swRsp := true }, tyBulkAck, by decide +kernel⟩,
    ⟨{ rsp tyBulkAck stRetryBusy with swRsp := false }, rq .store tyBulk, { w0 with req.reqs := [rq .store tyBulk] }, .bulkAck { rsp tyBulkAck stRetryBusy with swRsp := false }, tyBulkAck, by decide +kernel⟩,
    ⟨{ rsp tyLoadRsp stOk with part := 9 }, rq .load tyLoad, { w0 with req.reqs := [rq .load tyLoad], tenant.slots := [] }, by decide +kernel⟩⟩

theorem meets_RequestTimeline :
    (∃ (who : Requester) (seq : BitVec 24) (r : Request) (s : State), s.powered = true ∧ findSent who seq s = some r ∧ (r.keySlot = none ∨ r.copies ≤ 255) ∧ r.busyUntil = none ∧ r.counted < 4 ∧ r.lastSent + 20000 ≤ s.clock ∧ s.clock ≤ lastCopyAt r) ∧
    (∃ (who : Requester) (seq : BitVec 24) (r : Request) (s : State), s.powered = true ∧ findSent who seq s = some r ∧ (4 ≤ r.counted ∨ lastCopyAt r < s.clock ∨ s.clock < r.lastSent + 20000)) ∧
    (∃ (who : Requester) (seq : BitVec 24) (r : Request) (t : Nat) (s : State), s.powered = true ∧ findSent who seq s = some r ∧ (r.keySlot = none ∨ r.copies ≤ 255) ∧ r.busyUntil = some t ∧ t ≤ s.clock ∧ s.clock ≤ lastCopyAt r) ∧
    (∃ (w : Fin 4) (seq : BitVec 24) (r : Request) (hpa : Word) (s : State), s.powered = true ∧ findSent (.window w) seq s = some r ∧ noMoreCopies r s = true ∧ r.lastSent + 40000 ≤ s.clock ∧ r.kind = .load ∧ r.hpa = some hpa ∧ r.busy ≠ r.copies ∧ r.lost ≠ r.copies ∧ getBit rHstErrA 63 s = false ∧ ((∀ x ∈ s.req.reqs, heldKind x = true → x.sentAt ≠ none))) ∧
    (∃ (q : Fin 512) (seq : BitVec 24) (r : Request) (t0 : Nat) (s : State), s.powered = true ∧ findSent (.queue q) seq s = some r ∧ noMoreCopies r s = true ∧ r.lastSent + 40000 ≤ s.clock ∧ r.kind = .store ∧ r.sentAt = some t0 ∧ r.busy ≠ r.copies ∧ r.lost ≠ r.copies ∧ s.req.records.length < 4096 ∧ ((∀ x ∈ s.req.reqs, heldKind x = true → x.sentAt ≠ none))) ∧
    (∃ (q : Fin 512) (seq : BitVec 24) (r : Request) (i : BitVec 32) (t : Nat) (s : State), s.powered = true ∧ findSent (.queue q) seq s = some r ∧ r.fencedAt = some t ∧ t + 100000 ≤ s.clock ∧ r.kind = .load ∧ r.desc = some i ∧ r.detached = false ∧ r.busy ≠ r.copies ∧ r.lost ≠ r.copies ∧ ((∀ x ∈ s.req.reqs, heldKind x = true → x.sentAt ≠ none))) ∧
    (∃ (who : Requester) (r : Request) (s : State), s.powered = true ∧ s.req.reqs.find? (fun x => decide (x.who = who) && x.sentAt.isNone && heldKind x) = some r ∧ r.kind = .flagged ∧ ivHeld r s = false ∧ r.copies = 0 ∧ maySend r s = true ∧ ((∀ x ∈ s.req.reqs, x ≠ r → x.sentAt = none → heldKind x = true → x.earlier = none))) ∧
    (∃ (who : Requester) (r : Request) (s : State), s.powered = true ∧ s.req.reqs.find? (fun x => decide (x.who = who) && x.sentAt.isNone && heldKind x) = some r ∧ r.keySlot = none ∧ storeAhead r s = true ∧ r.earlier = none ∧ ((∀ x ∈ s.req.reqs, x.sentAt = none → heldKind x = true → x.earlier = none))) ∧
    (∃ (q : Fin 512) (r : Request) (i : BitVec 32) (e : Nat × Byte) (s : State), s.powered = true ∧ s.req.reqs.find? (fun x => decide (x.who = .queue q) && x.sentAt.isNone && heldKind x) = some r ∧ r.keySlot = none ∧ storeAhead r s = false ∧ r.earlier = some e ∧ r.desc = some i ∧ r.detached = false) :=
  ⟨⟨.queue 3, 9, rq .store tyStore, { w0 with req.reqs := [rq .store tyStore], clock := 20000 }, by decide +kernel⟩,
    ⟨.queue 3, 9, rq .store tyStore, { w0 with req.reqs := [rq .store tyStore], clock := 19999 }, by decide +kernel⟩,
    ⟨.queue 3, 9, { rq .store tyStore with busyUntil := some 5 }, 5, { w0 with req.reqs := [{ rq .store tyStore with busyUntil := some 5 }], clock := 5 }, by decide +kernel⟩,
    ⟨2, 9, { rw2 with counted := 4, copies := 4 }, 128, { withRegs [(rHstErrA, 0)] w0 with req.reqs := [{ rw2 with counted := 4, copies := 4 }], req.hostAnswers := [], clock := 40000 }, by decide +kernel⟩,
    ⟨3, 9, { rq .store tyStore with counted := 4, copies := 4 }, 0, { wq 0 0 [fds (mkDesc opFill 0 [(16, 64)])] w0 with req.reqs := [{ rq .store tyStore with counted := 4, copies := 4 }], req.settling := [], req.records := [], clock := 40000 }, by decide +kernel⟩,
    ⟨3, 9, { rq .load tyLoad with fencedAt := some 0 }, 0, 0, { wq 0 0 [fds (mkDesc opCopy 0 [])] w0 with req.reqs := [{ rq .load tyLoad with fencedAt := some 0 }], clock := 100000 }, by decide +kernel⟩,
    ⟨.queue 3, { rq .flagged tyFlagged with sentAt := none, copies := 0 }, { wq 0 0 [] w0 with req.reqs := [{ rq .flagged tyFlagged with sentAt := none, copies := 0 }], req.settling := [], req.held := [] }, by decide +kernel⟩,
    ⟨.queue 3, { rq .atomic tyAtomic with sentAt := none, order := 2 }, { wq 0 0 [] w0 with req.reqs := [rq .store tyStore, { rq .atomic tyAtomic with sentAt := none, order := 2 }] }, by decide +kernel⟩,
    ⟨3, { rq .flagged tyFlagged with sentAt := none, earlier := some (0, stDenied) }, 0, (0, stDenied), { wq 0 0 [fds (mkDesc opSignal 0 [])] w0 with req.reqs := [{ rq .flagged tyFlagged with sentAt := none, earlier := some (0, stDenied) }], req.settling := [], req.held := [] }, by decide +kernel⟩⟩

theorem meets_SettlementOfRequests :
    (∃ (who : Requester) (seq : BitVec 24) (x : Sys2Proof.Machine.Settlement) (s : State), s.powered = true ∧ findSettling who seq s = some x ∧ x.lastQuery + 100000 ≤ s.clock ∧ s.clock ≤ x.t0 + 2400000) ∧
    (∃ (who : Requester) (seq : BitVec 24) (x : Sys2Proof.Machine.Settlement) (s : State), s.powered = true ∧ findSettling who seq s = some x ∧ x.t0 + 2400000 < s.clock) ∧
    (∃ (f : Frame) (x : Sys2Proof.Machine.Settlement) (s : State), s.powered = true ∧ f.ty = tyStatusRsp ∧ s.req.settling = [x] ∧ streamOf x.who = f.stream.toNat ∧ x.frame.seq = f.seq ∧ x.frame.dst = f.src ∧ s.req.records.length < 4096 ∧ f.be ≠ stOk ∧ f.be ≠ stReleased) ∧
    (∃ (who : Requester) (seq : BitVec 24) (x : Sys2Proof.Machine.Settlement) (s : State), s.powered = true ∧ s.req.settling = [x] ∧ x.who = who ∧ x.frame.seq = seq ∧ x.t0 + 2500000 ≤ s.clock ∧ s.req.records.length < 4096) ∧
    (∃ (r : BitVec 256) (t : List (BitVec 256)) (s : State), s.powered = true ∧ s.req.records = r :: t ∧ evRingReady rSettleRing rSettlePtrs 32 s = true ∧ getBit rSettleRing 63 s = false ∧ s.req.held = []) ∧
    (∃ (r : BitVec 256) (t : List (BitVec 256)) (s : State), s.powered = true ∧ s.req.records = r :: t ∧ evRingReady rSettleRing rSettlePtrs 32 s = true ∧ getBit rSettleRing 63 s = true ∧ s.req.held = []) ∧
    (∃ (r : BitVec 256) (t : List (BitVec 256)) (x : Sys2Proof.Machine.Settlement) (l : List Sys2Proof.Machine.Settlement) (s : State), s.powered = true ∧ s.req.records = r :: t ∧ t.length < 4096 ∧ evRingReady rSettleRing rSettlePtrs 32 s = true ∧ s.req.held = x :: l ∧ s.clock ≤ x.t0 + 2400000) ∧
    (∃ (s : State), s.powered = true ∧ (s.req.records = [] ∨ evRingReady rSettleRing rSettlePtrs 32 s = false)) :=
  ⟨⟨.queue 3, 9, st3, { w0 with req.settling := [st3], clock := 2400000 }, by decide +kernel⟩,
    ⟨.queue 3, 9, st3, { w0 with req.settling := [st3], clock := 2400001 }, by decide +kernel⟩,
    ⟨{ rsp tyStatusRsp stDenied with data := [0] }, st3, { w0 with req.settling := [st3], req.records := [], clock := 0 }, by decide +kernel⟩,
    ⟨.queue 3, 9, st3, { w0 with req.settling := [st3], req.records := [], clock := 2500000 }, by decide +kernel⟩,
    ⟨9, [], { withRegs [(rSettleRing, 1), (rSettlePtrs, 5)] w0 with req.records := [9], req.held := [], req.settlePass := 1, host.linkUp := true }, by decide +kernel⟩,
    ⟨9, [], { withRegs [(rSettleRing, 0x8000002E00010001), (rSettlePtrs, 5)] w0 with req.records := [9], req.held := [], req.settlePass := 1 }, by decide +kernel⟩,
    ⟨9, [], st3, [], { withRegs [(rSettleRing, 1), (rSettlePtrs, 5)] w0 with req.records := [9], req.held := [st3], req.settlePass := 1, host.linkUp := true }, by decide +kernel⟩,
    ⟨{ withRegs [(rSettleRing, 0)] w0 with req.records := [9] }, by decide +kernel⟩⟩

theorem meets_HostWindow :
    (∃ (hpa : Word) (w : Fin 4) (d : Decoder) (s : State), s.powered = true ∧ s.host.linkUp = true ∧ windowOf (hpa.toNat / 64 * 64) s = some (w, d) ∧ isReady s = true ∧ getBit (rHstWin w.val) 63 s = true ∧ getField (rHstWin w.val) 55 48 s = 0 ∧ s.req.reqs = [] ∧ s.req.settling = [] ∧ s.req.held = []) ∧
    (∃ (hpa : Word) (w : Fin 4) (d : Decoder) (s : State), s.powered = true ∧ s.host.linkUp = true ∧ windowOf (hpa.toNat / 64 * 64) s = some (w, d) ∧ isReady s = true ∧ getBit (rHstWin w.val) 63 s = true ∧ getField (rHstWin w.val) 55 48 s = 0 ∧ s.req.reqs = [] ∧ s.req.settling = [] ∧ s.req.held = []) ∧
    (∃ (hpa : Word) (mask : BitVec 64) (w : Fin 4) (d : Decoder) (fa : Nat) (s : State), s.powered = true ∧ s.host.linkUp = true ∧ windowOf (hpa.toNat / 64 * 64) s = some (w, d) ∧ isReady s = true ∧ getBit (rHstWin w.val) 63 s = true ∧ getField (rHstWin w.val) 55 48 s = 0 ∧ s.req.reqs = [] ∧ s.req.settling = [] ∧ s.req.held = [] ∧ mask ≠ BitVec.allOnes 64 ∧ fa = getField (rHstWin w.val) 33 0 s * 2 ^ 30 + (hpa.toNat / 64 * 64 - d.base.toNat) ∧ fa % 64 = 0) ∧
    (∃ (hpa : Word) (w : Fin 4) (d : Decoder) (s : State), s.powered = true ∧ s.host.linkUp = true ∧ windowOf (hpa.toNat / 64 * 64) s = some (w, d) ∧ isReady s = true ∧ getBit (rHstWin w.val) 63 s = true ∧ windowGranted (winPart w.val s) s = false ∧ getBit rHstErrA 63 s = false) ∧
    (∃ (hpa : Word) (w : Fin 4) (d : Decoder) (s : State), s.powered = true ∧ s.host.linkUp = true ∧ windowOf (hpa.toNat / 64 * 64) s = some (w, d) ∧ (isReady s = false ∨ getBit (rHstWin w.val) 63 s = false) ∧ getBit rHstErrA 63 s = false) ∧
    (∃ (hpa : Word) (s : State), s.powered = true ∧ (s.host.linkUp = false ∨ windowOf (hpa.toNat / 64 * 64) s = none)) :=
  ⟨⟨0x7FFFFFFF, 2, ⟨0x40000000, 0x40000000, true, false⟩, { withRegs [(rHstWin 2, 0x8000000000000001)] w0 with host.linkUp := true, host.decoders := [(2, ⟨0x40000000, 0x40000000, true, false⟩)], req.reqs := [], req.settling := [], req.held := [] }, by decide +kernel⟩,
    ⟨0x40000000, 2, ⟨0x40000000, 0x40000000, true, false⟩, { withRegs [(rHstWin 2, 0x8000000000000001)] w0 with host.linkUp := true, host.decoders := [(2, ⟨0x40000000, 0x40000000, true, false⟩)], req.reqs := [], req.settling := [], req.held := [] }, by decide +kernel⟩,
    ⟨0x40000000, 1, 2, ⟨0x40000000, 0x40000000, true, false⟩, 0x40000000, { withRegs [(rHstWin 2, 0x8000000000000001)] w0 with host.linkUp := true, host.decoders := [(2, ⟨0x40000000, 0x40000000, true, false⟩)], req.reqs := [], req.settling := [], req.held := [] }, by decide +kernel⟩,
    ⟨0x7FFFFFFF, 2, ⟨0x40000000, 0x40000000, true, false⟩, { withRegs [(rHstErrA, 0), (rHstWin 2, 0x8007000000000001)] w0 with host.linkUp := true, host.decoders := [(2, ⟨0x40000000, 0x40000000, true, false⟩)], req.reqs := [], req.settling := [], req.held := [] }, by decide +kernel⟩,
    ⟨0x40000000, 2, ⟨0x40000000, 0x40000000, true, false⟩, { withRegs [(rHstWin 2, 1), (rHstErrA, 0)] w0 with host.linkUp := true, host.decoders := [(2, ⟨0x40000000, 0x40000000, true, false⟩)], req.reqs := [], req.settling := [], req.held := [] }, by decide +kernel⟩,
    ⟨0x80000000, { withRegs [(rHstWin 2, 0x8000000000000001)] w0 with host.linkUp := true, host.decoders := [(2, ⟨0x40000000, 0x40000000, true, false⟩)], req.reqs := [], req.settling := [], req.held := [] }, by decide +kernel⟩⟩

theorem meets_TargetRequests :
    (∃ (f : Frame) (l : Nat) (s : State), s.powered = true ∧ f.ty = tyLoad ∧ f.part = 0 ∧ commonStatus f (malformedRequest f) s = stOk ∧ f.off.toNat < apertureBase ∧ requestLines f = [l] ∧ s.tgt.comb = [] ∧ s.tgt.reqs = [] ∧ lineWaits l s = false ∧ lineStatus l s = stOk) ∧
    (∃ (f : Frame) (s : State), s.powered = true ∧ f.ty = tyLoad ∧ f.part = 0 ∧ queueRoom f s = true ∧ commonStatus f (malformedRequest f) s ≠ stOk) ∧
    (∃ (port : Fin 8) (f : Frame) (s : State) (c : Instr) (ty : BitVec 6), s.powered = true ∧ f.part = 0 ∧ s.tgt.quarantineEnd = none ∧ findStream f.src f.stream s = none ∧ s.tgt.streams.length < 16384 ∧ f.off.toNat < apertureBase ∧ queueRoom f s = true ∧ (c, ty) ∈ [((.store port f : Instr), tyStore), (.storeFlagged port f, tyFlagged), (.bulkData port f, tyBulk), (.atomic port f, tyAtomic)] ∧ f.ty = ty ∧ ((ty ≠ tyAtomic → storeStatus f s = stOk)) ∧ ((ty = tyAtomic → atomicStatus f s = stOk ∧ resultsHeld s < 65536)) ∧ ((∀ e ∈ s.tgt.comb, e.arrived ≠ s.clock))) ∧
    (∃ (port : Fin 8) (f : Frame) (st : Byte) (s : State) (c : Instr) (ty : BitVec 6), s.powered = true ∧ f.part = 0 ∧ s.tgt.quarantineEnd = none ∧ findStream f.src f.stream s = none ∧ s.tgt.streams.length < 16384 ∧ st ≠ stOk ∧ st ≠ stUncorrectable ∧ st ≠ stIntegrity ∧ queueRoom f s = true ∧ (c, ty) ∈ [((.store port f : Instr), tyStore), (.storeFlagged port f, tyFlagged), (.bulkData port f, tyBulk), (.atomic port f, tyAtomic)] ∧ f.ty = ty ∧ ((ty ≠ tyAtomic → storeStatus f s = st)) ∧ ((ty = tyAtomic → atomicStatus f s = st))) ∧
    (∃ (port : Fin 8) (f : Frame) (x : StreamRec) (s : State) (c : Instr) (ty : BitVec 6), s.powered = true ∧ f.part = 0 ∧ s.tgt.quarantineEnd = none ∧ findStream f.src f.stream s = some x ∧ placeOf x.top f.seq = .window ∧ seqState x f.seq = .appliedStore ∧ queueRoom f s = true ∧ (c, ty) ∈ [((.store port f : Instr), tyStore), (.storeFlagged port f, tyFlagged), (.bulkData port f, tyBulk)] ∧ f.ty = ty) ∧
    (∃ (port : Fin 8) (f : Frame) (t : Nat) (s : State) (c : Instr) (ty : BitVec 6), s.powered = true ∧ f.part = 0 ∧ s.tgt.quarantineEnd = some t ∧ queueRoom f s = true ∧ (c, ty) ∈ [((.store port f : Instr), tyStore), (.storeFlagged port f, tyFlagged), (.bulkData port f, tyBulk), (.atomic port f, tyAtomic)] ∧ f.ty = ty) ∧
    (∃ (f : Frame) (x : StreamRec) (v : Nat) (s : State), s.powered = true ∧ f.part = 0 ∧ f.ty = tyAtomic ∧ s.tgt.quarantineEnd = none ∧ findStream f.src f.stream s = some x ∧ placeOf x.top f.seq = .window ∧ seqState x f.seq = .appliedAtomic ∧ queueRoom f s = true ∧ resultOf f.src f.stream f.seq (releaseResults f s) = some v) ∧
    (∃ (port : Fin 8) (f : Frame) (s : State) (c : Instr) (ty : BitVec 6), s.powered = true ∧ f.part = 0 ∧ s.tgt.quarantineEnd = none ∧ findStream f.src f.stream s = none ∧ s.tgt.streams.length < 16384 ∧ apertureBase ≤ f.off.toNat ∧ storeStatus f s = stOk ∧ (c, ty) ∈ [((.store port f : Instr), tyStore), (.storeFlagged port f, tyFlagged), (.bulkData port f, tyBulk)] ∧ f.ty = ty) ∧
    (∃ (port : Fin 8) (f : Frame) (s : State) (c : Instr), c ∈ [(.load port f : Instr), .store port f, .storeFlagged port f, .bulkData port f, .atomic port f] ∧ s.powered = true ∧ queueRoom f s = false) :=
  ⟨⟨fr tyLoad 2 0x2E000001C0 [], 0x2E000001, { put8 0x2E000001C8 99 (wm w0) with tgt.comb := [], tgt.reqs := [], tgt.streams := [], tgt.results := [], tgt.waiting := [], tgt.quarantineEnd := none }, by decide +kernel⟩,
    ⟨fr tyLoad 2 0x2E000001E1 [], { wm w0 with tgt.comb := [], tgt.reqs := [], tgt.streams := [], tgt.results := [], tgt.waiting := [], tgt.quarantineEnd := none }, by decide +kernel⟩,
    ⟨1, fr tyStore 1 0x2E00000100 [5], { wm w0 with tgt.comb := [], tgt.reqs := [], tgt.streams := [], tgt.results := [], tgt.waiting := [], tgt.quarantineEnd := none }, .store 1 (fr tyStore 1 0x2E00000100 [5]), tyStore, by decide +kernel⟩,
    ⟨1, fr tyStore 1 0x100 [5], stDenied, { wm w0 with tgt.comb := [], tgt.reqs := [], tgt.streams := [], tgt.results := [], tgt.waiting := [], tgt.quarantineEnd := none }, .store 1 (fr tyStore 1 0x100 [5]), tyStore, by decide +kernel⟩,
    ⟨1, fr tyStore 1 0x100 [5], ⟨5, 3, 10, [(9, .appliedStore)], 0⟩, { wm w0 with tgt.comb := [], tgt.reqs := [], tgt.streams := [⟨5, 3, 10, [(9, .appliedStore)], 0⟩], tgt.results := [], tgt.waiting := [], tgt.quarantineEnd := none }, .store 1 (fr tyStore 1 0x100 [5]), tyStore, by decide +kernel⟩,
    ⟨1, fr tyStore 1 0x100 [5], 77, { wm w0 with tgt.comb := [], tgt.reqs := [], tgt.streams := [], tgt.results := [], tgt.waiting := [], tgt.quarantineEnd := some 77 }, .store 1 (fr tyStore 1 0x100 [5]), tyStore, by decide +kernel⟩,
    ⟨fr tyAtomic 1 0x2E00000100 [1 + 3 * 256], ⟨5, 3, 10, [(9, .appliedAtomic)], 0⟩, 77, { wm w0 with tgt.comb := [], tgt.reqs := [], tgt.streams := [⟨5, 3, 10, [(9, .appliedAtomic)], 0⟩], tgt.results := [⟨5, 3, 9, 77⟩], tgt.waiting := [], tgt.quarantineEnd := none }, by decide +kernel⟩,
    ⟨1, fr tyStore 1 0x800000000100 [5], { wm w0 with tgt.comb := [], tgt.reqs := [], tgt.streams := [], tgt.results := [], tgt.waiting := [], tgt.quarantineEnd := none, host.linkUp := true }, .store 1 (fr tyStore 1 0x800000000100 [5]), tyStore, by decide +kernel⟩,
    ⟨1, fr tyLoad 1 0x2E00000100 [5], { wm w0 with tgt.comb := List.replicate 1024 ⟨0, 0, 0x2E000001, .store, 0⟩, tgt.reqs := [], tgt.streams := [], tgt.results := [], tgt.waiting := [], tgt.quarantineEnd := none }, .load 1 (fr tyLoad 1 0x2E00000100 [5]), by decide +kernel⟩⟩

theorem meets_LinesApplied :
    (∃ (l : BitVec 40) (r : TargetReq) (k : ReqKind) (pt : Nat) (t : Nat) (s : State), s.powered = true ∧ s.tgt.comb = [⟨r.id, pt, l.toNat, k, t⟩] ∧ (k = .store ∨ k = .flagged) ∧ s.tgt.reqs = [r] ∧ r.left = 1 ∧ r.status = stOk ∧ (r.frame.ty = tyStore ∨ r.frame.ty = tyFlagged ∨ r.frame.ty = tyBulk) ∧ s.tgt.waiting = [] ∧ (((requestLines r.frame).length = 1 → requestLines r.frame = [l.toNat])) ∧ lineWaits l.toNat s = false ∧ max t (tblGet 0 s.tgt.lastApply l.toNat) + 2 ≤ s.clock ∧ (replacesWhole r.frame l.toNat = true ∨ lineStatus l.toNat s = stOk) ∧ s.observe.cairns = []) ∧
    (∃ (l : BitVec 40) (r : TargetReq) (pt : Nat) (t : Nat) (v : Nat) (s : State), s.powered = true ∧ s.tgt.comb = [⟨r.id, pt, l.toNat, .atomic, t⟩] ∧ s.tgt.reqs = [r] ∧ r.left = 1 ∧ r.status = stOk ∧ r.frame.ty = tyAtomic ∧ r.frame.off.toNat / 256 = l.toNat ∧ s.tgt.waiting = [] ∧ lineWaits l.toNat s = false ∧ max t (tblGet 0 s.tgt.lastApply l.toNat) + 4 ≤ s.clock ∧ lineStatus l.toNat s = stOk ∧ s.observe.cairns = [] ∧ atomicNew r.frame (readNat s r.frame.off.toNat (atBytes r.frame)) = some v) ∧
    (∃ (l : BitVec 40) (r : TargetReq) (pt : Nat) (t : Nat) (s : State), s.powered = true ∧ s.tgt.comb = [⟨r.id, pt, l.toNat, .atomic, t⟩] ∧ s.tgt.reqs = [r] ∧ r.left = 1 ∧ r.status = stOk ∧ r.frame.ty = tyAtomic ∧ s.tgt.waiting = [] ∧ lineWaits l.toNat s = false ∧ max t (tblGet 0 s.tgt.lastApply l.toNat) + 4 ≤ s.clock ∧ lineStatus l.toNat s = stOk ∧ atomicNew r.frame (readNat s r.frame.off.toNat (atBytes r.frame)) = none) ∧
    (∃ (f : Frame), atOp f = 1) ∧
    (∃ (f : Frame), atOp f = 9) ∧
    (∃ (f : Frame), atOp f = 10) :=
  ⟨⟨0x2E000001, tr (fr tyStore 2 0x2E00000120 [5, 6]), .store, 0, 3, { wm w0 with tgt.comb := [⟨0, 0, 0x2E000001, .store, 3⟩], tgt.reqs := [tr (fr tyStore 2 0x2E00000120 [5, 6])], tgt.streams := [⟨5, 3, 10, [(9, .pending)], 0⟩], tgt.results := [], tgt.waiting := [], tgt.quarantineEnd := none, tgt.lastApply := [(0x2E000001, 4)], clock := 6, observe.cairns := [] }, by decide +kernel⟩,
    ⟨0x2E000001, tr (fr tyAtomic 1 0x2E00000108 [1 + 3 * 256 + 7 * 2 ^ 128]), 0, 3, 12, { put8 0x2E00000108 5 (wm w0) with tgt.comb := [⟨0, 0, 0x2E000001, .atomic, 3⟩], tgt.reqs := [tr (fr tyAtomic 1 0x2E00000108 [1 + 3 * 256 + 7 * 2 ^ 128])], tgt.streams := [⟨5, 3, 10, [(9, .pending)], 0⟩], tgt.results := [], tgt.waiting := [], tgt.quarantineEnd := none, tgt.lastApply := [(0x2E000001, 4)], clock := 8, observe.cairns := [] }, by decide +kernel⟩,
    ⟨0x2E000001, tr (fr tyAtomic 1 0x2E00000108 [14 + 3 * 256 + (7 + 2^32 + 2^40) * 2 ^ 128]), 0, 3, { put8 0x2E00000108 (5 + 2 * 2^32 + 2^40) (wm w0) with tgt.comb := [⟨0, 0, 0x2E000001, .atomic, 3⟩], tgt.reqs := [tr (fr tyAtomic 1 0x2E00000108 [14 + 3 * 256 + (7 + 2^32 + 2^40) * 2 ^ 128])], tgt.streams := [⟨5, 3, 10, [(9, .pending)], 0⟩], tgt.results := [], tgt.waiting := [], tgt.quarantineEnd := none, tgt.lastApply := [], clock := 8 }, by decide +kernel⟩,
    ⟨fr tyAtomic 1 0 [1 + 3 * 256 + 7 * 2 ^ 128, 5], by decide +kernel⟩,
    ⟨fr tyAtomic 1 0 [9 + 3 * 256 + 7 * 2 ^ 128, 5], by decide +kernel⟩,
    ⟨fr tyAtomic 1 0 [10 + 3 * 256 + 7 * 2 ^ 128, 5], by decide +kernel⟩⟩

theorem meets_LedgerQueries :
    (∃ (f : Frame) (s : State), s.powered = true ∧ f.ty = tyQuery ∧ s.tgt.quarantineEnd = none ∧ findStream f.src f.stream s = none ∧ s.tgt.streams.length < 16384 ∧ ((∀ e ∈ s.tgt.arrived, e.2.src = f.src → e.2.stream = f.stream → e.2.seq = f.seq → e.2.ty = tyQuery))) ∧
    (∃ (f : Frame) (x : StreamRec) (s : State), s.powered = true ∧ f.ty = tyQuery ∧ s.tgt.quarantineEnd = none ∧ findStream f.src f.stream s = some x ∧ ((∀ e ∈ s.tgt.arrived, e.2.src = f.src → e.2.stream = f.stream → e.2.seq = f.seq → e.2.ty = tyQuery)) ∧ placeOf x.top f.seq = .window ∧ seqState x f.seq = .appliedStore ∧ resultOf f.src f.stream f.seq s = none) ∧
    (∃ (f : Frame) (x : StreamRec) (s : State), s.powered = true ∧ f.ty = tyQuery ∧ s.tgt.quarantineEnd = none ∧ findStream f.src f.stream s = some x ∧ ((∀ e ∈ s.tgt.arrived, e.2.src = f.src → e.2.stream = f.stream → e.2.seq = f.seq → e.2.ty = tyQuery)) ∧ placeOf x.top f.seq = .ahead) ∧
    (∃ (f : Frame) (x : StreamRec) (s : State), s.powered = true ∧ f.ty = tyQuery ∧ s.tgt.quarantineEnd = none ∧ findStream f.src f.stream s = some x ∧ ((∀ e ∈ s.tgt.arrived, e.2.src = f.src → e.2.stream = f.stream → e.2.seq = f.seq → e.2.ty = tyQuery)) ∧ placeOf x.top f.seq = .behind) ∧
    (∃ (f : Frame) (x : StreamRec) (s : State), s.powered = true ∧ f.ty = tyQuery ∧ s.tgt.quarantineEnd = none ∧ findStream f.src f.stream s = some x ∧ ((∀ e ∈ s.tgt.arrived, e.2.src = f.src → e.2.stream = f.stream → e.2.seq = f.seq → e.2.ty = tyQuery)) ∧ placeOf x.top f.seq = .window ∧ (seqState x f.seq = .none ∨ seqState x f.seq = .barred)) ∧
    (∃ (f : Frame) (x : StreamRec) (s : State), s.powered = true ∧ f.ty = tyQuery ∧ s.tgt.quarantineEnd = none ∧ findStream f.src f.stream s = some x ∧ ((∀ e ∈ s.tgt.arrived, e.2.src = f.src → e.2.stream = f.stream → e.2.seq = f.seq → e.2.ty = tyQuery)) ∧ placeOf x.top f.seq = .window ∧ seqState x f.seq = .appliedAtomic ∧ resultOf f.src f.stream f.seq s = none) ∧
    (∃ (f : Frame) (x : StreamRec) (s : State), s.powered = true ∧ f.ty = tyQuery ∧ s.tgt.quarantineEnd = none ∧ findStream f.src f.stream s = some x ∧ ((∀ e ∈ s.tgt.arrived, e.2.src = f.src → e.2.stream = f.stream → e.2.seq = f.seq → e.2.ty = tyQuery)) ∧ placeOf x.top f.seq = .window ∧ seqState x f.seq = .pending) ∧
    (∃ (f : Frame) (t : Nat) (s : State), s.powered = true ∧ f.ty = tyQuery ∧ s.tgt.quarantineEnd = some t ∧ ((∀ e ∈ s.tgt.arrived, e.2.src = f.src → e.2.stream = f.stream → e.2.seq = f.seq → e.2.ty = tyQuery))) ∧
    (∃ (src : BitVec 16) (sid : BitVec 16) (x : StreamRec) (s : State), s.powered = true ∧ findStream src sid s = some x ∧ x.lastArrival + 2500000 ≤ s.clock) ∧
    (∃ (src : BitVec 16) (sid : BitVec 16) (x : StreamRec) (s : State), s.powered = true ∧ findStream src sid s = some x ∧ s.clock < x.lastArrival + 2500000) ∧
    (∃ (t : Nat) (s : State), s.powered = true ∧ s.tgt.quarantineEnd = some t ∧ t ≤ s.clock) ∧
    (∃ (t : Nat) (s : State), s.powered = true ∧ s.tgt.quarantineEnd = some t ∧ s.clock < t) ∧
    (∃ (port : Nat) (f : Frame) (g : Frame) (s : State), s.powered = true ∧ f.ty = tyQuery ∧ s.tgt.quarantineEnd = none ∧ s.tgt.arrived = [(port, g)] ∧ g.ty = tyStore ∧ g.part = 0 ∧ g.src = f.src ∧ g.stream = f.stream ∧ g.seq = f.seq ∧ findStream f.src f.stream s = none ∧ s.tgt.streams.length < 16384 ∧ storeStatus g s = stOk ∧ g.off.toNat < apertureBase ∧ queueRoom g s = true) :=
  ⟨⟨fr tyQuery 0 0 [], { w0 with tgt.comb := [], tgt.reqs := [], tgt.streams := [], tgt.results := [], tgt.waiting := [], tgt.quarantineEnd := none }, by decide +kernel⟩,
    ⟨fr tyQuery 0 0 [], ⟨5, 3, 10, [(9, .appliedStore)], 0⟩, { w0 with tgt.comb := [], tgt.reqs := [], tgt.streams := [⟨5, 3, 10, [(9, .appliedStore)], 0⟩], tgt.results := [], tgt.waiting := [], tgt.quarantineEnd := none }, by decide +kernel⟩,
    ⟨fr tyQuery 0 0 [], ⟨5, 3, 9, [(8, .appliedStore)], 0⟩, { w0 with tgt.comb := [], tgt.reqs := [], tgt.streams := [⟨5, 3, 9, [(8, .appliedStore)], 0⟩], tgt.results := [], tgt.waiting := [], tgt.quarantineEnd := none }, by decide +kernel⟩,
    ⟨fr tyQuery 0 0 [], ⟨5, 3, 2000, [(1999, .appliedStore)], 0⟩, { w0 with tgt.comb := [], tgt.reqs := [], tgt.streams := [⟨5, 3, 2000, [(1999, .appliedStore)], 0⟩], tgt.results := [], tgt.waiting := [], tgt.quarantineEnd := none }, by decide +kernel⟩,
    ⟨fr tyQuery 0 0 [], ⟨5, 3, 10, [(8, .appliedStore)], 0⟩, { w0 with tgt.comb := [], tgt.reqs := [], tgt.streams := [⟨5, 3, 10, [(8, .appliedStore)], 0⟩], tgt.results := [], tgt.waiting := [], tgt.quarantineEnd := none }, by decide +kernel⟩,
    ⟨fr tyQuery 0 0 [], ⟨5, 3, 10, [(9, .appliedAtomic)], 0⟩, { w0 with tgt.comb := [], tgt.reqs := [], tgt.streams := [⟨5, 3, 10, [(9, .appliedAtomic)], 0⟩], tgt.results := [], tgt.waiting := [], tgt.quarantineEnd := none }, by decide +kernel⟩,
    ⟨fr tyQuery 0 0 [], ⟨5, 3, 10, [(9, .pending)], 0⟩, { w0 with tgt.comb := [], tgt.reqs := [], tgt.streams := [⟨5, 3, 10, [(9, .pending)], 0⟩], tgt.results := [], tgt.waiting := [], tgt.quarantineEnd := none }, by decide +kernel⟩,
    ⟨fr tyQuery 0 0 [], 77, { w0 with tgt.comb := [], tgt.reqs := [], tgt.streams := [], tgt.results := [], tgt.waiting := [], tgt.quarantineEnd := some 77 }, by decide +kernel⟩,
    ⟨5, 3, ⟨5, 3, 10, [(9, .appliedStore)], 0⟩, { w0 with tgt.comb := [], tgt.reqs := [], tgt.streams := [⟨5, 3, 10, [(9, .appliedStore)], 0⟩], tgt.results := [⟨5, 3, 9, 1⟩], tgt.waiting := [], tgt.quarantineEnd := none, clock := 2500000 }, by decide +kernel⟩,
    ⟨5, 3, ⟨5, 3, 10, [(9, .appliedStore)], 0⟩, { w0 with tgt.comb := [], tgt.reqs := [], tgt.streams := [⟨5, 3, 10, [(9, .appliedStore)], 0⟩], tgt.results := [], tgt.waiting := [], tgt.quarantineEnd := none, clock := 2499999 }, by decide +kernel⟩,
    ⟨77, { w0 with tgt.quarantineEnd := some 77, clock := 77 }, by decide +kernel⟩,
    ⟨77, { w0 with tgt.quarantineEnd := some 77, clock := 76 }, by decide +kernel⟩,
    ⟨37, fr tyQuery 0 0 [], fr tyStore 1 0x2E00000100 [5], { wm w0 with tgt.comb := [], tgt.reqs := [], tgt.streams := [], tgt.results := [], tgt.waiting := [], tgt.quarantineEnd := none, tgt.arrived := [(37, fr tyStore 1 0x2E00000100 [5])] }, by decide +kernel⟩⟩

theorem meets_GroupsAndQuotas :
    (∃ (side : Side) (g : Fin 256) (w : Fin 3) (s : State), s.powered = true ∧ gate side bCVN false .ary s = .go ∧ ((∀ c ∈ s.caravan.colls, c.group ≠ g.val)) ∧ w = 0) ∧
    (∃ (side : Side) (g : Fin 256) (c : Coll) (s : State), s.powered = true ∧ gate side bCVN false .ary s = .go ∧ c ∈ s.caravan.colls ∧ c.group = g.val) ∧
    (∃ (side : Side) (n : Fin 64) (v : Word) (s : State), s.powered = true ∧ gate side bCVN false .ary s = .go ∧ wfield v 12 0 ≤ wfield v 28 16 ∧ (List.range 64).foldl (fun t k => if k = n.val then t else t + quotaFloor k s) 0 + wfield v 12 0 ≤ 5120) ∧
    (∃ (side : Side) (n : Fin 64) (v : Word) (s : State), s.powered = true ∧ gate side bCVN false .ary s = .go ∧ (wfield v 28 16 < wfield v 12 0 ∨ 5120 < (List.range 64).foldl (fun t k => if k = n.val then t else t + quotaFloor k s) 0 + wfield v 12 0)) :=
  ⟨⟨.host, 9, 0, { w0 with caravan.colls := [] }, by decide +kernel⟩,
    ⟨.host, 9, coll0 call0 [], wgc 1 (coll0 call0 []) w0, by decide +kernel⟩,
    ⟨.host, 63, 0x14000000, withRegs ((List.range 64).map (fun n => (rRoomQuota n, 0))) w0, by decide +kernel⟩,
    ⟨.host, 5, 0x10002, w0, by decide +kernel⟩⟩

theorem meets_CollectivesStart :
    (∃ (q : Fin 512) (d : DescEx) (c : CollCall) (g : Nat) (e : Nat) (s : State), s.powered = true ∧ nextToStart q.val s = some d ∧ (s.power.oos = false ∨ qPart q.val s = 0) ∧ checkDesc (qEngine q.val s) (qPart q.val s) d.raw = stOk ∧ dOp d.raw = opColl ∧ g = dfield d.raw 8 1 ∧ collsInFlight q s < 8 ∧ ropeShadow s = false ∧ grpValid g s = true ∧ qPart q.val s = grpPart g s ∧ c = { op := dfield d.raw 9 1, operator := dfield d.raw 10 1, format := dfield d.raw 11 1, root := dfield d.raw 12 2, count := dfield d.raw 40 8, rooms := if dfield d.raw 48 4 = 0 then 8 else dfield d.raw 48 4 } ∧ callStatus g c s = stOk ∧ ((∀ a ∈ dfield d.raw 32 8 :: (if c.op = 6 then [] else [dfield d.raw 16 8, dfield d.raw 24 8]), bufferEid (qPart q.val s) a s = some (some e))) ∧ e / 16 = (partId s).toNat ∧ e % 16 ∈ localList g s ∧ buffersFit g (qPart q.val s) c (e % 16) (dfield d.raw 16 8) (dfield d.raw 24 8) (dfield d.raw 32 8) s = true ∧ ((∀ w ∈ turnEntries g (turnOf g (e % 16) s.caravan.waiting) s, w.call = c))) ∧
    (∃ (q : Fin 512) (d : DescEx) (c : CollCall) (g : Nat) (st : Byte) (s : State), s.powered = true ∧ nextToStart q.val s = some d ∧ (s.power.oos = false ∨ qPart q.val s = 0) ∧ checkDesc (qEngine q.val s) (qPart q.val s) d.raw = stOk ∧ dOp d.raw = opColl ∧ g = dfield d.raw 8 1 ∧ c = { op := dfield d.raw 9 1, operator := dfield d.raw 10 1, format := dfield d.raw 11 1, root := dfield d.raw 12 2, count := dfield d.raw 40 8, rooms := if dfield d.raw 48 4 = 0 then 8 else dfield d.raw 48 4 } ∧ collsInFlight q s < 8 ∧ ((ropeShadow s = true ∧ st = stDenied) ∨ (ropeShadow s = false ∧ grpValid g s = false ∧ st = stMalformed) ∨ (ropeShadow s = false ∧ grpValid g s = true ∧ qPart q.val s ≠ grpPart g s ∧ st = stDenied) ∨ (ropeShadow s = false ∧ grpValid g s = true ∧ qPart q.val s = grpPart g s ∧ callStatus g c s ≠ stOk ∧ st = callStatus g c s) ∨ (ropeShadow s = false ∧ grpValid g s = true ∧ qPart q.val s = grpPart g s ∧ callStatus g c s = stOk ∧ c.op = 6 ∧ (∃ e ∈ (bufferEid (qPart q.val s) (dfield d.raw 32 8) s).join, (e / 16 ≠ (partId s).toNat ∨ e % 16 ∉ localList g s)) ∧ st = stDenied))) ∧
    (∃ (g : Fin 256) (w : CollWaiting) (t : List CollWaiting) (s : State), s.powered = true ∧ turnEntries g.val 0 s = w :: t ∧ (w :: t).length = localCount g.val s ∧ inReset .ary s = false ∧ ((∀ x ∈ w :: t, firstOfQueue x s = true)) ∧ s.caravan.early = []) ∧
    (∃ (g : Fin 256) (s : State), s.powered = true ∧ ((turnEntries g.val 0 s).length ≠ localCount g.val s ∨ inReset .ary s = true ∨ (∃ x ∈ turnEntries g.val 0 s, firstOfQueue x s = false)) ∧ ((∀ f ∈ s.caravan.early, ripe f s = false))) ∧
    (∃ (c : Coll) (dep : Nat) (n : Nat) (places : List Nat) (s : State), s.powered = true ∧ firstUnadmitted s = some c ∧ admittedCount s < 32 ∧ inReset .ary s = false ∧ compStopped 3 s = false ∧ admitChoice c s = some (dep, n, places) ∧ s.caravan.early = []) ∧
    (∃ (c : Coll) (s : State), s.powered = true ∧ firstUnadmitted s = some c ∧ (admitChoice c s = none ∨ 32 ≤ admittedCount s) ∧ ((∀ f ∈ s.caravan.early, ripe f s = false))) ∧
    (∃ (g : Fin 256) (epoch : BitVec 8) (c : Coll) (s : State), s.powered = true ∧ findColl g.val epoch.toNat s = some c ∧ c.admitted = none ∧ c.startedAt + admitTimeout c ≤ s.clock) ∧
    (∃ (g : Fin 256) (epoch : BitVec 8) (c : Coll) (s : State), s.powered = true ∧ findColl g.val epoch.toNat s = some c ∧ (c.admitted.isSome = true ∨ s.clock < c.startedAt + admitTimeout c)) :=
  ⟨⟨3, fd (mkDesc 0x20 0 [(8,9),(9,0),(10,1),(11,0x12),(16,0x2E00001000),(24,0x2E00002000),(32,0x2E00003000),(40,16),(48,8)]), call0, 9, 0, wgr 1 (wq 0 1 [fd (mkDesc 0x20 0 [(8,9),(9,0),(10,1),(11,0x12),(16,0x2E00001000),(24,0x2E00002000),(32,0x2E00003000),(40,16),(48,8)])] { w0 with caravan.colls := [], caravan.waiting := [] }), by decide +kernel⟩,
    ⟨3, fd (mkDesc 0x20 0 [(8,10),(9,0),(10,1),(11,0x12),(16,0x2E00001000),(24,0x2E00002000),(32,0x2E00003000),(40,16),(48,8)]), call0, 10, stMalformed, withRegs [(rGroup 10, 0)] (wgr 1 (wq 0 1 [fd (mkDesc 0x20 0 [(8,10),(9,0),(10,1),(11,0x12),(16,0x2E00001000),(24,0x2E00002000),(32,0x2E00003000),(40,16),(48,8)])] { w0 with caravan.colls := [], caravan.waiting := [] })), by decide +kernel⟩,
    ⟨9, ⟨9, call0, mem0⟩, [], { wgr 1 (wq 0 1 [] w0) with caravan.waiting := [⟨9, call0, mem0⟩], caravan.colls := [], caravan.early := [] }, by decide +kernel⟩,
    ⟨9, { wgr 1 w0 with caravan.waiting := [] }, by decide +kernel⟩,
    ⟨{ coll0 call0 [] with admitted := none, next := 0, depth := 0, staging := [] }, 8, 8, List.range 32, wgc 1 ({ coll0 call0 [] with admitted := none, next := 0, depth := 0, staging := [] }) w0, by decide +kernel⟩,
    ⟨{ coll0 call0 [] with admitted := none, next := 0, depth := 0, staging := [] }, putReg (rRoomQuota 0) 0x14001400 (wgc 1 ({ coll0 call0 [] with admitted := none, next := 0, depth := 0, staging := [] }) w0), by decide +kernel⟩,
    ⟨9, 0, { coll0 call0 [] with admitted := none, next := 0, depth := 0, staging := [] }, { wgc 1 ({ coll0 call0 [] with admitted := none, next := 0, depth := 0, staging := [] }) w0 with clock := 10000000 }, by decide +kernel⟩,
    ⟨9, 0, { coll0 call0 [] with admitted := none, next := 0, depth := 0, staging := [] }, { wgc 1 ({ coll0 call0 [] with admitted := none, next := 0, depth := 0, staging := [] }) w0 with clock := 9999999 }, by decide +kernel⟩⟩

theorem meets_OffersAndInvites :
    (∃ (g : Fin 256) (epoch : BitVec 8) (st : CollStep) (c : Coll) (k : CollChunk) (x : CollStepSt) (outs : List (Eid × Nat × Nat)) (s : State), s.powered = true ∧ rowStep g.val epoch.toNat st s = some (c, k, x) ∧ outs = stepOutputs c.group c.call k.number x s ∧ (x.done = false ∨ x.offered = true ∨ outs = [])) ∧
    (∃ (f : Frame) (c : Coll) (k : CollChunk) (x : CollStepSt) (s : State), s.powered = true ∧ f.ty = tyRoomCall ∧ slotNat f 0 1 = 1 ∧ collAuth f s = .pass ∧ collByTag f.stream f.be.toNat s = some c ∧ offerAgrees c f = true ∧ chunkAt c f s = .here k ∧ s.caravan.early = [] ∧ rowStep c.group c.epoch ⟨k.number, slotNat f 1 1, decide (slotNat f 2 1 % 2 = 1)⟩ s = some (c, k, x)) ∧
    (∃ (f : Frame) (c : Coll) (s : State), s.powered = true ∧ f.ty = tyRoomCall ∧ slotNat f 0 1 = 1 ∧ collAuth f s = .pass ∧ collByTag f.stream f.be.toNat s = some c ∧ findColl c.group c.epoch s = some c ∧ offerAgrees c f = true ∧ chunkAt c f s = .past ∧ ((∀ h ∈ s.caravan.early, ripe h s = false))) ∧
    (∃ (f : Frame) (c : Coll) (s : State), s.powered = true ∧ f.ty = tyRoomCall ∧ slotNat f 0 1 = 1 ∧ collAuth f s = .pass ∧ collByTag f.stream f.be.toNat s = some c ∧ findColl c.group c.epoch s = some c ∧ offerAgrees c f = true ∧ chunkAt c f s = .ahead ∧ ((∀ h ∈ s.caravan.early, ripe h s = false))) ∧
    (∃ (f : Frame) (s : State) (i : Instr) (ty : BitVec 6), s.powered = true ∧ collAuth f s ≠ .pass ∧ (i, ty) ∈ [((.offer f : Instr), tyRoomCall), (.invite f, tyRoomCall), (.collData f, tyCollData), (.collResult f, tyCollResult), (.seal f, tySeal)] ∧ f.ty = ty ∧ ((ty = tyRoomCall → slotNat f 0 1 = if i = .offer f then 1 else 2))) ∧
    (∃ (g : Fin 256) (epoch : BitVec 8) (st : CollStep) (c : Coll) (k : CollChunk) (x : CollStepSt) (total : Nat) (asked : List (List (Nat × Nat × Nat))) (s : State) (s₁ : State), s.powered = true ∧ rowStep g.val epoch.toNat st s = some (c, k, x) ∧ inReset .ary s = false ∧ wantsRooms c k x s = true ∧ roomTurn c k s = true ∧ total = (x.inputs.map (fun i => ceilDiv (roundRange c x i).2 32768)).foldl (· + ·) 0 ∧ total ≤ roomsUnderMax (holderOf (grpPart c.group s) s) s ∧ total ≤ roomsFreeTo (holderOf (grpPart c.group s) s) s ∧ askInputs c k x x.inputs s = (some asked, s₁) ∧ (grantRows (holderOf (grpPart c.group s) s) x.inputs.length ((x.inputs.map (fun i => ceilDiv (roundRange c x i).2 32768)).foldl max 0) s₁ []).isSome = true) ∧
    (∃ (g : Fin 256) (epoch : BitVec 8) (st : CollStep) (c : Coll) (k : CollChunk) (x : CollStepSt) (s : State), s.powered = true ∧ rowStep g.val epoch.toNat st s = some (c, k, x) ∧ (inReset .ary s = true ∨ wantsRooms c k x s = false ∨ roomTurn c k s = false)) ∧
    (∃ (f : Frame) (c : Coll) (bs : List Byte) (s : State), s.powered = true ∧ f.ty = tyRoomCall ∧ slotNat f 0 1 = 2 ∧ collAuth f s = .pass ∧ collByTag f.stream f.be.toNat s = some c ∧ s.caravan.early = [] ∧ ((slotNat f 16 8 ≠ 0 ∧ bs = memberBytes c f s ∨ slotNat f 16 8 = 0 ∧ ∃ k ∈ chunkOf c f, ∃ st ∈ k.steps.find? (fun st => decide (offerStage c.call st = slotNat f 1 1) && (st.anchor == decide (slotNat f 2 1 % 2 = 1)) && st.done), bs = staged c k (bit1 st.anchor) (slotNat f 4 4) (min (slotNat f 8 4) (st.staged - slotNat f 4 4)) s)) ∧ slotNat f 2 1 / 2 % 2 = 1) ∧
    (∃ (g : Fin 256) (epoch : BitVec 8) (st : CollStep) (n : BitVec 16) (c : Coll) (k : CollChunk) (x : CollStepSt) (i : CollIn) (t : Nat) (s : State), s.powered = true ∧ rowStep g.val epoch.toNat st s = some (c, k, x) ∧ x.inputs[n.toNat]? = some i ∧ i.invitedAt = some t ∧ i.arrived = none ∧ t + 5000000 ≤ s.clock ∧ 3 ≤ i.repeats) ∧
    (∃ (g : Fin 256) (epoch : BitVec 8) (st : CollStep) (n : BitVec 16) (c : Coll) (k : CollChunk) (x : CollStepSt) (i : CollIn) (t : Nat) (s : State), s.powered = true ∧ rowStep g.val epoch.toNat st s = some (c, k, x) ∧ x.inputs[n.toNat]? = some i ∧ i.invitedAt = some t ∧ (i.arrived.isSome = true ∨ s.clock < t + 5000000)) :=
  ⟨⟨9, 0, ⟨1, 1, false⟩, coll0 ({ call0 with count := 65536 + 16 }) [{ chunk0 [{ step0 with stage := 1, inputs := [{ in0 with src := 16, offered := false }], done := true, offered := true, staged := 64 }] with number := 1 }], { chunk0 [{ step0 with stage := 1, inputs := [{ in0 with src := 16, offered := false }], done := true, offered := true, staged := 64 }] with number := 1 }, { step0 with stage := 1, inputs := [{ in0 with src := 16, offered := false }], done := true, offered := true, staged := 64 }, stepOutputs 9 ({ call0 with count := 65536 + 16 }) 1 ({ step0 with stage := 1, inputs := [{ in0 with src := 16, offered := false }], done := true, offered := true, staged := 64 }) (wgc 2 (coll0 ({ call0 with count := 65536 + 16 }) [{ chunk0 [{ step0 with stage := 1, inputs := [{ in0 with src := 16, offered := false }], done := true, offered := true, staged := 64 }] with number := 1 }]) w0), wgc 2 (coll0 ({ call0 with count := 65536 + 16 }) [{ chunk0 [{ step0 with stage := 1, inputs := [{ in0 with src := 16, offered := false }], done := true, offered := true, staged := 64 }] with number := 1 }]) w0, by decide +kernel⟩,
    ⟨{ cf tyRoomCall (1 + 2^8 * 0 + 0 * 2^96 + 2^104 + 0x12 * 2^112 + 16 * 2^192) with src := 0 }, coll0 call0 [chunk0 [{ step0 with inputs := [{ in0 with offered := false }] }]], chunk0 [{ step0 with inputs := [{ in0 with offered := false }] }], { step0 with inputs := [{ in0 with offered := false }] }, wgc 1 (coll0 (call0) [chunk0 [{ step0 with inputs := [{ in0 with offered := false }] }]]) w0, by decide +kernel⟩,
    ⟨{ cf tyRoomCall (1 + 2^104 + 0x12 * 2^112 + 16 * 2^192) with src := 0 }, coll0 call0 [], wgc 1 (coll0 call0 []) w0, by decide +kernel⟩,
    ⟨{ cf tyRoomCall (1 + 2^104 + 0x12 * 2^112 + (65536 + 16) * 2^192) with src := 0, seq := 1 }, coll0 ({ call0 with count := 65536 + 16 }) [], wgc 1 (coll0 ({ call0 with count := 65536 + 16 }) []) w0, by decide +kernel⟩,
    ⟨{ { cf tyRoomCall (1 + 2^8 * 0 + 0 * 2^96 + 2^104 + 0x12 * 2^112 + 16 * 2^192) with src := 0 } with part := 9 }, { wgc 1 (coll0 (call0) [chunk0 [step0]]) w0 with tenant.slots := [] }, (.offer { { cf tyRoomCall (1 + 2^8 * 0 + 0 * 2^96 + 2^104 + 0x12 * 2^112 + 16 * 2^192) with src := 0 } with part := 9 } : Instr), tyRoomCall, by decide +kernel⟩,
    ⟨9, 0, ⟨0, 0, false⟩, coll0 call0 [chunk0 [step0]], chunk0 [step0], step0, 1, (askInputs (coll0 call0 [chunk0 [step0]]) (chunk0 [step0]) step0 step0.inputs (wgc 1 (coll0 (call0) [chunk0 [step0]]) w0)).1.getD [], wgc 1 (coll0 (call0) [chunk0 [step0]]) w0, (askInputs (coll0 call0 [chunk0 [step0]]) (chunk0 [step0]) step0 step0.inputs (wgc 1 (coll0 (call0) [chunk0 [step0]]) w0)).2, by decide +kernel⟩,
    ⟨9, 0, ⟨0, 0, false⟩, coll0 call0 [chunk0 [{ step0 with done := true }]], chunk0 [{ step0 with done := true }], { step0 with done := true }, wgc 1 (coll0 (call0) [chunk0 [{ step0 with done := true }]]) w0, by decide +kernel⟩,
    ⟨cf tyRoomCall (2 + 2 * 2^16 + 64 * 2^64 + 0x2E00001000 * 2^128), coll0 call0 [chunk0 [step0]], memberBytes (coll0 call0 [chunk0 [step0]]) (cf tyRoomCall (2 + 2 * 2^16 + 64 * 2^64 + 0x2E00001000 * 2^128)) (put8 0x2E00001000 77 (wgc 1 (coll0 (call0) [chunk0 [step0]]) w0)), put8 0x2E00001000 77 (wgc 1 (coll0 (call0) [chunk0 [step0]]) w0), by decide +kernel⟩,
    ⟨9, 0, ⟨0, 0, false⟩, 0, coll0 call0 [chunk0 [{ step0 with inputs := [{ in0 with invitedAt := some 0, asked := [(0, 64, 0)], repeats := 3 }] }]], chunk0 [{ step0 with inputs := [{ in0 with invitedAt := some 0, asked := [(0, 64, 0)], repeats := 3 }] }], { step0 with inputs := [{ in0 with invitedAt := some 0, asked := [(0, 64, 0)], repeats := 3 }] }, { in0 with invitedAt := some 0, asked := [(0, 64, 0)], repeats := 3 }, 0, { wgc 1 (coll0 (call0) [chunk0 [{ step0 with inputs := [{ in0 with invitedAt := some 0, asked := [(0, 64, 0)], repeats := 3 }] }]]) w0 with clock := 5000000 }, by decide +kernel⟩,
    ⟨9, 0, ⟨0, 0, false⟩, 0, coll0 call0 [chunk0 [{ step0 with inputs := [{ in0 with invitedAt := some 0, asked := [(0, 64, 0)], repeats := 0 }] }]], chunk0 [{ step0 with inputs := [{ in0 with invitedAt := some 0, asked := [(0, 64, 0)], repeats := 0 }] }], { step0 with inputs := [{ in0 with invitedAt := some 0, asked := [(0, 64, 0)], repeats := 0 }] }, { in0 with invitedAt := some 0, asked := [(0, 64, 0)], repeats := 0 }, 0, { wgc 1 (coll0 (call0) [chunk0 [{ step0 with inputs := [{ in0 with invitedAt := some 0, asked := [(0, 64, 0)], repeats := 0 }] }]]) w0 with clock := 4999999 }, by decide +kernel⟩⟩

theorem meets_ChunksCombined :
    (∃ (f : Frame) (c : Coll) (k : CollChunk) (x : CollStepSt) (i : CollIn) (b : Nat) (p : Nat) (n : Nat) (bs : List Byte) (s : State), s.powered = true ∧ f.ty = tyCollData ∧ collAuth f s = .pass ∧ collByTag f.stream f.be.toNat s = some c ∧ chunkOf c f = some k ∧ k.voided ≤ frameAttempt f ∧ rowStep c.group c.epoch ⟨k.number, offStage f, offAnchor f⟩ s = some (c, k, x) ∧ x.done = false ∧ b = (if offCheck f then slotNat f 8 4 else offByte f) ∧ (x.inputs.find? (fun i => decide (i.src = f.src ∧ i.lo ≤ b ∧ b < i.lo + i.len) && i.invitedAt.isSome && i.arrived.isNone) = some i) ∧ n = (roundRange c x i).2 ∧ p = b - i.lo - (roundRange c x i).1 ∧ bs = (frameBytes f).take ((((i.asked.map (fun a => a.1 - (roundRange c x i).1 + a.2.1)).find? (fun e => decide (p < e))).getD n) - p) ∧ offCheck f = false ∧ i.checks = [] ∧ 0 < n) ∧
    (∃ (f : Frame) (c : Coll) (k : CollChunk) (x : CollStepSt) (i : CollIn) (b : Nat) (p : Nat) (n : Nat) (bs : List Byte) (s : State), s.powered = true ∧ f.ty = tyCollData ∧ collAuth f s = .pass ∧ collByTag f.stream f.be.toNat s = some c ∧ chunkOf c f = some k ∧ k.voided ≤ frameAttempt f ∧ rowStep c.group c.epoch ⟨k.number, offStage f, offAnchor f⟩ s = some (c, k, x) ∧ x.done = false ∧ b = (if offCheck f then slotNat f 8 4 else offByte f) ∧ (x.inputs.find? (fun i => decide (i.src = f.src ∧ i.lo ≤ b ∧ b < i.lo + i.len) && i.invitedAt.isSome && i.arrived.isNone) = some i) ∧ n = (roundRange c x i).2 ∧ p = b - i.lo - (roundRange c x i).1 ∧ bs = (frameBytes f).take ((((i.asked.map (fun a => a.1 - (roundRange c x i).1 + a.2.1)).find? (fun e => decide (p < e))).getD n) - p) ∧ offCheck f = true ∧ n ≤ rangeTotal i.got ∧ p = 0 ∧ i.checks = [] ∧ n = slotNat f 12 4 ∧ crcChunk (roomsRead i.rooms 0 n s) = slotNat f 0 8) ∧
    (∃ (f : Frame) (c : Coll) (k : CollChunk) (x : CollStepSt) (i : CollIn) (b : Nat) (p : Nat) (n : Nat) (bs : List Byte) (s : State), s.powered = true ∧ f.ty = tyCollData ∧ collAuth f s = .pass ∧ collByTag f.stream f.be.toNat s = some c ∧ chunkOf c f = some k ∧ k.voided ≤ frameAttempt f ∧ rowStep c.group c.epoch ⟨k.number, offStage f, offAnchor f⟩ s = some (c, k, x) ∧ x.done = false ∧ b = (if offCheck f then slotNat f 8 4 else offByte f) ∧ (x.inputs.find? (fun i => decide (i.src = f.src ∧ i.lo ≤ b ∧ b < i.lo + i.len) && i.invitedAt.isSome && i.arrived.isNone) = some i) ∧ n = (roundRange c x i).2 ∧ p = b - i.lo - (roundRange c x i).1 ∧ bs = (frameBytes f).take ((((i.asked.map (fun a => a.1 - (roundRange c x i).1 + a.2.1)).find? (fun e => decide (p < e))).getD n) - p) ∧ offCheck f = true ∧ n ≤ rangeTotal i.got ∧ p = 0 ∧ i.checks = [] ∧ n = slotNat f 12 4 ∧ crcChunk (roomsRead i.rooms 0 n s) ≠ slotNat f 0 8 ∧ i.repeats < 3) ∧
    (∃ (f : Frame) (c : Coll) (k : CollChunk) (x : CollStepSt) (i : CollIn) (b : Nat) (p : Nat) (n : Nat) (bs : List Byte) (s : State), s.powered = true ∧ f.ty = tyCollData ∧ collAuth f s = .pass ∧ collByTag f.stream f.be.toNat s = some c ∧ chunkOf c f = some k ∧ k.voided ≤ frameAttempt f ∧ rowStep c.group c.epoch ⟨k.number, offStage f, offAnchor f⟩ s = some (c, k, x) ∧ x.done = false ∧ b = (if offCheck f then slotNat f 8 4 else offByte f) ∧ (x.inputs.find? (fun i => decide (i.src = f.src ∧ i.lo ≤ b ∧ b < i.lo + i.len) && i.invitedAt.isSome && i.arrived.isNone) = some i) ∧ n = (roundRange c x i).2 ∧ p = b - i.lo - (roundRange c x i).1 ∧ bs = (frameBytes f).take ((((i.asked.map (fun a => a.1 - (roundRange c x i).1 + a.2.1)).find? (fun e => decide (p < e))).getD n) - p) ∧ offCheck f = true ∧ n ≤ rangeTotal i.got ∧ p = 0 ∧ i.checks = [] ∧ n = slotNat f 12 4 ∧ crcChunk (roomsRead i.rooms 0 n s) ≠ slotNat f 0 8 ∧ 3 ≤ i.repeats) ∧
    (∃ (g : Fin 256) (epoch : BitVec 8) (st : CollStep) (c : Coll) (k : CollChunk) (x : CollStepSt) (out : List Byte) (s : State), s.powered = true ∧ rowStep g.val epoch.toNat st s = some (c, k, x) ∧ currentStep k = some x ∧ x.bad = false ∧ x.ran = some out ∧ s.caravan.early = [] ∧ moreRounds c x = true) ∧
    (∃ (g : Fin 256) (epoch : BitVec 8) (st : CollStep) (c : Coll) (k : CollChunk) (x : CollStepSt) (out : List Byte) (s : State), s.powered = true ∧ rowStep g.val epoch.toNat st s = some (c, k, x) ∧ currentStep k = some x ∧ x.bad = false ∧ x.ran = some out ∧ s.caravan.early = [] ∧ moreRounds c x = false ∧ endsRound c k x s = false) ∧
    (∃ (g : Fin 256) (epoch : BitVec 8) (st : CollStep) (c : Coll) (k : CollChunk) (x : CollStepSt) (out : List Byte) (s : State), s.powered = true ∧ rowStep g.val epoch.toNat st s = some (c, k, x) ∧ currentStep k = some x ∧ x.bad = false ∧ x.ran = some out ∧ s.caravan.early = [] ∧ (moreRounds c x = true ∨ endsRound c k x s = false) ∧ linesStatus (linesOf (stageBase c k (stepPlace c k x s)) out.length) s = stOk) ∧
    (∃ (g : Fin 256) (epoch : BitVec 8) (st : CollStep) (c : Coll) (k : CollChunk) (x : CollStepSt) (out : List Byte) (s : State), s.powered = true ∧ rowStep g.val epoch.toNat st s = some (c, k, x) ∧ currentStep k = some x ∧ x.bad = false ∧ x.ran = some out ∧ s.caravan.early = [] ∧ moreRounds c x = false ∧ endsRound c k x s = true ∧ x.anchor = false ∧ c.call.operator ≠ 2) ∧
    (∃ (f : Frame) (l : Landed) (bs : List Byte) (s : State), s.powered = true ∧ f.ty = tyCollResult ∧ collAuth f s = .pass ∧ f.src = selfEid 0 s ∧ landedOf f s = some l ∧ s.caravan.early = [] ∧ bs = (frameBytes f).take (landsLeft f s) ∧ s.observe.cairns = [] ∧ linesStatus (linesOf f.off.toNat bs.length) s = stOk ∧ l.voided ≤ frameAttempt f) ∧
    (∃ (f : Frame) (l : Landed) (bs : List Byte) (s : State), s.powered = true ∧ f.ty = tyCollResult ∧ collAuth f s = .pass ∧ f.src = selfEid 0 s ∧ landedOf f s = some l ∧ s.caravan.early = [] ∧ bs = (frameBytes f).take (landsLeft f s) ∧ s.observe.cairns = [] ∧ linesStatus (linesOf f.off.toNat bs.length) s = stOk ∧ frameAttempt f < l.voided) ∧
    (∃ (f : Frame) (c : Coll) (k : CollChunk) (bs : List Byte) (s : State), s.powered = true ∧ f.ty = tyCollResult ∧ collAuth f s = .pass ∧ f.src ≠ selfEid 0 s ∧ collByTag f.stream f.be.toNat s = some c ∧ chunkAt c f s = .here k ∧ findColl c.group c.epoch s = some c ∧ findChunk c k.number = some k ∧ s.caravan.early = [] ∧ k.voided ≤ frameAttempt f ∧ frameAttempt f ≤ k.attempt ∧ offAnchor f = false ∧ offByte f < spreadBytes c.call false (chunkSize c.group c.call k.number s) ∧ bs = (frameBytes f).take (spreadEnd c.group c.call k.number (offStage f) false (offByte f) s - offByte f) ∧ linesStatus (linesOf (stageBase c k 2 + offByte f) bs.length) s = stOk) ∧
    (∃ (g : Fin 256) (epoch : BitVec 8) (n : Nat) (c : Coll) (k : CollChunk) (clean : Bool) (s : State), s.powered = true ∧ findColl g.val epoch.toNat s = some c ∧ findChunk c n = some k ∧ k.sealHeld = false ∧ k.readback = false ∧ k.result = true ∧ chunkOwner c.group c.call n s = myIndex c.group s ∧ s.caravan.early = [] ∧ ((clean = false ∨ linesStatus (linesOf (stageBase c k 2) (resultLen c k s)) s ≠ stOk ∨ crcChunk (resultBytes c k s) ≠ k.crc.toNat)) ∧ k.attempt < 2) ∧
    (∃ (g : Fin 256) (epoch : BitVec 8) (n : Nat) (c : Coll) (k : CollChunk) (clean : Bool) (s : State), s.powered = true ∧ findColl g.val epoch.toNat s = some c ∧ findChunk c n = some k ∧ k.sealHeld = false ∧ k.readback = false ∧ k.result = true ∧ chunkOwner c.group c.call n s = myIndex c.group s ∧ s.caravan.early = [] ∧ ((clean = false ∨ linesStatus (linesOf (stageBase c k 2) (resultLen c k s)) s ≠ stOk ∨ crcChunk (resultBytes c k s) ≠ k.crc.toNat)) ∧ 2 ≤ k.attempt) ∧
    (∃ (g : Fin 256) (epoch : BitVec 8) (n : Nat) (c : Coll) (k : CollChunk) (clean : Bool) (s : State), s.powered = true ∧ findColl g.val epoch.toNat s = some c ∧ findChunk c n = some k ∧ k.sealHeld = false ∧ k.readback = false ∧ k.result = true ∧ chunkOwner c.group c.call n s = myIndex c.group s ∧ s.caravan.early = [] ∧ clean = true ∧ linesStatus (linesOf (stageBase c k 2) (resultLen c k s)) s = stOk ∧ crcChunk (resultBytes c k s) = k.crc.toNat ∧ ((∀ m ∈ c.members, m.status.isSome = true)) ∧ (receivingParts c s).any (fun e => decide (eidPart e ≠ (partId s).toNat)) = true ∧ (receivingParts c s).any (fun e => sealBusy c k e s) = false) ∧
    (∃ (g : Fin 256) (epoch : BitVec 8) (n : Nat) (fa : Nat) (c : Coll) (k : CollChunk) (m : CollMember) (s : State), s.powered = true ∧ findColl g.val epoch.toNat s = some c ∧ s.caravan.colls = [c] ∧ c.chunks = [k] ∧ k.number = n ∧ k.sealHeld = false ∧ k.readback = false ∧ k.result = true ∧ k.owed = [] ∧ k.sealFrom = none ∧ chunkOwner c.group c.call n s = myIndex c.group s ∧ receivingParts c s = [] ∧ c.members = [m] ∧ m.status = none ∧ receives c.group c.call n (rankOf c.group m.li s) s = true ∧ memberChunk c.group c.call n s = m.signalled ∧ s.caravan.early = [] ∧ linesStatus (linesOf (stageBase c k 2) (resultLen c k s)) s = stOk ∧ crcChunk (resultBytes c k s) = k.crc.toNat ∧ (memberFa c m m.signal s).1 = some fa ∧ c.call.op ≠ 6) :=
  ⟨⟨cf tyCollData 77, coll0 call0 [chunk0 [{ step0 with inputs := [{ in0 with invitedAt := some 5, rooms := [7], asked := [(0, 64, 0)] }] }]], chunk0 [{ step0 with inputs := [{ in0 with invitedAt := some 5, rooms := [7], asked := [(0, 64, 0)] }] }], { step0 with inputs := [{ in0 with invitedAt := some 5, rooms := [7], asked := [(0, 64, 0)] }] }, { in0 with invitedAt := some 5, rooms := [7], asked := [(0, 64, 0)] }, 0, 0, 64, slotBytes 77, wgc 1 (coll0 (call0) [chunk0 [{ step0 with inputs := [{ in0 with invitedAt := some 5, rooms := [7], asked := [(0, 64, 0)] }] }]]) w0, by decide +kernel⟩,
    ⟨{ cf tyCollData ((crcChunk (roomsRead [7] 0 64 (wgc 1 (coll0 (call0) [chunk0 [{ step0 with inputs := [{ in0 with invitedAt := some 5, rooms := [7], asked := [(0, 64, 0)], got := [(0, 64)] }] }]]) w0))) % 2^64 + 64 * 2^96) with off := 2^43 }, coll0 call0 [chunk0 [{ step0 with inputs := [{ in0 with invitedAt := some 5, rooms := [7], asked := [(0, 64, 0)], got := [(0, 64)] }] }]], chunk0 [{ step0 with inputs := [{ in0 with invitedAt := some 5, rooms := [7], asked := [(0, 64, 0)], got := [(0, 64)] }] }], { step0 with inputs := [{ in0 with invitedAt := some 5, rooms := [7], asked := [(0, 64, 0)], got := [(0, 64)] }] }, { in0 with invitedAt := some 5, rooms := [7], asked := [(0, 64, 0)], got := [(0, 64)] }, 0, 0, 64, frameBytes ({ cf tyCollData ((crcChunk (roomsRead [7] 0 64 (wgc 1 (coll0 (call0) [chunk0 [{ step0 with inputs := [{ in0 with invitedAt := some 5, rooms := [7], asked := [(0, 64, 0)], got := [(0, 64)] }] }]]) w0))) % 2^64 + 64 * 2^96) with off := 2^43 }), wgc 1 (coll0 (call0) [chunk0 [{ step0 with inputs := [{ in0 with invitedAt := some 5, rooms := [7], asked := [(0, 64, 0)], got := [(0, 64)] }] }]]) w0, by decide +kernel⟩,
    ⟨{ cf tyCollData ((crcChunk (roomsRead [7] 0 64 (wgc 1 (coll0 (call0) [chunk0 [{ step0 with inputs := [{ in0 with invitedAt := some 5, rooms := [7], asked := [(0, 64, 0)], got := [(0, 64)] }] }]]) w0)) + 1) % 2^64 + 64 * 2^96) with off := 2^43 }, coll0 call0 [chunk0 [{ step0 with inputs := [{ in0 with invitedAt := some 5, rooms := [7], asked := [(0, 64, 0)], got := [(0, 64)] }] }]], chunk0 [{ step0 with inputs := [{ in0 with invitedAt := some 5, rooms := [7], asked := [(0, 64, 0)], got := [(0, 64)] }] }], { step0 with inputs := [{ in0 with invitedAt := some 5, rooms := [7], asked := [(0, 64, 0)], got := [(0, 64)] }] }, { in0 with invitedAt := some 5, rooms := [7], asked := [(0, 64, 0)], got := [(0, 64)] }, 0, 0, 64, frameBytes ({ cf tyCollData ((crcChunk (roomsRead [7] 0 64 (wgc 1 (coll0 (call0) [chunk0 [{ step0 with inputs := [{ in0 with invitedAt := some 5, rooms := [7], asked := [(0, 64, 0)], got := [(0, 64)] }] }]]) w0)) + 1) % 2^64 + 64 * 2^96) with off := 2^43 }), wgc 1 (coll0 (call0) [chunk0 [{ step0 with inputs := [{ in0 with invitedAt := some 5, rooms := [7], asked := [(0, 64, 0)], got := [(0, 64)] }] }]]) w0, by decide +kernel⟩,
    ⟨{ cf tyCollData ((crcChunk (roomsRead [7] 0 64 (wgc 1 (coll0 (call0) [chunk0 [{ step0 with inputs := [{ in0 with invitedAt := some 5, rooms := [7], asked := [(0, 64, 0)], got := [(0, 64)], repeats := 3 }] }]]) w0)) + 1) % 2^64 + 64 * 2^96) with off := 2^43 }, coll0 call0 [chunk0 [{ step0 with inputs := [{ in0 with invitedAt := some 5, rooms := [7], asked := [(0, 64, 0)], got := [(0, 64)], repeats := 3 }] }]], chunk0 [{ step0 with inputs := [{ in0 with invitedAt := some 5, rooms := [7], asked := [(0, 64, 0)], got := [(0, 64)], repeats := 3 }] }], { step0 with inputs := [{ in0 with invitedAt := some 5, rooms := [7], asked := [(0, 64, 0)], got := [(0, 64)], repeats := 3 }] }, { in0 with invitedAt := some 5, rooms := [7], asked := [(0, 64, 0)], got := [(0, 64)], repeats := 3 }, 0, 0, 64, frameBytes ({ cf tyCollData ((crcChunk (roomsRead [7] 0 64 (wgc 1 (coll0 (call0) [chunk0 [{ step0 with inputs := [{ in0 with invitedAt := some 5, rooms := [7], asked := [(0, 64, 0)], got := [(0, 64)], repeats := 3 }] }]]) w0)) + 1) % 2^64 + 64 * 2^96) with off := 2^43 }), wgc 1 (coll0 (call0) [chunk0 [{ step0 with inputs := [{ in0 with invitedAt := some 5, rooms := [7], asked := [(0, 64, 0)], got := [(0, 64)], repeats := 3 }] }]]) w0, by decide +kernel⟩,
    ⟨9, 0, ⟨0, 0, false⟩, { coll0 call0 [chunk0 [{ step0 with ran := some [1, 2, 3], inputs := [{ in0 with len := 65536 }] }]] with grant := 1 }, chunk0 [{ step0 with ran := some [1, 2, 3], inputs := [{ in0 with len := 65536 }] }], { step0 with ran := some [1, 2, 3], inputs := [{ in0 with len := 65536 }] }, [1, 2, 3], wgc 1 ({ coll0 call0 [chunk0 [{ step0 with ran := some [1, 2, 3], inputs := [{ in0 with len := 65536 }] }]] with grant := 1 }) w0, by decide +kernel⟩,
    ⟨9, 0, ⟨1, 0, false⟩, coll0 ({ call0 with count := 65536 + 16 }) [{ chunk0 [{ step0 with ran := some [1, 2, 3] }] with number := 1 }], { chunk0 [{ step0 with ran := some [1, 2, 3] }] with number := 1 }, { step0 with ran := some [1, 2, 3] }, [1, 2, 3], wgc 2 (coll0 ({ call0 with count := 65536 + 16 }) [{ chunk0 [{ step0 with ran := some [1, 2, 3] }] with number := 1 }]) w0, by decide +kernel⟩,
    ⟨9, 0, ⟨0, 0, false⟩, { coll0 call0 [chunk0 [{ step0 with ran := some [1, 2, 3], inputs := [{ in0 with len := 65536 }] }]] with grant := 1 }, chunk0 [{ step0 with ran := some [1, 2, 3], inputs := [{ in0 with len := 65536 }] }], { step0 with ran := some [1, 2, 3], inputs := [{ in0 with len := 65536 }] }, [1, 2, 3], wgc 1 ({ coll0 call0 [chunk0 [{ step0 with ran := some [1, 2, 3], inputs := [{ in0 with len := 65536 }] }]] with grant := 1 }) w0, by decide +kernel⟩,
    ⟨9, 0, ⟨0, 0, false⟩, coll0 call0 [chunk0 [{ step0 with ran := some [1, 2, 3] }]], chunk0 [{ step0 with ran := some [1, 2, 3] }], { step0 with ran := some [1, 2, 3] }, [1, 2, 3], wgc 1 (coll0 (call0) [chunk0 [{ step0 with ran := some [1, 2, 3] }]]) w0, by decide +kernel⟩,
    ⟨{ cf tyCollResult 99 with off := 0x2E00002000 }, ⟨0x77, 0, 0, 0, [], 0, [], false⟩, (frameBytes ({ cf tyCollResult 99 with off := 0x2E00002000 })).take (landsLeft ({ cf tyCollResult 99 with off := 0x2E00002000 }) ({ wgc 1 (coll0 (call0) [chunk0 [step0]]) w0 with observe.cairns := [], caravan.landed := [⟨0x77, 0, 0, 0, [], 0, [], false⟩] })), { wgc 1 (coll0 (call0) [chunk0 [step0]]) w0 with observe.cairns := [], caravan.landed := [⟨0x77, 0, 0, 0, [], 0, [], false⟩] }, by decide +kernel⟩,
    ⟨{ cf tyCollResult 99 with off := 0x2E00002000 }, ⟨0x77, 0, 0, 0, [], 5, [], false⟩, (frameBytes ({ cf tyCollResult 99 with off := 0x2E00002000 })).take (landsLeft ({ cf tyCollResult 99 with off := 0x2E00002000 }) ({ wgc 1 (coll0 (call0) [chunk0 [step0]]) w0 with observe.cairns := [], caravan.landed := [⟨0x77, 0, 0, 0, [], 5, [], false⟩] })), { wgc 1 (coll0 (call0) [chunk0 [step0]]) w0 with observe.cairns := [], caravan.landed := [⟨0x77, 0, 0, 0, [], 5, [], false⟩] }, by decide +kernel⟩,
    ⟨{ cf tyCollResult 99 with src := 16 }, coll0 call0 [{ chunk0 [step0] with number := 0 }], { chunk0 [step0] with number := 0 }, (frameBytes ({ cf tyCollResult 99 with src := 16 })).take (spreadEnd 9 call0 0 (offStage ({ cf tyCollResult 99 with src := 16 })) false (offByte ({ cf tyCollResult 99 with src := 16 })) ({ wgc 2 (coll0 call0 [{ chunk0 [step0] with number := 0 }]) w0 with observe.cairns := [] }) - offByte ({ cf tyCollResult 99 with src := 16 })), { wgc 2 (coll0 call0 [{ chunk0 [step0] with number := 0 }]) w0 with observe.cairns := [] }, by decide +kernel⟩,
    ⟨9, 0, 0, coll0 call0 [{ chunk0 [step0] with result := true, crc := BitVec.ofNat 64 (crcChunk (List.replicate 64 0)) }], { chunk0 [step0] with result := true, crc := BitVec.ofNat 64 (crcChunk (List.replicate 64 0)) }, false, wgc 1 (coll0 call0 [{ chunk0 [step0] with result := true, crc := BitVec.ofNat 64 (crcChunk (List.replicate 64 0)) }]) w0, by decide +kernel⟩,
    ⟨9, 0, 0, coll0 call0 [{ chunk0 [step0] with result := true, attempt := 2 }], { chunk0 [step0] with result := true, attempt := 2 }, false, wgc 1 (coll0 call0 [{ chunk0 [step0] with result := true, attempt := 2 }]) w0, by decide +kernel⟩,
    ⟨9, 0, 0, { coll0 call0 [{ chunk0 [step0] with result := true, crc := BitVec.ofNat 64 (crcChunk (List.replicate 64 0)) }] with members := [{ mem0 with status := some 0 }] }, { chunk0 [step0] with result := true, crc := BitVec.ofNat 64 (crcChunk (List.replicate 64 0)) }, true, wgc 2 ({ coll0 call0 [{ chunk0 [step0] with result := true, crc := BitVec.ofNat 64 (crcChunk (List.replicate 64 0)) }] with members := [{ mem0 with status := some 0 }] }) w0, by decide +kernel⟩,
    ⟨9, 0, 0, 0x2E00003000, coll0 call0 [{ chunk0 [step0] with result := true, crc := BitVec.ofNat 64 (crcChunk (List.replicate 64 0)) }], { chunk0 [step0] with result := true, crc := BitVec.ofNat 64 (crcChunk (List.replicate 64 0)) }, mem0, wgc 1 (coll0 call0 [{ chunk0 [step0] with result := true, crc := BitVec.ofNat 64 (crcChunk (List.replicate 64 0)) }]) w0, by decide +kernel⟩⟩

theorem meets_SealsAndVoids :
    (∃ (f : Frame) (s : State), s.powered = true ∧ f.ty = tySeal ∧ collAuth f s = .pass ∧ slotNat f 8 8 ≠ 0 ∧ s.caravan.early = [] ∧ landedOf f s = none ∧ s.caravan.landed.length < 64) ∧
    (∃ (f : Frame) (s : State), s.powered = true ∧ f.ty = tySeal ∧ collAuth f s = .pass ∧ slotNat f 8 8 ≠ 0 ∧ s.caravan.early = [] ∧ landedOf f s = none ∧ 64 ≤ s.caravan.landed.length ∧ ((∀ l ∈ s.caravan.landed, landedSpent l s = false))) ∧
    (∃ (f : Frame) (c : Coll) (k : CollChunk) (s : State), s.powered = true ∧ f.ty = tySeal ∧ collAuth f s = .pass ∧ f.mcast = false ∧ slotNat f 8 8 = 0 ∧ collByTag f.stream f.be.toNat s = some c ∧ chunkAt c f s = .here k ∧ findColl c.group c.epoch s = some c ∧ findChunk c k.number = some k ∧ k.sealFrom = none ∧ c.call.op ≠ 6 ∧ k.number < c.next ∧ s.caravan.early = [] ∧ (k.result = false ∨ crcChunk (resultBytes c k s) ≠ slotNat f 0 8) ∧ k.refused < 3) ∧
    (∃ (f : Frame) (c : Coll) (k : CollChunk) (s : State), s.powered = true ∧ f.ty = tySeal ∧ collAuth f s = .pass ∧ f.mcast = false ∧ slotNat f 8 8 = 0 ∧ collByTag f.stream f.be.toNat s = some c ∧ chunkAt c f s = .here k ∧ findColl c.group c.epoch s = some c ∧ findChunk c k.number = some k ∧ k.sealFrom = none ∧ c.call.op ≠ 6 ∧ k.number < c.next ∧ s.caravan.early = [] ∧ k.result = true ∧ crcChunk (resultBytes c k s) = slotNat f 0 8 ∧ ((∀ m ∈ c.members, m.status.isSome = true))) ∧
    (∃ (f : Frame) (c : Coll) (s : State), s.powered = true ∧ f.ty = tySeal ∧ collAuth f s = .pass ∧ f.mcast = false ∧ slotNat f 8 8 = 0 ∧ collByTag f.stream f.be.toNat s = some c ∧ ((∀ h ∈ s.caravan.early, ripe h s = false)) ∧ chunkAt c f s = .past) ∧
    (∃ (f : Frame) (c : Coll) (s : State), s.powered = true ∧ f.ty = tySeal ∧ collAuth f s = .pass ∧ f.mcast = false ∧ slotNat f 8 8 = 0 ∧ collByTag f.stream f.be.toNat s = some c ∧ ((∀ h ∈ s.caravan.early, ripe h s = false)) ∧ chunkAt c f s = .ahead) ∧
    (∃ (g : Fin 256) (epoch : BitVec 8) (n : Nat) (l : Landed) (f : Frame) (t : Nat) (s : State) (i : Instr) (due : _), s.powered = true ∧ sealWaiting g.val epoch.toNat n s = some (l, f, t) ∧ landedOf f s = some l ∧ (i, due) ∈ [((.sealSignal g epoch n : Instr), l.signalled || decide (slotNat f 16 4 ≤ rangeTotal l.ranges)), (.sealWaitTimeout g epoch n, decide (t + 2000000 ≤ s.clock))] ∧ due = true ∧ l.signalled = true) ∧
    (∃ (g : Fin 256) (epoch : BitVec 8) (n : Nat) (l : Landed) (f : Frame) (t : Nat) (s : State) (i : Instr) (due : _), s.powered = true ∧ sealWaiting g.val epoch.toNat n s = some (l, f, t) ∧ landedOf f s = some l ∧ (i, due) ∈ [((.sealSignal g epoch n : Instr), l.signalled || decide (slotNat f 16 4 ≤ rangeTotal l.ranges)), (.sealWaitTimeout g epoch n, decide (t + 2000000 ≤ s.clock))] ∧ due = true ∧ l.signalled = false ∧ crcChunk (landedBytes l s) = slotNat f 0 8 ∧ rangeTotal l.ranges = slotNat f 16 4 ∧ linesStatus (linesOf (slotNat f 8 8 % 2 ^ 48) 8) s = stOk ∧ s.observe.cairns = []) ∧
    (∃ (g : Fin 256) (epoch : BitVec 8) (n : Nat) (l : Landed) (f : Frame) (t : Nat) (s : State) (i : Instr) (due : _), s.powered = true ∧ sealWaiting g.val epoch.toNat n s = some (l, f, t) ∧ landedOf f s = some l ∧ (i, due) ∈ [((.sealSignal g epoch n : Instr), l.signalled || decide (slotNat f 16 4 ≤ rangeTotal l.ranges)), (.sealWaitTimeout g epoch n, decide (t + 2000000 ≤ s.clock))] ∧ due = true ∧ l.signalled = false ∧ (crcChunk (landedBytes l s) ≠ slotNat f 0 8 ∨ rangeTotal l.ranges ≠ slotNat f 16 4)) ∧
    (∃ (g : Fin 256) (epoch : BitVec 8) (n : Nat) (l : Landed) (f : Frame) (t : Nat) (s : State) (i : Instr) (due : _), s.powered = true ∧ sealWaiting g.val epoch.toNat n s = some (l, f, t) ∧ landedOf f s = some l ∧ (i, due) ∈ [((.sealSignal g epoch n : Instr), l.signalled || decide (slotNat f 16 4 ≤ rangeTotal l.ranges)), (.sealWaitTimeout g epoch n, decide (t + 2000000 ≤ s.clock))] ∧ due = false) ∧
    (∃ (g : Fin 256) (epoch : BitVec 8) (n : Nat) (eid : BitVec 16) (c : Coll) (k : CollChunk) (w : SealWait) (s : State), s.powered = true ∧ findColl g.val epoch.toNat s = some c ∧ findChunk c n = some k ∧ k.seals.find? (fun w => decide (w.eid = eid) && !w.ok) = some w ∧ s.clock < w.sentAt + 5000000) ∧
    (∃ (g : Fin 256) (epoch : BitVec 8) (n : Nat) (eid : BitVec 16) (c : Coll) (k : CollChunk) (w : SealWait) (s : State), s.powered = true ∧ findColl g.val epoch.toNat s = some c ∧ findChunk c n = some k ∧ k.seals.find? (fun w => decide (w.eid = eid) && !w.ok) = some w ∧ w.sentAt + 5000000 ≤ s.clock ∧ s.caravan.early = [] ∧ s.caravan.colls = [c] ∧ c.chunks = [k] ∧ k.sealHeld = false ∧ ((∀ m ∈ c.members, m.status.isSome = true)) ∧ eidPart eid ≠ (partId s).toNat ∧ w.repeats < 3) ∧
    (∃ (g : Fin 256) (epoch : BitVec 8) (n : Nat) (eid : BitVec 16) (c : Coll) (k : CollChunk) (w : SealWait) (s : State), s.powered = true ∧ findColl g.val epoch.toNat s = some c ∧ findChunk c n = some k ∧ k.seals.find? (fun w => decide (w.eid = eid) && !w.ok) = some w ∧ w.sentAt + 5000000 ≤ s.clock ∧ s.caravan.early = [] ∧ s.caravan.colls = [c] ∧ c.chunks = [k] ∧ k.sealHeld = false ∧ ((∀ m ∈ c.members, m.status.isSome = true)) ∧ eidPart eid ≠ (partId s).toNat ∧ 3 ≤ w.repeats) ∧
    (∃ (f : Frame) (l : Landed) (s : State), s.powered = true ∧ f.ty = tyVoid ∧ collAuth f s = .pass ∧ isGroupVoid f = false ∧ f.src = selfEid 0 s ∧ landedOf f s = some l ∧ s.caravan.early = []) ∧
    (∃ (f : Frame) (c : Coll) (k : CollChunk) (s : State), s.powered = true ∧ f.ty = tyVoid ∧ collAuth f s = .pass ∧ isGroupVoid f = false ∧ f.src ≠ selfEid 0 s ∧ f.mcast = false ∧ collByTag f.stream f.be.toNat s = some c ∧ chunkAt c f s = .here k ∧ findColl c.group c.epoch s = some c ∧ findChunk c k.number = some k ∧ s.caravan.early = [] ∧ k.voided < slotNat f 20 1 + 1) ∧
    (∃ (f : Frame) (c : Coll) (s : State), s.powered = true ∧ f.ty = tyVoid ∧ collAuth f s = .pass ∧ isGroupVoid f = true ∧ f.src ≠ selfEid 0 s ∧ ((∀ e ∈ s.tgt.arrived, e.2.ty ≠ tySeal)) ∧ collByTag f.stream f.be.toNat s = some c ∧ s.caravan.early = []) :=
  ⟨⟨cf tySeal (5 + 0x2E00003000 * 2^64 + 2 * 2^128), { w0 with caravan.landed := [] }, by decide +kernel⟩,
    ⟨cf tySeal (5 + 0x2E00003000 * 2^64 + 2 * 2^128), { wgc 1 (coll0 (call0) [chunk0 [step0]]) w0 with caravan.landed := List.replicate 64 ⟨0x77, 0, 3, 0, [], 0, [], false⟩ }, by decide +kernel⟩,
    ⟨cf tySeal 5, coll0 call0 [chunk0 [step0]], chunk0 [step0], wgc 1 (coll0 (call0) [chunk0 [step0]]) w0, by decide +kernel⟩,
    ⟨cf tySeal (crcChunk (List.replicate 64 0)), { coll0 call0 [{ chunk0 [step0] with result := true, crc := BitVec.ofNat 64 (crcChunk (List.replicate 64 0)) }] with members := [{ mem0 with status := some 0 }] }, { chunk0 [step0] with result := true, crc := BitVec.ofNat 64 (crcChunk (List.replicate 64 0)) }, wgc 1 ({ coll0 call0 [{ chunk0 [step0] with result := true, crc := BitVec.ofNat 64 (crcChunk (List.replicate 64 0)) }] with members := [{ mem0 with status := some 0 }] }) w0, by decide +kernel⟩,
    ⟨cf tySeal 5, { coll0 call0 [] with next := 1 }, wgc 1 ({ coll0 call0 [] with next := 1 }) w0, by decide +kernel⟩,
    ⟨cf tySeal 5, { coll0 call0 [] with next := 0 }, wgc 1 ({ coll0 call0 [] with next := 0 }) w0, by decide +kernel⟩,
    ⟨9, 0, 0, ⟨0x77, 0, 0, 0, [(0x2E00002000, 2)], 0, [(cf tySeal (5 + 0x2E00003000 * 2^64 + 2 * 2^128), 0)], true⟩, cf tySeal (5 + 0x2E00003000 * 2^64 + 2 * 2^128), 0, { wgr 1 w0 with caravan.landed := [⟨0x77, 0, 0, 0, [(0x2E00002000, 2)], 0, [(cf tySeal (5 + 0x2E00003000 * 2^64 + 2 * 2^128), 0)], true⟩], observe.cairns := [], clock := 0 }, (.sealSignal 9 0 0 : Instr), true, by decide +kernel⟩,
    ⟨9, 0, 0, ⟨0x77, 0, 0, 0, [(0x2E00002000, 2)], 0, [(cf tySeal (crcChunk [0, 0] % 2^64 + 0x2E00003000 * 2^64 + 2 * 2^128), 0)], false⟩, cf tySeal (crcChunk [0, 0] % 2^64 + 0x2E00003000 * 2^64 + 2 * 2^128), 0, { wgr 1 w0 with caravan.landed := [⟨0x77, 0, 0, 0, [(0x2E00002000, 2)], 0, [(cf tySeal (crcChunk [0, 0] % 2^64 + 0x2E00003000 * 2^64 + 2 * 2^128), 0)], false⟩], observe.cairns := [], clock := 0 }, (.sealSignal 9 0 0 : Instr), true, by decide +kernel⟩,
    ⟨9, 0, 0, ⟨0x77, 0, 0, 0, [(0x2E00002000, 2)], 0, [(cf tySeal (5 + 0x2E00003000 * 2^64 + 2 * 2^128), 0)], false⟩, cf tySeal (5 + 0x2E00003000 * 2^64 + 2 * 2^128), 0, { wgr 1 w0 with caravan.landed := [⟨0x77, 0, 0, 0, [(0x2E00002000, 2)], 0, [(cf tySeal (5 + 0x2E00003000 * 2^64 + 2 * 2^128), 0)], false⟩], observe.cairns := [], clock := 0 }, (.sealSignal 9 0 0 : Instr), true, by decide +kernel⟩,
    ⟨9, 0, 0, ⟨0x77, 0, 0, 0, [(0x2E00002000, 2)], 0, [(cf tySeal (5 + 0x2E00003000 * 2^64 + 2 * 2^128), 0)], false⟩, cf tySeal (5 + 0x2E00003000 * 2^64 + 2 * 2^128), 0, { wgr 1 w0 with caravan.landed := [⟨0x77, 0, 0, 0, [(0x2E00002000, 2)], 0, [(cf tySeal (5 + 0x2E00003000 * 2^64 + 2 * 2^128), 0)], false⟩], observe.cairns := [], clock := 1999999 }, (.sealWaitTimeout 9 0 0 : Instr), false, by decide +kernel⟩,
    ⟨9, 0, 0, 0, coll0 call0 [{ chunk0 [step0] with result := true, readback := true, seals := [⟨0, 0, 2, false⟩] }], { chunk0 [step0] with result := true, readback := true, seals := [⟨0, 0, 2, false⟩] }, ⟨0, 0, 2, false⟩, { wgc 1 (coll0 (call0) [{ chunk0 [step0] with result := true, readback := true, seals := [⟨0, 0, 2, false⟩] }]) w0 with clock := 4999999 }, by decide +kernel⟩,
    ⟨9, 0, 0, 16, { coll0 call0 [{ chunk0 [step0] with result := true, readback := true, seals := [⟨16, 0, 2, false⟩] }] with members := [{ mem0 with status := some 0 }] }, { chunk0 [step0] with result := true, readback := true, seals := [⟨16, 0, 2, false⟩] }, ⟨16, 0, 2, false⟩, { wgc 2 ({ coll0 call0 [{ chunk0 [step0] with result := true, readback := true, seals := [⟨16, 0, 2, false⟩] }] with members := [{ mem0 with status := some 0 }] }) w0 with clock := 5000000 }, by decide +kernel⟩,
    ⟨9, 0, 0, 16, { coll0 call0 [{ chunk0 [step0] with result := true, readback := true, seals := [⟨16, 0, 3, false⟩] }] with members := [{ mem0 with status := some 0 }] }, { chunk0 [step0] with result := true, readback := true, seals := [⟨16, 0, 3, false⟩] }, ⟨16, 0, 3, false⟩, { wgc 2 ({ coll0 call0 [{ chunk0 [step0] with result := true, readback := true, seals := [⟨16, 0, 3, false⟩] }] with members := [{ mem0 with status := some 0 }] }) w0 with clock := 5000000 }, by decide +kernel⟩,
    ⟨cf tyVoid (0 * 2^160), ⟨0x77, 0, 0, 0, [(0x2E00002000, 2)], 2, [], false⟩, { w0 with caravan.landed := [⟨0x77, 0, 0, 0, [(0x2E00002000, 2)], 2, [], false⟩] }, by decide +kernel⟩,
    ⟨{ cf tyVoid (3 * 2^160) with src := 16 }, coll0 call0 [chunk0 [step0]], chunk0 [step0], wgc 2 (coll0 call0 [chunk0 [step0]]) w0, by decide +kernel⟩,
    ⟨{ cf tyVoid (3 * 2^160 + 0x19 * 2^168) with src := 16, seq := 2^22 - 1 }, coll0 call0 [chunk0 [step0]], wgc 2 (coll0 call0 [chunk0 [step0]]) w0, by decide +kernel⟩⟩

theorem meets_RouteRuns :
    (∃ (q : Fin 512) (d : DescEx) (s : State), s.powered = true ∧ nextToStart q.val s = some d ∧ (s.power.oos = false ∨ qPart q.val s = 0) ∧ checkDesc (qEngine q.val s) (qPart q.val s) d.raw = stOk ∧ dOp d.raw = opRoute ∧ ((∀ r ∈ s.array.runs, r.queue ≠ q)) ∧ ropeShadow s = false) ∧
    (∃ (q : Fin 512) (d : DescEx) (s : State) (off : Nat) (fa : Nat), s.powered = true ∧ nextToStart q.val s = some d ∧ (s.power.oos = false ∨ qPart q.val s = 0) ∧ checkDesc (qEngine q.val s) (qPart q.val s) d.raw = stOk ∧ dOp d.raw = opPreload ∧ routeAt q.val (dfield d.raw 8 8) .r s = .at_ off fa) ∧
    (∃ (q : Fin 512) (d : DescEx) (s : State) (st : Byte), s.powered = true ∧ nextToStart q.val s = some d ∧ (s.power.oos = false ∨ qPart q.val s = 0) ∧ checkDesc (qEngine q.val s) (qPart q.val s) d.raw = stOk ∧ dOp d.raw = opPreload ∧ routeAt q.val (dfield d.raw 8 8) .r s = .bad st) ∧
    (∃ (r : RunRec) (s : State), s.powered = true ∧ firstWaiting s = some r ∧ inReset .ary s = false ∧ 64 * r.stripes ≤ roomsUnderMax (holderOf r.part s) s ∧ 64 * r.stripes ≤ roomsFreeTo (holderOf r.part s) s ∧ ((∀ c ∈ s.caravan.colls, collWantsRooms c s = true → r.admitted < c.admitted.getD 0)) ∧ ((∀ k ∈ List.range 64, r.stripes ≤ (freeStripes k s).length))) ∧
    (∃ (r : RunRec) (s : State), s.powered = true ∧ firstWaiting s = some r ∧ (roomsFreeTo (holderOf r.part s) s < 64 * r.stripes ∨ roomsUnderMax (holderOf r.part s) s < 64 * r.stripes ∨ inReset .ary s = true ∨ (∃ c ∈ s.caravan.colls, collWantsRooms c s = true ∧ c.admitted.getD 0 ≤ r.admitted))) ∧
    (∃ (q : Fin 512) (r : RunRec) (s : State), s.powered = true ∧ runIn q .filling s = some r ∧ r.loadIn = false) ∧
    (∃ (q : Fin 512) (r : RunRec) (s : State) (off : Nat) (fa : Nat) (s₁ : State), s.powered = true ∧ runIn q .filling s = some r ∧ r.loadIn = true ∧ runPlace r r.roomSrc .c s = (.at_ off fa, s₁) ∧ ((∀ l ∈ linesOf off (r.rooms.length * 32768), lineStatus l s₁ = stOk ∧ softWords l s₁ = [] ∧ tagErrs l s₁ = 0))) ∧
    (∃ (q : Fin 512) (r : RunRec) (s : State) (s₁ : State), s.powered = true ∧ runIn q .filling s = some r ∧ r.loadIn = true ∧ runPlace r r.roomSrc .c s = (.miss, s₁)) ∧
    (∃ (q : Fin 512) (r : RunRec) (s : State) (off : Nat) (fa : Nat) (s₁ : State), s.powered = true ∧ runIn q .saving s = some r ∧ roomsBad r.rooms s = false ∧ runPlace r r.roomDst .w s = (.at_ off fa, s₁) ∧ linesStatus (linesOf off (r.rooms.length * 32768)) s₁ = stOk ∧ s.observe.cairns = []) ∧
    (∃ (q : Fin 512) (r : RunRec) (s : State), s.powered = true ∧ runIn q .saving s = some r ∧ roomsBad r.rooms s = true) :=
  ⟨⟨3, dRun, wimg 0 (wm (wq 0 2 [dRun] { w0 with array.runs := [] })), by decide +kernel⟩,
    ⟨3, fd (mkDesc opPreload 0 [(8, 0x2E00100000)]), wm (wq 0 2 [fd (mkDesc opPreload 0 [(8, 0x2E00100000)])] w0), 0x2E00100000, 0x2E00100000, by decide +kernel⟩,
    ⟨3, fd (mkDesc opPreload 0 [(8, 0x10002E00100000)]), wm (wq 0 2 [fd (mkDesc opPreload 0 [(8, 0x10002E00100000)])] w0), stMalformed, by decide +kernel⟩,
    ⟨{ run0 with phase := .rooms, stripes := 0 }, wrun .rooms { run0 with stripes := 0 } { w0 with array.rooms := [] }, by decide +kernel⟩,
    ⟨{ run0 with phase := .rooms, stripes := 1 }, putReg (rRoomQuota 0) 0x14001400 (wrun .rooms { run0 with stripes := 1 } { w0 with array.rooms := [] }), by decide +kernel⟩,
    ⟨3, { run0 with phase := .filling }, wrun .filling run0 w0, by decide +kernel⟩,
    ⟨3, { run0 with phase := .filling, stripes := 1, rooms := [5], loadIn := true, roomSrc := 0x2E40000000 }, put8 0x2E40000000 7 (wrun .filling { run0 with stripes := 1, rooms := [5], loadIn := true, roomSrc := 0x2E40000000 } w0), 0x2E40000000, 0x2E40000000, put8 0x2E40000000 7 (wrun .filling { run0 with stripes := 1, rooms := [5], loadIn := true, roomSrc := 0x2E40000000 } w0), by decide +kernel, by decide +kernel, by decide +kernel, by decide +kernel, fun l _ => lineStatus_clean l _ (by rfl) (by rfl)⟩,
    ⟨3, { run0 with phase := .filling, part := 7, stripes := 1, rooms := [5], loadIn := true, roomSrc := 0x40000000 }, putReg (rQcfg 3) (BitVec.ofNat 64 (2 ^ 63 + 7 * 2 ^ 48 + 2 ^ 40 + 2 * 2 ^ 34)) (wrun .filling ({ run0 with phase := .filling, part := 7, stripes := 1, rooms := [5], loadIn := true, roomSrc := 0x40000000 }) w0), (runPlace ({ run0 with phase := .filling, part := 7, stripes := 1, rooms := [5], loadIn := true, roomSrc := 0x40000000 }) 0x40000000 .c (putReg (rQcfg 3) (BitVec.ofNat 64 (2 ^ 63 + 7 * 2 ^ 48 + 2 ^ 40 + 2 * 2 ^ 34)) (wrun .filling ({ run0 with phase := .filling, part := 7, stripes := 1, rooms := [5], loadIn := true, roomSrc := 0x40000000 }) w0))).2, by decide +kernel⟩,
    ⟨3, { run0 with phase := .saving, rooms := [5], roomDst := 0x2E40000000 }, { wrun .saving { run0 with rooms := [5], roomDst := 0x2E40000000 } w0 with array.rooms := tblSet 0 w0.array.rooms 5 65 }, 0x2E40000000, 0x2E40000000, { wrun .saving { run0 with rooms := [5], roomDst := 0x2E40000000 } w0 with array.rooms := tblSet 0 w0.array.rooms 5 65 }, by decide +kernel, by decide +kernel, by decide +kernel, by decide +kernel, linesStatus_clean _ _ (by rfl) (by rfl), by decide +kernel⟩,
    ⟨3, { run0 with phase := .saving, rooms := [5], roomDst := 0x2E40000000 }, { wrun .saving { run0 with rooms := [5], roomDst := 0x2E40000000 } w0 with array.rooms := tblSet 0 w0.array.rooms 5 65, array.badSlices := [160] }, by decide +kernel⟩⟩

/-- A plane being loaded from an image whose records are all zero. -/
def wload (crc : Nat) : State :=
  { wimg 5 w0 with array.planeA := plane0, array.planeB := { plane0 with fa := 0x2E00100000, crc := crc }, array.shadow := 1 }

/-- The chunk CRC of that image's records. -/
def wcrc : Nat := crcChunk (readMem (wimg 5 w0) (0x2E00100000 + 4096) (imageBytes - 4096))

theorem wload_crc (c : Nat) : (shadowPlane (wload c)).crc = c := rfl

theorem wload_fa (c : Nat) : (shadowPlane (wload c)).fa % 2 ^ 48 = 0x2E00100000 := rfl

theorem wload_mem (c a n : Nat) : readMem (wload c) a n = readMem (wimg 5 w0) a n := rfl

theorem wload_above (c : Nat) : ∀ e ∈ (wload c).mem, e.1 < 0x2E00101000 := by
  have h : ∀ e ∈ (wimg 5 w0).mem, e.1 < 0x2E00101000 := by decide +kernel
  exact h

theorem wload_records : recordsGood ((shadowPlane (wload wcrc)).fa % 2 ^ 48) (shadowPlane (wload wcrc)).crc (wload wcrc) = true := by
  have h := recordsGood_blank 0x2E00100000 0x2E00101000 (wload wcrc) (by rfl) (by rfl) (by rfl) (wload_above wcrc)
    (Nat.le_refl _)
  rw [wload_mem] at h
  rw [wload_fa, wload_crc]
  exact h

theorem meets_RunsAndPlanes :
    (∃ (x : Ready) (s : State) (r : _), s.powered = true ∧ s.array.current = none ∧ arrayHeld s = false ∧ inReset .ary s = false ∧ compStopped 5 s = false ∧ ropeShadow s = false ∧ firstReady (readyRuns s) = some x ∧ refusedRun x s = none ∧ (serves (activePlane s) x.fa x.crc = true ∨ (s.array.shadow = 2 ∧ serves (shadowPlane s) x.fa x.crc = true)) ∧ runOfId x.id s = some r) ∧
    (∃ (x : Ready) (s : State), s.powered = true ∧ s.array.current = none ∧ arrayHeld s = false ∧ inReset .ary s = false ∧ compStopped 5 s = false ∧ ropeShadow s = false ∧ firstReady (readyRuns s) = some x ∧ refusedRun x s = none ∧ (serves (activePlane s) x.fa x.crc = true ∨ (s.array.shadow = 2 ∧ serves (shadowPlane s) x.fa x.crc = true)) ∧ serves (activePlane s) x.fa x.crc = true) ∧
    (∃ (x : Ready) (s : State), s.powered = true ∧ s.array.current = none ∧ arrayHeld s = false ∧ inReset .ary s = false ∧ compStopped 5 s = false ∧ ropeShadow s = false ∧ firstReady (readyRuns s) = some x ∧ refusedRun x s = none ∧ (serves (activePlane s) x.fa x.crc = true ∨ (s.array.shadow = 2 ∧ serves (shadowPlane s) x.fa x.crc = true)) ∧ serves (activePlane s) x.fa x.crc = false) ∧
    (∃ (x : Ready) (s : State) (r : _), s.powered = true ∧ s.array.current = none ∧ arrayHeld s = false ∧ inReset .ary s = false ∧ compStopped 5 s = false ∧ ropeShadow s = false ∧ firstReady (readyRuns s) = some x ∧ refusedRun x s = some r) ∧
    (∃ (s : State), s.powered = true ∧ (s.array.current ≠ none ∨ arrayHeld s = true ∨ inReset .ary s = true ∨ compStopped 5 s = true ∨ (ropeShadow s = false ∧ readyRuns s = []))) ∧
    (∃ (q : Fin 512) (i : BitVec 32) (r : RunRec) (s : State), s.powered = true ∧ s.array.current = some (.route q i) ∧ currentRun s = some r ∧ s.rope.capture = none ∧ loopPasses r s ≤ s.array.pass ∧ s.array.pipe = [] ∧ s.array.outQ = [] ∧ r.saveOut = true ∧ r.status = stOk) ∧
    (∃ (q : Fin 512) (i : BitVec 32) (r : RunRec) (s : State), s.powered = true ∧ s.array.current = some (.route q i) ∧ currentRun s = some r ∧ s.rope.capture = none ∧ r.early = false ∧ (s.array.pass < loopPasses r s ∨ s.array.pipe ≠ [] ∨ s.array.outQ ≠ [])) ∧
    (∃ (s : State), s.powered = true ∧ (s.array.current = none ∨ s.clock < s.array.runAt + 1000000 * s.array.limitMs)) ∧
    (∃ (t : LoadTarget) (s : State) (s₁ : State), s.powered = true ∧ shadowTarget s = some t ∧ inReset .ary s = false ∧ shadowHolds t.fa t.crc s = false ∧ serves (activePlane s) t.fa t.crc = false ∧ (t.who.isSome = true ∨ s.array.shadow ≠ 1) ∧ loadPlace t s = (none, s₁)) ∧
    (∃ (t : LoadTarget) (s : State) (fa : Nat) (crc : Nat) (s₁ : State) (p : _), s.powered = true ∧ shadowTarget s = some t ∧ inReset .ary s = false ∧ shadowHolds t.fa t.crc s = false ∧ serves (activePlane s) t.fa t.crc = false ∧ (t.who.isSome = true ∨ s.array.shadow ≠ 1) ∧ loadPlace t s = (some fa, s₁) ∧ crc = hdCrc (fa % 2 ^ 48) s₁ ∧ p = { plane0 with fa := fa, crc := crc, part := t.part, pages := t.image.bind (fun a => namedPages t.part a s₁) } ∧ shadowHolds fa crc s₁ = false ∧ serves (activePlane s₁) fa crc = false ∧ (stepImage fa s₁ = true ∨ headerGood (fa % 2 ^ 48) (libraryPlace p s₁) s₁ = true)) ∧
    (∃ (s : State), s.powered = true ∧ (shadowTarget s = none ∨ inReset .ary s = true)) ∧
    (∃ (p : Plane) (s : State), s.powered = true ∧ s.array.shadow = 1 ∧ p = shadowPlane s ∧ stepImage p.fa s = false ∧ headerGood (p.fa % 2 ^ 48) (libraryPlace p s) s = true ∧ recordsGood (p.fa % 2 ^ 48) p.crc s = true) ∧
    (∃ (p : Plane) (s : State), s.powered = true ∧ s.array.shadow = 1 ∧ p = shadowPlane s ∧ stepImage p.fa s = true) ∧
    (∃ (s : State), s.powered = true ∧ s.array.shadow ≠ 1) :=
  ⟨⟨⟨.route 3 0, 0, 0x2E00100000, 5, 0, some 0x2E00100000, 2 ^ 40 + 3⟩, wrun .ready run0 w0, { run0 with phase := .ready }, by decide +kernel⟩,
    ⟨⟨.route 3 0, 0, 0x2E00100000, 5, 0, some 0x2E00100000, 2 ^ 40 + 3⟩, wrun .ready run0 w0, by decide +kernel⟩,
    ⟨⟨.route 3 0, 0, 0x2E00100000, 5, 0, some 0x2E00100000, 2 ^ 40 + 3⟩, { wrun .ready run0 w0 with array.planeA := plane0, array.planeB := plane5, array.shadow := 2 }, by decide +kernel⟩,
    ⟨⟨.route 3 0, 0, 0x2E00100000, 5, 0, some 0x2E00100000, 2 ^ 40 + 3⟩, wrun .ready { run0 with status := stMalformed } w0, { run0 with phase := .ready, status := stMalformed }, by decide +kernel⟩,
    ⟨wrun1 run0 w0, by decide +kernel⟩,
    ⟨3, 0, { run0 with phase := .running, saveOut := true, rooms := [5] }, { wrun1 { run0 with saveOut := true, rooms := [5] } w0 with array.pass := 1 }, by decide +kernel⟩,
    ⟨3, 0, { run0 with phase := .running }, wrun1 run0 w0, by decide +kernel⟩,
    ⟨wrun1 run0 { w0 with clock := 999999999 }, by decide +kernel⟩,
    ⟨⟨some (.route 3 0), 0, some 0x10002E00100000, 0x2E00100000, 5⟩, { wrun .ready { run0 with image := 0x10002E00100000 } w0 with array.planeA := plane0 }, (loadPlace ⟨some (.route 3 0), 0, some 0x10002E00100000, 0x2E00100000, 5⟩ ({ wrun .ready { run0 with image := 0x10002E00100000 } w0 with array.planeA := plane0 })).2, by decide +kernel⟩,
    ⟨⟨some (.route 3 0), 0, some 0x2E00100000, 0x2E00100000, 5⟩, { wimg 5 (wrun .ready run0 w0) with array.planeA := plane0 }, 0x2E00100000, 5, { wimg 5 (wrun .ready run0 w0) with array.planeA := plane0 }, { plane0 with fa := 0x2E00100000, crc := 5, part := 0, pages := none }, by decide +kernel⟩,
    ⟨{ w0 with array.runs := [] }, by decide +kernel⟩,
    ⟨_, wload wcrc, by rfl, by rfl, rfl, by decide +kernel, by decide +kernel, wload_records⟩,
    ⟨{ plane0 with fa := libraryFa 5 w0, crc := 0 }, { wgc 1 (coll0 call0 [chunk0 [{ step0 with inputs := [{ in0 with invitedAt := some 0, arrived := some 1 }] }]]) w0 with array.planeA := plane0, array.activeB := false, array.planeB := { plane0 with fa := libraryFa 5 w0, crc := 0 }, array.shadow := 1 }, by decide +kernel⟩,
    ⟨wrun1 run0 w0, by decide +kernel⟩⟩

theorem meets_CellsIssue :
    (∃ (cell : Fin 4096) (r : RunRec) (i : Word) (s : State) (c : Instr) (op : Nat) (f : CellIn → Vec), s.powered = true ∧ currentRun s = some r ∧ inRope s = false ∧ issueStopped s = false ∧ inReset .ary s = false ∧ swActive (cellSwitch (activePlane s) cell.val) = true ∧ cell.val ∉ s.array.issued ∧ s.array.pass < loopPasses r s ∧ arrayStalls r s = false ∧ cellSlot (activePlane s) cell.val s.array.slot = i ∧ slotLive i s.array.pass r.passes = true ∧ (c, op, f) ∈ [((.mov cell : Instr), oMov, fun (x : CellIn) => x.a), (.oplus cell, oOplus, cellOplus), (.otimes cell, oOtimes, cellOtimes), (.mac cell, oMac, cellMac), (.dot cell, oDot, cellDot), (.sub cell, oSub, cellSub), (.cmpsel cell, oCmpsel, cellCmpsel), (.logic cell, oLogic, cellLogic), (.shift cell, oShift, cellShift), (.cmp cell, oCmp, cellCmp), (.sel cell, oSel, cellSel), (.perm cell, oPerm, cellPerm), (.cvt cell, oCvt, cellCvt), (.anchor cell, oAnchor, cellAnchor), (.tofix cell, oTofix, cellTofix), (.fromfix cell, oFromfix, cellFromfix), (.scale cell, oScale, cellScale), (.rand cell, oRand, cellRand), (.setidx cell, oSetidx, fun x => BitVec.ofNat 128 (wordIndex x.a)), (.ldi cell, oLdi, cellLdi), (.hred cell, oHred, cellHred)] ∧ slOp i = op) ∧
    (∃ (cell : Fin 4096) (r : RunRec) (i : Word) (s : State), s.powered = true ∧ currentRun s = some r ∧ issueStopped s = false ∧ inReset .ary s = false ∧ swActive (cellSwitch (activePlane s) cell.val) = true ∧ cell.val ∉ s.array.issued ∧ s.array.pass < loopPasses r s ∧ arrayStalls r s = false ∧ cellSlot (activePlane s) cell.val s.array.slot = i ∧ (slotLive i s.array.pass r.passes = false ∨ slOp i = oNop)) ∧
    (∃ (cell : Fin 4096) (s : State) (c : Instr) (op : Nat), s.powered = true ∧ (c, op) ∈ [((.cellNop cell : Instr), oNop), (.mov cell, oMov), (.oplus cell, oOplus), (.otimes cell, oOtimes), (.mac cell, oMac), (.dot cell, oDot), (.sub cell, oSub), (.cmpsel cell, oCmpsel), (.logic cell, oLogic), (.shift cell, oShift), (.cmp cell, oCmp), (.sel cell, oSel), (.perm cell, oPerm), (.cvt cell, oCvt), (.anchor cell, oAnchor), (.tofix cell, oTofix), (.fromfix cell, oFromfix), (.scale cell, oScale), (.rand cell, oRand), (.setidx cell, oSetidx), (.ldi cell, oLdi), (.hred cell, oHred)] ∧ ((currentRun s = none ∨ issueStopped s = true ∨ swActive (cellSwitch (activePlane s) cell.val) = false ∨ cell.val ∈ s.array.issued ∨ ∃ r i, currentRun s = some r ∧ i = cellSlot (activePlane s) cell.val s.array.slot ∧ (loopPasses r s ≤ s.array.pass ∨ (if slotLive i s.array.pass r.passes then slOp i else oNop) ≠ op ∨ outputFull s = true ∨ ∃ j x, inRope s = false ∧ x = cellSlot (activePlane s) j s.array.slot ∧ swActive (cellSwitch (activePlane s) j) = true ∧ s.array.pass < loopPasses r s ∧ slotLive x s.array.pass r.passes = true ∧ j ∉ s.array.issued ∧ opColBus ∈ sources x ∧ tblGet [] s.array.inFifo j = [])))) :=
  ⟨⟨70, { run0 with stripes := 1, rooms := (List.range 64).map (fun k => 80 * k + 9), args := [11, 12], phase := .running }, slot0 oMov 0 0 0 0 5 1 2 3 0 0, wcell (slot0 oMov 0 0 0 0 5 1 2 3 0 0) w0, .mov 70, oMov, fun x => x.a, by decide +kernel, by decide +kernel, by decide +kernel, by decide +kernel, by decide +kernel, by decide +kernel, by decide +kernel, by decide +kernel, by decide +kernel, by decide +kernel, by decide +kernel, .head _, by decide +kernel⟩,
    ⟨70, { run0 with stripes := 1, rooms := (List.range 64).map (fun k => 80 * k + 9), args := [11, 12], phase := .running }, slot0 oNop 0 0 0 0 5 1 2 3 0 0, wcell (slot0 oNop 0 0 0 0 5 1 2 3 0 0) w0, by decide +kernel⟩,
    ⟨70, w0, .mov 70, oMov, by decide +kernel, by decide +kernel, .inl (by decide +kernel)⟩⟩

theorem meets_CellArithmetic :
    (∃ (x : CellIn) (j : Nat), x.f = .int32 ∧ x.w = 32 ∧ x.r = .plusTimes ∧ j < 4 ∧ slAux x.i = 0) ∧
    (∃ (x : CellIn) (j : Nat), x.f = .int32 ∧ x.w = 32 ∧ x.r = .plusTimes ∧ j < 4 ∧ slAux x.i = 2) ∧
    (∃ (x : CellIn) (j : Nat), (x.w = 4 ∨ x.w = 8 ∨ x.w = 16 ∨ x.w = 32 ∨ x.w = 64) ∧ j < laneCount x.w ∧ slAux x.i = 0) ∧
    (∃ (x : CellIn) (j : Nat), (x.w = 4 ∨ x.w = 8 ∨ x.w = 16 ∨ x.w = 32 ∨ x.w = 64) ∧ j < laneCount x.w ∧ slAux x.i = 1) ∧
    (∃ (x : CellIn) (j : Nat), (x.w = 4 ∨ x.w = 8 ∨ x.w = 16 ∨ x.w = 32 ∨ x.w = 64) ∧ j < laneCount x.w ∧ slAux x.i = 2) ∧
    (∃ (x : CellIn) (k : Nat), x.f = .int32 ∧ k < 2 ∧ slAux x.i < 2) ∧
    (∃ (x : CellIn), slAux x.i = 0) ∧
    (∃ (x : CellIn), slAux x.i = 3) ∧
    (∃ (x : CellIn), slAux x.i = 4) :=
  ⟨⟨⟨slot0 oCmp 0 0 0 0 5 1 2 3 0 0, .int32, 32, .plusTimes, 0xFFFFFFFF00000001800000007FFFFFFF, 0x00000001FFFFFFFF80000001FFFFFFFE, 0x12345678000000000000000100000000, 0, 0, 0, 0⟩, 0, by decide +kernel⟩,
    ⟨⟨slot0 oCmp 0 0 0 0 5 1 2 3 2 16383, .int32, 32, .plusTimes, 0xFFFFFFFF00000001800000007FFFFFFF, 0x00000001FFFFFFFF80000001FFFFFFFE, 0x12345678000000000000000100000000, 0, 0, 0, 0⟩, 0, by decide +kernel⟩,
    ⟨⟨slot0 oSel 0 0 0 0 5 1 2 3 0 5, .int32, 4, .plusTimes, 0xFFFFFFFF00000001800000007FFFFFFF, 0x00000001FFFFFFFF80000001FFFFFFFE, 0x12345678000000000000000100000000, 0, 0, 0, 0⟩, 0, by decide +kernel⟩,
    ⟨⟨slot0 oSel 0 0 0 0 5 1 2 3 1 5, .int32, 4, .plusTimes, 0xFFFFFFFF00000001800000007FFFFFFF, 0x00000001FFFFFFFF80000001FFFFFFFE, 0x12345678000000000000000100000000, 0, 0, 0, 0⟩, 0, by decide +kernel⟩,
    ⟨⟨slot0 oSel 0 0 0 0 5 1 2 3 2 5, .int32, 4, .plusTimes, 0xFFFFFFFF00000001800000007FFFFFFF, 0x00000001FFFFFFFF80000001FFFFFFFE, 0x12345678000000000000000100000000, 0, 0, 0, 0⟩, 0, by decide +kernel⟩,
    ⟨⟨slot0 oCmpsel 0 0 0 0 5 1 2 3 0 0, .int32, 32, .plusTimes, 0xFFFFFFFF00000001800000007FFFFFFF, 0x00000001FFFFFFFF80000001FFFFFFFE, 0x12345678000000000000000100000000, 0, 0, 0, 0⟩, 0, by decide +kernel⟩,
    ⟨⟨slot0 oLogic 0 0 0 0 5 1 2 3 0 0, .int32, 32, .plusTimes, 0xFFFFFFFF00000001800000007FFFFFFF, 0x00000001FFFFFFFF80000001FFFFFFFE, 0x12345678000000000000000100000000, 0, 0, 0, 0⟩, by decide +kernel⟩,
    ⟨⟨slot0 oLogic 0 0 0 0 5 1 2 3 3 0, .int32, 32, .plusTimes, 0xFFFFFFFF00000001800000007FFFFFFF, 0x00000001FFFFFFFF80000001FFFFFFFE, 0x12345678000000000000000100000000, 0, 0, 0, 0⟩, by decide +kernel⟩,
    ⟨⟨slot0 oLogic 0 0 0 0 5 1 2 3 4 0, .int32, 32, .plusTimes, 0xFFFFFFFF00000001800000007FFFFFFF, 0x00000001FFFFFFFF80000001FFFFFFFE, 0x12345678000000000000000100000000, 0, 0, 0, 0⟩, by decide +kernel⟩⟩

theorem meets_ResultsAndColumnBuses :
    (∃ (r : RunRec) (s : State), s.powered = true ∧ currentRun s = some r ∧ inReset .ary s = false ∧ stallCycle r s = true) ∧
    (∃ (r : RunRec) (s : State), s.powered = true ∧ currentRun s = some r ∧ inReset .ary s = false ∧ stallCycle r s = false ∧ s.array.pass < loopPasses r s ∧ s.array.issued.length < (activePlane s).active) ∧
    (∃ (r : RunRec) (s : State), s.powered = true ∧ currentRun s = some r ∧ inReset .ary s = false ∧ stallCycle r s = false ∧ ((s.array.pass < loopPasses r s → (activePlane s).active ≤ s.array.issued.length)) ∧ s.array.pass < loopPasses r s ∧ s.array.slot + 1 < (activePlane s).loop) ∧
    (∃ (r : RunRec) (s : State), s.powered = true ∧ currentRun s = some r ∧ inReset .ary s = false ∧ stallCycle r s = false ∧ ((s.array.pass < loopPasses r s → (activePlane s).active ≤ s.array.issued.length)) ∧ s.array.pass < loopPasses r s ∧ (activePlane s).loop ≤ s.array.slot + 1) ∧
    (∃ (s : State), s.powered = true ∧ (currentRun s = none ∨ inReset .ary s = true)) ∧
    (∃ (cell : Fin 4096) (r : RunRec) (a : Nat) (s : State), s.powered = true ∧ currentRun s = some r ∧ inReset .ary s = false ∧ inRope s = false ∧ r.status ≠ stFault ∧ a = r.inAt + 16 * s.array.inNext ∧ a + 16 ≤ pageEnd r.part r.inAt s ∧ (cell.val ≠ s.array.inNext % 4096 ∨ 8 ≤ (tblGet [] s.array.inFifo cell.val).length)) ∧
    (∃ (cell : Fin 4096) (r : RunRec) (a : Nat) (s : State), s.powered = true ∧ currentRun s = some r ∧ inReset .ary s = false ∧ inRope s = false ∧ r.status ≠ stFault ∧ a = r.inAt + 16 * s.array.inNext ∧ pageEnd r.part r.inAt s < a + 16 ∧ stallsOnInput r cell.val s = true ∧ r.status = stOk) ∧
    (∃ (cell : Fin 4096) (r : RunRec) (v : Vec) (t : List Vec) (a : Nat) (s : State), s.powered = true ∧ currentRun s = some r ∧ inReset .ary s = false ∧ inRope s = false ∧ tblGet [] s.array.outQ cell.val = v :: t ∧ a = r.outAt + 16 * s.array.outNext ∧ cell.val = s.array.outNext % 4096 ∧ r.status = stOk ∧ pageEnd r.part r.outAt s < a + 16) ∧
    (∃ (cell : Fin 4096) (r : RunRec) (v : Vec) (t : List Vec) (a : Nat) (s : State), s.powered = true ∧ currentRun s = some r ∧ inReset .ary s = false ∧ inRope s = false ∧ tblGet [] s.array.outQ cell.val = v :: t ∧ a = r.outAt + 16 * s.array.outNext ∧ cell.val ≠ s.array.outNext % 4096) ∧
    (∃ (cell : Fin 4096) (inward : Bool) (s : State), s.powered = true ∧ (currentRun s = none ∨ inReset .ary s = true ∨ (inward = false ∧ tblGet [] s.array.outQ cell.val = []))) :=
  ⟨⟨{ run0 with stripes := 1, rooms := (List.range 64).map (fun k => 80 * k + 9), args := [11, 12], phase := .running }, { wcell (slot0 oMov 0 0 0 0 5 1 2 3 0 0) w0 with array.pipe := [⟨70, 0, 0x45, 0, 97, 0, 0⟩], array.issued := [70], array.planeA.switch := [(70, (2 ^ 192 + 2 ^ 32 : Nat))], array.outQ := [(70, [1,2,3,4,5,6,7,8])] }, by decide +kernel⟩,
    ⟨{ run0 with stripes := 1, rooms := (List.range 64).map (fun k => 80 * k + 9), args := [11, 12], phase := .running }, { wcell (slot0 oMov 0 0 0 0 5 1 2 3 0 0) w0 with array.issued := [] }, by decide +kernel⟩,
    ⟨{ run0 with stripes := 1, rooms := (List.range 64).map (fun k => 80 * k + 9), args := [11, 12], phase := .running }, { wcell (slot0 oMov 0 0 0 0 5 1 2 3 0 0) w0 with array.issued := [70], array.pipe := [⟨70, 0, 5, 0, 99, 0, 0⟩, ⟨70, 0, 0x42, 0, 98, 0, 0⟩, ⟨70, 0, 0x44, 0, 97, 0, 0⟩, ⟨70, 0, 6, 0, 96, 0, 7⟩], array.cycle := 3, array.planeA.loop := 2 }, by decide +kernel⟩,
    ⟨{ run0 with stripes := 1, rooms := (List.range 64).map (fun k => 80 * k + 9), args := [11, 12], phase := .running }, { wcell (slot0 oMov 0 0 0 0 5 1 2 3 0 0) w0 with array.issued := [70], array.pipe := [⟨70, 0, 5, 0, 99, 0, 0⟩, ⟨70, 0, 0x42, 0, 98, 0, 0⟩, ⟨70, 0, 0x44, 0, 97, 0, 0⟩, ⟨70, 0, 6, 0, 96, 0, 7⟩], array.cycle := 3, array.busNext := [(1, 2, 0x88)] }, by decide +kernel⟩,
    ⟨w0, by decide +kernel⟩,
    ⟨70, { run0 with stripes := 1, rooms := (List.range 64).map (fun k => 80 * k + 9), args := [11, 12], phase := .running }, 0x2E00500000 + 16 * 71, { wcell (slot0 oMov 0 0 0 0 5 1 2 3 0 0) w0 with array.inNext := 71 }, by decide +kernel⟩,
    ⟨70, { { run0 with stripes := 1, rooms := (List.range 64).map (fun k => 80 * k + 9), args := [11, 12], phase := .running } with inAt := 0x2E3FFFFC00, outAt := 0x2E3FFFFC00 }, 0x2E3FFFFC00 + 16 * 70, { wcell (slot0 oMov 0 0 0 0 5 0x45 2 3 0 0) w0 with array.inNext := 70, array.inFifo := [], array.runs := [{ { run0 with stripes := 1, rooms := (List.range 64).map (fun k => 80 * k + 9), args := [11, 12], phase := .running } with inAt := 0x2E3FFFFC00, outAt := 0x2E3FFFFC00 }] }, by decide +kernel⟩,
    ⟨70, { { run0 with stripes := 1, rooms := (List.range 64).map (fun k => 80 * k + 9), args := [11, 12], phase := .running } with inAt := 0x2E3FFFFC00, outAt := 0x2E3FFFFC00 }, 9, [8], 0x2E3FFFFC00 + 16 * 70, { wcell (slot0 oMov 0 0 0 0 5 1 2 3 0 0) w0 with array.outNext := 70, array.outQ := [(70, [9, 8])], array.runs := [{ { run0 with stripes := 1, rooms := (List.range 64).map (fun k => 80 * k + 9), args := [11, 12], phase := .running } with inAt := 0x2E3FFFFC00, outAt := 0x2E3FFFFC00 }] }, by decide +kernel⟩,
    ⟨70, { run0 with stripes := 1, rooms := (List.range 64).map (fun k => 80 * k + 9), args := [11, 12], phase := .running }, 9, [8], 0x2E00600000 + 16 * 71, { wcell (slot0 oMov 0 0 0 0 5 1 2 3 0 0) w0 with array.outNext := 71, array.outQ := [(70, [9, 8])] }, by decide +kernel⟩,
    ⟨70, true, w0, by decide +kernel⟩⟩

theorem meets_RopePairs :
    (∃ (side : Side) (v : Word) (s : State), s.powered = true ∧ gate side bKPR false .kpr s = .go ∧ anyActive s = true ∧ wbit v 0 ≠ getBit rKprMode 0 s) ∧
    (∃ (side : Side) (v : Word) (s : State), s.powered = true ∧ gate side bDBG false .ary s = .go ∧ s.rope.paired = true ∧ wbit v 63 = true) ∧
    (∃ (peer : Word) (s : State), s.powered = true ∧ s.rope.paired = false ∧ inReset .ary s = false ∧ ropeMatches peer s = true ∧ ropeConsent s = true) ∧
    (∃ (peer : Word) (b : Bool) (s : State), s.powered = true ∧ (b = false ∨ ropeMatches peer s = false ∨ ropeConsent s = false ∨ s.rope.paired = true)) ∧
    (∃ (side : Side) (s : State), s.powered = true ∧ gate side bDBG false .ary s = .go ∧ s.rope.held = true) ∧
    (∃ (side : Side) (s : State), s.powered = true ∧ gate side bDBG false .ary s = .go ∧ s.rope.held = false) ∧
    (∃ (s : State), s.powered = true ∧ ropeShadow s = true) ∧
    (∃ (s : State), s.powered = true ∧ ropeShadow s = false) :=
  ⟨⟨.host, 1, withRegs [(rKprMode, 0)] (wp 0 w0), by decide +kernel⟩,
    ⟨.host, 0xE015012300000000, { w0 with rope.paired := true, rope.capture := none }, by decide +kernel⟩,
    ⟨BitVec.ofNat 64 (2^63 + 9 * 2^48 + 0 * 2^32), withRegs [(rPrtCfg 7, BitVec.ofNat 64 (2 * 2 ^ 56)), (rRopeCfg, BitVec.ofNat 64 (2 ^ 63 + 2 ^ 62 + 7 * 2 ^ 48 + 0x123 * 2 ^ 32))] { w0 with rope.paired := false, tenant.slots := [], links := tblSet link0 w0.links 7 { link0 with st := .active, partnerPart := 0x123, partnerPort := 9 } }, by decide +kernel⟩,
    ⟨0, true, { w0 with rope.paired := false }, by decide +kernel⟩,
    ⟨.host, { w0 with rope.held := true }, by decide +kernel⟩,
    ⟨.host, { w0 with rope.held := false }, by decide +kernel⟩,
    ⟨withRegs [(rRopeCfg, BitVec.ofNat 64 (2 ^ 62))] { w0 with rope.paired := true }, by decide +kernel⟩,
    ⟨{ w0 with rope.paired := false }, by decide +kernel⟩⟩

theorem meets_RopeMismatch :
    (∃ (crc : Word) (c : RopeChunk) (t : List RopeChunk) (s : State), s.powered = true ∧ s.rope.crcs = c :: t ∧ s.rope.paired = true ∧ (c.crc = crc ∨ s.rope.armed = false ∨ s.rope.capture ≠ none)) ∧
    (∃ (crc : Word) (c : RopeChunk) (t : List RopeChunk) (s : State), s.powered = true ∧ s.rope.crcs = c :: t ∧ s.rope.paired = true ∧ c.crc ≠ crc ∧ s.rope.armed = true ∧ s.rope.capture = none) ∧
    (∃ (crc : Word) (c : RopeChunk) (t : List RopeChunk) (s : State), s.powered = true ∧ s.rope.crcs = c :: t ∧ s.rope.paired = true ∧ c.crc ≠ crc ∧ s.rope.armed = true ∧ s.rope.capture = none ∧ s.array.current = none) ∧
    (∃ (crc : Word) (c : RopeChunk) (t : List RopeChunk) (s : State), s.powered = true ∧ s.rope.crcs = c :: t ∧ s.rope.paired = true ∧ (s.array.current ≠ none ∨ c.crc = crc)) ∧
    (∃ (s : State), s.powered = true ∧ s.rope.crcs = []) ∧
    (∃ (sigs : List (BitVec 32)) (c : RopeCapture) (s : State), s.powered = true ∧ s.rope.capture = some c ∧ s.array.current = none ∧ ((∀ j, j < 4096 → cellSig j s = (sigs.getD j 0).toNat))) ∧
    (∃ (s : State), s.powered = true ∧ (s.rope.capture = none ∨ s.array.current ≠ none)) :=
  ⟨⟨6, ⟨1, 2, 5, 3⟩, [], { w0 with rope.crcs := [⟨1, 2, 5, 3⟩], rope.paired := true, rope.armed := false, rope.capture := none, rope.compared := 2^32-1 }, by decide +kernel⟩,
    ⟨5, ⟨1, 2, 5, 3⟩, [], { w0 with rope.crcs := [⟨1, 2, 5, 3⟩], rope.paired := true, rope.armed := true, rope.capture := none, rope.compared := 2^32-1 }, by decide +kernel⟩,
    ⟨5, ⟨1, 2, 5, 3⟩, [], { w0 with rope.crcs := [⟨1, 2, 5, 3⟩], rope.paired := true, rope.armed := true, rope.capture := none, rope.compared := 2^32-1 }, by decide +kernel⟩,
    ⟨6, ⟨1, 2, 5, 3⟩, [], { w0 with rope.crcs := [⟨1, 2, 5, 3⟩], rope.paired := true, rope.armed := true, rope.capture := none, array.current := some .rope }, by decide +kernel⟩,
    ⟨{ w0 with rope.crcs := [] }, by decide +kernel⟩,
    ⟨[], ⟨1, 2, 5, 6, 0, true, false, 0⟩, { w0 with rope.capture := some ⟨1, 2, 5, 6, 0, true, false, 0⟩, array.current := none, array.sigs := [] }, by decide +kernel, by decide +kernel, by decide +kernel, by intro j _; simp [cellSig, runningSig, tblGet]⟩,
    ⟨{ w0 with rope.capture := none }, by decide +kernel⟩⟩

theorem meets_FramesThroughCore :
    (∃ (input : Fin 48) (f : Frame) (x : CoreFrame) (l : List CoreFrame) (s : State), s.powered = true ∧ badFrame f = true ∧ comesUp input.val f s x l ∧ input.val < 36 ∧ x.paid = true) ∧
    (∃ (input : Fin 48) (f : Frame) (m : Frame) (g : Frame) (x : CoreFrame) (l : List CoreFrame) (p : Nat) (grp : Nat) (d : Bool) (s : State), s.powered = true ∧ badFrame f = false ∧ isReplicated f = false ∧ comesUp input.val f s x l ∧ hasCells input.val f s ∧ m = (meterFrame input.val f s).1 ∧ heldAtEntry input.val m s = false ∧ routeTo input.val (eidPart m.dst) m s = .out p grp g d ∧ (redDrops g p s).1 = false ∧ d = true ∧ grp ≠ 0 ∧ eidPart m.dst ∉ s.sw.detoured) ∧
    (∃ (input : Fin 48) (f : Frame) (m : Frame) (g : Frame) (x : CoreFrame) (l : List CoreFrame) (p : Nat) (grp : Nat) (d : Bool) (s : State), s.powered = true ∧ badFrame f = false ∧ isReplicated f = false ∧ comesUp input.val f s x l ∧ hasCells input.val f s ∧ m = (meterFrame input.val f s).1 ∧ heldAtEntry input.val m s = false ∧ routeTo input.val (eidPart m.dst) m s = .out p grp g d ∧ (redDrops g p s).1 = false ∧ (d = false ∨ grp = 0 ∨ eidPart m.dst ∈ s.sw.detoured)) ∧
    (∃ (input : Fin 48) (f : Frame) (x : CoreFrame) (l : List CoreFrame) (r : Replicas) (s : State), s.powered = true ∧ badFrame f = false ∧ isReplicated f = true ∧ comesUp input.val f s x l ∧ hasCells input.val f s ∧ heldAtEntry input.val f s = false ∧ replicate input.val f s = r ∧ r.lost ≠ 0) ∧
    (∃ (input : Fin 48) (f : Frame) (x : CoreFrame) (l : List CoreFrame) (r : Replicas) (s : State), s.powered = true ∧ badFrame f = false ∧ isReplicated f = true ∧ comesUp input.val f s x l ∧ hasCells input.val f s ∧ heldAtEntry input.val f s = false ∧ replicate input.val f s = r ∧ r.hops = true) ∧
    (∃ (input : Fin 48) (f : Frame) (x : CoreFrame) (l : List CoreFrame) (r : Replicas) (s : State), s.powered = true ∧ badFrame f = false ∧ isReplicated f = true ∧ comesUp input.val f s x l ∧ hasCells input.val f s ∧ heldAtEntry input.val f s = false ∧ replicate input.val f s = r ∧ r.copies = []) ∧
    (∃ (input : Fin 48) (f : Frame) (m : Frame) (x : CoreFrame) (l : List CoreFrame) (st : Byte) (ur : Bool) (h : Bool) (s : State), s.powered = true ∧ badFrame f = false ∧ isReplicated f = false ∧ comesUp input.val f s x l ∧ hasCells input.val f s ∧ m = (meterFrame input.val f s).1 ∧ heldAtEntry input.val m s = false ∧ f.ty ≠ tyCollData ∧ f.ty ≠ tyCollResult ∧ f.ty ≠ tyRoomCall ∧ f.ty ≠ tySeal ∧ f.ty ≠ tyVoid ∧ routeTo input.val (eidPart m.dst) m s = .answered st ur h ∧ ur = true) ∧
    (∃ (input : Fin 48) (f : Frame) (m : Frame) (x : CoreFrame) (l : List CoreFrame) (st : Byte) (ur : Bool) (h : Bool) (s : State), s.powered = true ∧ badFrame f = false ∧ isReplicated f = false ∧ comesUp input.val f s x l ∧ hasCells input.val f s ∧ m = (meterFrame input.val f s).1 ∧ heldAtEntry input.val m s = false ∧ f.ty ≠ tyCollData ∧ f.ty ≠ tyCollResult ∧ f.ty ≠ tyRoomCall ∧ f.ty ≠ tySeal ∧ f.ty ≠ tyVoid ∧ routeTo input.val (eidPart m.dst) m s = .answered st ur h ∧ h = true) ∧
    (∃ (input : Fin 48) (f : Frame) (m : Frame) (x : CoreFrame) (l : List CoreFrame) (s : State), s.powered = true ∧ badFrame f = false ∧ comesUp input.val f s x l ∧ hasCells input.val f s ∧ m = (meterFrame input.val f s).1 ∧ heldAtEntry input.val m s = true) ∧
    (∃ (input : Fin 48) (f : Frame) (y : CoreFrame) (s : State), s.powered = true ∧ firstWaiting? input.val f.cls s = some y ∧ y.frame ≠ f) ∧
    (∃ (input : Fin 48) (f : Frame) (s : State), s.powered = true ∧ badFrame f = false ∧ ¬ hasCells input.val f s ∧ firstWaiting? input.val f.cls s = none) ∧
    (∃ (o : Fin 48) (c : BitVec 3) (i : Nat) (e : Buffered) (s : State), s.powered = true ∧ ((∀ x ∈ s.sw.buf, x.output = some o.val → queueHead x.input x.output x.frame.cls s = some x → outlived x s = false)) ∧ nextClass o.val s = some c ∧ nextRound (tblGet 0 s.sw.lastInput (8 * o.val + c.toNat)) (readyInputs o.val c s) = some i ∧ queueHead i (some o.val) c s = some e ∧ 36 ≤ o.val) ∧
    (∃ (o : Fin 48) (c : BitVec 3) (i : Nat) (e : Buffered) (s : State), s.powered = true ∧ ((∀ x ∈ s.sw.buf, x.output = some o.val → queueHead x.input x.output x.frame.cls s = some x → outlived x s = false)) ∧ nextClass o.val s = some c ∧ nextRound (tblGet 0 s.sw.lastInput (8 * o.val + c.toNat)) (readyInputs o.val c s) = some i ∧ queueHead i (some o.val) c s = some e ∧ o.val < 36) ∧
    (∃ (o : Fin 48) (s : State), s.powered = true ∧ ((∀ x ∈ s.sw.buf, x.output = some o.val → queueHead x.input x.output x.frame.cls s = some x → outlived x s = false)) ∧ ((∀ c, readyInputs o.val c s = [])) ∧ (36 ≤ o.val ∨ linkTalks o.val s = false ∨ flitRoom o.val 1 s = false ∨ creditField o.val s = 0 ∧ (linkOf o.val s).ackDue = 0 ∧ (linkOf o.val s).nak = false)) ∧
    (∃ (o : Fin 48) (s : State), s.powered = true ∧ ((∀ x ∈ s.sw.buf, x.output = some o.val → queueHead x.input x.output x.frame.cls s = some x → outlived x s = false)) ∧ ((∀ c, readyInputs o.val c s = [])) ∧ o.val < 36 ∧ linkTalks o.val s = true ∧ flitRoom o.val 1 s = true ∧ creditField o.val s ≠ 0) ∧
    (∃ (pos : Nat) (e : Buffered) (s : State), s.powered = true ∧ s.sw.buf[pos]? = some e ∧ queueHead e.input e.output e.frame.cls s = some e ∧ outlived e s = true ∧ e.copy = true) ∧
    (∃ (pos : Nat) (e : Buffered) (s : State), s.powered = true ∧ s.sw.buf[pos]? = some e ∧ queueHead e.input e.output e.frame.cls s = some e ∧ outlived e s = true ∧ e.copy = false) ∧
    (∃ (pos : Nat) (e : Buffered) (s : State), s.powered = true ∧ s.sw.buf[pos]? = some e ∧ (queueHead e.input e.output e.frame.cls s ≠ some e ∨ outlived e s = false)) :=
  ⟨⟨7, { fl 0 with crcOk := false }, (⟨7, 0, 0, true, { fl 0 with crcOk := false }⟩ : CoreFrame), [], { w0 with sw.buf := [], sw.coreIn := [⟨7, 0, 0, true, { fl 0 with crcOk := false }⟩], clock := 5 }, by unfold comesUp; decide +kernel⟩,
    ⟨40, fl 144, fl 144, (match routeTo 40 (eidPart (fl 144).dst) (fl 144) (({ { wl { link0 with st := .active } (withRegs [(rRteEntry 9, BitVec.ofNat 64 (2^15 + 1 + 2 * 2^8))] w0) with img.groups := tblSet 0 w0.img.groups 7 2, links := [(7, { link0 with st := .active, width := 8 })] } with sw.buf := [], sw.coreIn := [⟨40, 0, 0, true, fl 144⟩], clock := 5 } : State)) with | .out p g f d => (p, g, f, d) | _ => (0, 0, f0, false)).2.2.1, (⟨40, 0, 0, true, fl 144⟩ : CoreFrame), [], (match routeTo 40 (eidPart (fl 144).dst) (fl 144) (({ { wl { link0 with st := .active } (withRegs [(rRteEntry 9, BitVec.ofNat 64 (2^15 + 1 + 2 * 2^8))] w0) with img.groups := tblSet 0 w0.img.groups 7 2, links := [(7, { link0 with st := .active, width := 8 })] } with sw.buf := [], sw.coreIn := [⟨40, 0, 0, true, fl 144⟩], clock := 5 } : State)) with | .out p g f d => (p, g, f, d) | _ => (0, 0, f0, false)).1, (match routeTo 40 (eidPart (fl 144).dst) (fl 144) (({ { wl { link0 with st := .active } (withRegs [(rRteEntry 9, BitVec.ofNat 64 (2^15 + 1 + 2 * 2^8))] w0) with img.groups := tblSet 0 w0.img.groups 7 2, links := [(7, { link0 with st := .active, width := 8 })] } with sw.buf := [], sw.coreIn := [⟨40, 0, 0, true, fl 144⟩], clock := 5 } : State)) with | .out p g f d => (p, g, f, d) | _ => (0, 0, f0, false)).2.1, true, (({ { wl { link0 with st := .active } (withRegs [(rRteEntry 9, BitVec.ofNat 64 (2^15 + 1 + 2 * 2^8))] w0) with img.groups := tblSet 0 w0.img.groups 7 2, links := [(7, { link0 with st := .active, width := 8 })] } with sw.buf := [], sw.coreIn := [⟨40, 0, 0, true, fl 144⟩], clock := 5 } : State)), by unfold comesUp hasCells; decide +kernel⟩,
    ⟨40, fl 0, fl 0, (match routeTo 40 (eidPart (fl 0).dst) (fl 0) (({ w0 with sw.buf := [], sw.coreIn := [⟨40, 0, 0, true, fl 0⟩], clock := 5 } : State)) with | .out p g f d => (p, g, f, d) | _ => (0, 0, f0, false)).2.2.1, (⟨40, 0, 0, true, fl 0⟩ : CoreFrame), [], (match routeTo 40 (eidPart (fl 0).dst) (fl 0) (({ w0 with sw.buf := [], sw.coreIn := [⟨40, 0, 0, true, fl 0⟩], clock := 5 } : State)) with | .out p g f d => (p, g, f, d) | _ => (0, 0, f0, false)).1, (match routeTo 40 (eidPart (fl 0).dst) (fl 0) (({ w0 with sw.buf := [], sw.coreIn := [⟨40, 0, 0, true, fl 0⟩], clock := 5 } : State)) with | .out p g f d => (p, g, f, d) | _ => (0, 0, f0, false)).2.1, false, (({ w0 with sw.buf := [], sw.coreIn := [⟨40, 0, 0, true, fl 0⟩], clock := 5 } : State)), by unfold comesUp hasCells; decide +kernel⟩,
    ⟨40, { f0 with ty := tyMgmt, cls := clMgmt, mcast := true, src := 5, seq := 9, hop := 0, mslot := BitVec.ofNat 256 (1 + 2 ^ 96 * (1*256+1*16+1)) }, (⟨40, 0, 0, true, { f0 with ty := tyMgmt, cls := clMgmt, mcast := true, src := 5, seq := 9, hop := 0, mslot := BitVec.ofNat 256 (1 + 2 ^ 96 * (1*256+1*16+1)) }⟩ : CoreFrame), [], replicate 40 ({ f0 with ty := tyMgmt, cls := clMgmt, mcast := true, src := 5, seq := 9, hop := 0, mslot := BitVec.ofNat 256 (1 + 2 ^ 96 * (1*256+1*16+1)) }) (({ w0 with sw.buf := [], sw.coreIn := [⟨40, 0, 0, true, { f0 with ty := tyMgmt, cls := clMgmt, mcast := true, src := 5, seq := 9, hop := 0, mslot := BitVec.ofNat 256 (1 + 2 ^ 96 * (1*256+1*16+1)) }⟩], clock := 5 } : State)), (({ w0 with sw.buf := [], sw.coreIn := [⟨40, 0, 0, true, { f0 with ty := tyMgmt, cls := clMgmt, mcast := true, src := 5, seq := 9, hop := 0, mslot := BitVec.ofNat 256 (1 + 2 ^ 96 * (1*256+1*16+1)) }⟩], clock := 5 } : State)), by unfold comesUp hasCells; decide +kernel⟩,
    ⟨40, { f0 with ty := tyMgmt, cls := clMgmt, mcast := true, src := 5, seq := 9, hop := 63, mslot := BitVec.ofNat 256 (2 ^ 64 + 2 ^ 80 * 1 + 2 ^ 88 * 2) }, (⟨40, 0, 0, true, { f0 with ty := tyMgmt, cls := clMgmt, mcast := true, src := 5, seq := 9, hop := 63, mslot := BitVec.ofNat 256 (2 ^ 64 + 2 ^ 80 * 1 + 2 ^ 88 * 2) }⟩ : CoreFrame), [], replicate 40 ({ f0 with ty := tyMgmt, cls := clMgmt, mcast := true, src := 5, seq := 9, hop := 63, mslot := BitVec.ofNat 256 (2 ^ 64 + 2 ^ 80 * 1 + 2 ^ 88 * 2) }) (({ w0 with sw.buf := [], sw.coreIn := [⟨40, 0, 0, true, { f0 with ty := tyMgmt, cls := clMgmt, mcast := true, src := 5, seq := 9, hop := 63, mslot := BitVec.ofNat 256 (2 ^ 64 + 2 ^ 80 * 1 + 2 ^ 88 * 2) }⟩], clock := 5 } : State)), (({ w0 with sw.buf := [], sw.coreIn := [⟨40, 0, 0, true, { f0 with ty := tyMgmt, cls := clMgmt, mcast := true, src := 5, seq := 9, hop := 63, mslot := BitVec.ofNat 256 (2 ^ 64 + 2 ^ 80 * 1 + 2 ^ 88 * 2) }⟩], clock := 5 } : State)), by unfold comesUp hasCells; decide +kernel⟩,
    ⟨40, { f0 with ty := tyMgmt, cls := clMgmt, mcast := true, src := 5, seq := 9, hop := 0, mslot := BitVec.ofNat 256 (1 + 2 ^ 96 * (1*256+1*16+1)) }, (⟨40, 0, 0, true, { f0 with ty := tyMgmt, cls := clMgmt, mcast := true, src := 5, seq := 9, hop := 0, mslot := BitVec.ofNat 256 (1 + 2 ^ 96 * (1*256+1*16+1)) }⟩ : CoreFrame), [], replicate 40 ({ f0 with ty := tyMgmt, cls := clMgmt, mcast := true, src := 5, seq := 9, hop := 0, mslot := BitVec.ofNat 256 (1 + 2 ^ 96 * (1*256+1*16+1)) }) (({ w0 with sw.buf := [], sw.coreIn := [⟨40, 0, 0, true, { f0 with ty := tyMgmt, cls := clMgmt, mcast := true, src := 5, seq := 9, hop := 0, mslot := BitVec.ofNat 256 (1 + 2 ^ 96 * (1*256+1*16+1)) }⟩], clock := 5 } : State)), (({ w0 with sw.buf := [], sw.coreIn := [⟨40, 0, 0, true, { f0 with ty := tyMgmt, cls := clMgmt, mcast := true, src := 5, seq := 9, hop := 0, mslot := BitVec.ofNat 256 (1 + 2 ^ 96 * (1*256+1*16+1)) }⟩], clock := 5 } : State)), by unfold comesUp hasCells; decide +kernel⟩,
    ⟨40, fl 144, fl 144, (⟨40, 0, 0, true, fl 144⟩ : CoreFrame), [], stUnreachable, true, false, { withRegs [(rRteEntry 9, 0)] w0 with sw.buf := [], sw.coreIn := [⟨40, 0, 0, true, fl 144⟩], clock := 5 }, by unfold comesUp hasCells; decide +kernel⟩,
    ⟨40, { fl 144 with hop := 63 }, { fl 144 with hop := 63 }, (⟨40, 0, 0, true, { fl 144 with hop := 63 }⟩ : CoreFrame), [], stUnreachable, true, true, { w0 with sw.buf := [], sw.coreIn := [⟨40, 0, 0, true, { fl 144 with hop := 63 }⟩], clock := 5 }, by unfold comesUp hasCells; decide +kernel⟩,
    ⟨40, fl 144, fl 144, (⟨40, 0, 0, true, fl 144⟩ : CoreFrame), [], { withRegs [(rRteEntry 9, BitVec.ofNat 64 (2^15 + 2^16))] w0 with sw.buf := [], sw.coreIn := [⟨40, 0, 0, true, fl 144⟩], clock := 5 }, by unfold comesUp hasCells; decide +kernel⟩,
    ⟨40, fl 16, (⟨40, 0, 0, true, fl 0⟩ : CoreFrame), { w0 with sw.buf := [], sw.coreIn := [⟨40, 0, 0, true, fl 0⟩], clock := 5 }, by decide +kernel⟩,
    ⟨40, fl 0, { withRegs [(rSwcClassCfg clReq.toNat, 0)] w0 with sw.buf := [⟨40, some 7, 0, 0, fl 0, 0, 0, List.range 9, 0, true, false, false, false⟩], sw.coreIn := [] }, by unfold hasCells; decide +kernel⟩,
    ⟨40, clReq, 40, bu (some 40) (fl 0), wbuf (bu (some 40) (fl 0)) { w0 with clock := 5, tgt.comb := [] }, by decide +kernel⟩,
    ⟨7, clReq, 40, bu (some 7) (fl 144), wbuf (bu (some 7) (fl 144)) { wl { link0 with st := .active, width := 8 } w0 with credit := [(16 * 7 + 2, 9)] }, by decide +kernel⟩,
    ⟨40, { w0 with sw.buf := [] }, by decide +kernel⟩,
    ⟨7, { wl { link0 with st := .active, width := 8 } w0 with sw.buf := [], owed := [(16 * 7 + 2, 70), (16 * 7 + 4, 9)] }, by decide +kernel⟩,
    ⟨0, { bu (some 7) (fl 144) with copy := true }, wbuf ({ bu (some 7) (fl 144) with copy := true }) { w0 with clock := 2000001 }, by decide +kernel⟩,
    ⟨0, bu (some 7) (fl 144), wbuf (bu (some 7) (fl 144)) { w0 with clock := 2000001 }, by decide +kernel⟩,
    ⟨0, bu (some 7) (fl 144), wbuf (bu (some 7) (fl 144)) { w0 with clock := 3 }, by decide +kernel⟩⟩

theorem meets_AuditAndMaps :
    (∃ (s : State), s.powered = true ∧ tblWf bufCell0 s.sw.cells = true) ∧
    (∃ (s : State), s.powered = true ∧ (now s).toNat % 10000 = 0) ∧
    (∃ (s : State), s.powered = true ∧ (now s).toNat % 10000 ≠ 0) ∧
    (∃ (side : Side) (s : State), s.powered = true ∧ gate side bSWC false .pwr s = .go ∧ s.sw.snap = .no) ∧
    (∃ (side : Side) (s : State), s.powered = true ∧ gate side bSWC false .pwr s = .go ∧ s.sw.snap ≠ .no) ∧
    (∃ (s : State), s.powered = true ∧ (now s).toNat % 10000 = 0 ∧ s.sw.snap ≠ .no) :=
  ⟨⟨{ w0 with sw.cells := [(0, ⟨true, 1, false⟩), (1, ⟨false, 1, true⟩), (2, ⟨false, 0, false⟩), (3, ⟨false, 0, true⟩)] }, by decide +kernel⟩,
    ⟨wbuf (bu (some 7) (fl 144)) { w0 with timeBase := 0 }, by decide +kernel⟩,
    ⟨{ w0 with timeBase := 10001 }, by decide +kernel⟩,
    ⟨.host, { w0 with sw.snap := .no }, by decide +kernel⟩,
    ⟨.host, { w0 with sw.snap := .snap }, by decide +kernel⟩,
    ⟨{ w0 with timeBase := 20000, sw.snap := .snap, sw.cmaps := [(3, { cmap0 with samples := 4 })] }, by decide +kernel⟩⟩

theorem meets_SwitchRegisters :
    (∃ (side : Side) (c : Fin 8) (v : Word) (n : Nat) (s : State), s.powered = true ∧ gate side bSWC false .pwr s = .go ∧ (List.range 8).foldl (fun n i => n + (if i = c.val then max 9 (wfield v 7 0) else classRsv i s)) 0 = n ∧ getBit rSwcStatus 63 s = true) ∧
    (∃ (side : Side) (s : State), s.powered = true ∧ gate side bSWC false .pwr s = .go) ∧
    (∃ (side : Side) (s : State), s.powered = true ∧ gate side bSWC false .pwr s = .go) ∧
    (∃ (side : Side) (s : State), s.powered = true ∧ gate side bSWC false .pwr s = .go) ∧
    (∃ (side : Side) (s : State), s.powered = true ∧ gate side bRTE false .pwr s = .go) ∧
    (∃ (s : State), s.powered = true ∧ s.sw.draining = true ∧ anyHold s = true ∧ inFlight s = 0) ∧
    (∃ (s : State), s.powered = true ∧ (s.sw.draining = false ∨ anyHold s = false ∨ inFlight s ≠ 0)) :=
  ⟨⟨.host, 0, 0x0000100000400040, (List.range 8).foldl (fun n i => n + (if i = 0 then max 9 (wfield (0x0000100000400040 : Word) 7 0) else classRsv i (withRegs ([(rSwcStatus, 0x8000000000000000)] ++ (List.range 8).map (fun c => (rSwcClassCfg c, (9 : Word)))) w0))) 0, withRegs ([(rSwcStatus, 0x8000000000000000)] ++ (List.range 8).map (fun c => (rSwcClassCfg c, (9 : Word)))) w0, by decide +kernel⟩,
    ⟨.host, { w0 with sw.buckets := [(127, ⟨9000000, 9000000, 0⟩)], clock := 10 }, by decide +kernel⟩,
    ⟨.host, w0, by decide +kernel⟩,
    ⟨.host, w0, by decide +kernel⟩,
    ⟨.host, { wl { link0 with st := .active } (withRegs [(rRteEntry 9, BitVec.ofNat 64 (2^15 + 1 + 2 * 2^8))] w0) with img.groups := tblSet 0 w0.img.groups 7 1, sw.buf := [], links := [(7, { link0 with st := .active, width := 8 })] }, by decide +kernel⟩,
    ⟨{ withRegs [(rRteEntry 9, BitVec.ofNat 64 (2^15 + 2^16))] w0 with sw.draining := true, sw.buf := [], links := [] }, by decide +kernel⟩,
    ⟨{ w0 with sw.draining := false }, by decide +kernel⟩⟩

theorem meets_PortTraining :
    (∃ (p : Fin 36) (lanes : Byte) (s : State), s.powered = true ∧ (linkOf p.val s).st = .detect ∧ lowHalf lanes = false ∧ highHalf lanes = false) ∧
    (∃ (p : Fin 36) (table : List (BitVec 128)) (s : State) (c : Instr) (frm : PortState) (onto : PortState) (eq : _), s.powered = true ∧ table = (match eqTable s with | some t => (List.range 8).map (fun l => eqEntry t p.val l (linkOf p.val s).rate160 s) | none => []) ∧ (c, frm, onto, eq) ∈ [((.calibrateDone p : Instr), PortState.calibrate, PortState.align, table), (.alignDone p, .align, .fecLock, (linkOf p.val s).eq), (.fecLockDone p, .fecLock, .deskew, (linkOf p.val s).eq)] ∧ stageOf (linkOf p.val s) ≠ frm) ∧
    (∃ (p : Fin 36) (blocks : List AlignRx) (lanes : Byte) (s : State), s.powered = true ∧ lanes = laneMask (deskewLanes blocks) ∧ (linkOf p.val s).st = .deskew ∧ lowHalf lanes = false ∧ highHalf lanes = false) ∧
    (∃ (p : Fin 36) (blocks : List AlignRx) (lanes : Byte) (s : State), s.powered = true ∧ lanes = laneMask (deskewLanes blocks) ∧ stageOf (linkOf p.val s) ≠ .deskew) ∧
    (∃ (p : Fin 36) (rcd : Slot) (acked : Bool) (both : Byte) (s : State), s.powered = true ∧ (linkOf p.val s).st = .linkInit ∧ (slotByte rcd 4).toNat = bit1 (linkOf p.val s).rate160 ∧ rxMask (linkOf p.val s) &&& slotByte rcd 3 = both ∧ ((linkOf p.val s).initAcked = true ∨ acked = true) ∧ (lowHalf both = true ∨ highHalf both = true) ∧ both ≠ 255) ∧
    (∃ (p : Fin 36) (rcd : Slot) (acked : Bool) (both : Byte) (s : State), s.powered = true ∧ (linkOf p.val s).st = .linkInit ∧ (slotByte rcd 4).toNat = bit1 (linkOf p.val s).rate160 ∧ rxMask (linkOf p.val s) &&& slotByte rcd 3 = both ∧ ((linkOf p.val s).initAcked = true ∨ acked = true) ∧ lowHalf both = false ∧ highHalf both = false) ∧
    (∃ (p : Fin 36) (rcd : Slot) (acked : Bool) (both : Byte) (s : State), s.powered = true ∧ (linkOf p.val s).st = .linkInit ∧ (slotByte rcd 4).toNat = bit1 (linkOf p.val s).rate160 ∧ rxMask (linkOf p.val s) &&& slotByte rcd 3 = both ∧ (linkOf p.val s).initAcked = false ∧ acked = false) ∧
    (∃ (p : Fin 36) (rcd : Slot) (both : Byte) (d : Nat) (s : State), s.powered = true ∧ (linkOf p.val s).st = .retrain ∧ (linkOf p.val s).sub = .linkInit ∧ (slotByte rcd 4).toNat = bit1 (linkOf p.val s).rate160 ∧ rxMask (linkOf p.val s) &&& slotByte rcd 3 = both ∧ d = seqDist (oldestSeq (linkOf p.val s)) (BitVec.ofNat 12 (rcd.toNat / 2 ^ 48)) ∧ rcd.getLsbD 63 = false) ∧
    (∃ (p : Fin 36) (rcd : Slot) (s : State), s.powered = true ∧ (linkOf p.val s).st = .linkInit ∧ (slotByte rcd 4).toNat ≠ bit1 (linkOf p.val s).rate160) ∧
    (∃ (p : Fin 36) (s : State), s.powered = true ∧ stageOf (linkOf p.val s) ≠ .linkInit) ∧
    (∃ (p : Fin 36) (l : Nat) (s : State), s.powered = true ∧ stageLimit (stageOf (linkOf p.val s)) = some l ∧ (linkOf p.val s).stageAt + l ≤ s.clock ∧ (linkOf p.val s).st ≠ .retrain ∧ cfgRate p.val s ≠ 0) ∧
    (∃ (p : Fin 36) (l : Nat) (s : State), s.powered = true ∧ stageLimit (stageOf (linkOf p.val s)) = some l ∧ (linkOf p.val s).stageAt + l ≤ s.clock ∧ (linkOf p.val s).st ≠ .retrain ∧ cfgRate p.val s = 0 ∧ (linkOf p.val s).st = .align ∧ (linkOf p.val s).rate160 = false ∧ (linkOf p.val s).alignFails = 1) ∧
    (∃ (p : Fin 36) (l : Nat) (s : State), s.powered = true ∧ stageLimit (stageOf (linkOf p.val s)) = some l ∧ (linkOf p.val s).stageAt + l ≤ s.clock ∧ (linkOf p.val s).st = .retrain ∧ (linkOf p.val s).fails < 2) ∧
    (∃ (p : Fin 36) (l : Nat) (s : State), s.powered = true ∧ stageLimit (stageOf (linkOf p.val s)) = some l ∧ (linkOf p.val s).stageAt + l ≤ s.clock ∧ (linkOf p.val s).st = .retrain ∧ 2 ≤ (linkOf p.val s).fails) ∧
    (∃ (p : Fin 36) (l : Nat) (s : State), s.powered = true ∧ stageLimit (stageOf (linkOf p.val s)) = some l ∧ s.clock < (linkOf p.val s).stageAt + l) ∧
    (∃ (p : Fin 36) (s : State), s.powered = true ∧ stageLimit (stageOf (linkOf p.val s)) = none) :=
  ⟨⟨7, 0x77, wl { link0 with st := .detect } w0, by decide +kernel⟩,
    ⟨7, (match eqTable ((wl { link0 with st := .detect } w0 : State)) with | some t => (List.range 8).map (fun l => eqEntry t 7 l (linkOf 7 ((wl { link0 with st := .detect } w0 : State))).rate160 ((wl { link0 with st := .detect } w0 : State))) | none => []), ((wl { link0 with st := .detect } w0 : State)), (.calibrateDone 7 : Instr), (.calibrate : PortState), (.align : PortState), (match eqTable ((wl { link0 with st := .detect } w0 : State)) with | some t => (List.range 8).map (fun l => eqEntry t 7 l (linkOf 7 ((wl { link0 with st := .detect } w0 : State))).rate160 ((wl { link0 with st := .detect } w0 : State))) | none => []), by decide +kernel⟩,
    ⟨7, ([(0 : Fin 8), (1 : Fin 8), (2 : Fin 8), (4 : Fin 8), (5 : Fin 8), (6 : Fin 8)].map (fun l => (⟨l, alignBlock l.val 0x77 3 5 6 false, 0⟩ : AlignRx))), (0x77 : Byte), { wl { link0 with st := .deskew, fails := 1 } w0 with clock := 9 }, by decide +kernel⟩,
    ⟨7, ([(0 : Fin 8), (1 : Fin 8), (2 : Fin 8), (3 : Fin 8), (4 : Fin 8), (5 : Fin 8), (6 : Fin 8), (7 : Fin 8)].map (fun l => (⟨l, alignBlock l.val 0xff 3 5 6 false, 0⟩ : AlignRx))), (0xff : Byte), { wl { link0 with st := .detect } w0 with clock := 9 }, by decide +kernel⟩,
    ⟨7, 0x0F000123, false, (0xFF : Byte) &&& slotByte (0x0F000123 : Slot) 3, wl { link0 with st := .linkInit, laneOk := 0xFF, initAcked := true, fails := 2 } w0, by decide +kernel⟩,
    ⟨7, 0x77000123, true, (0xFF : Byte) &&& slotByte (0x77000123 : Slot) 3, wl { link0 with st := .linkInit, laneOk := 0xFF } w0, by decide +kernel⟩,
    ⟨7, 0x0F000123, false, (0xFF : Byte) &&& slotByte (0x0F000123 : Slot) 3, wl { link0 with st := .linkInit, laneOk := 0xFF, initAcked := false, fails := 2 } w0, by decide +kernel⟩,
    ⟨7, 0x800000FF000123, (0xFF : Byte) &&& slotByte (0x800000FF000123 : Slot) 3, seqDist (oldestSeq (linkOf 7 (({ wl { link0 with st := .retrain, sub := .linkInit, laneOk := 0xFF, initAcked := true, fails := 2, fseq := 2, replay := [⟨0, [3], 1, []⟩, ⟨1, [4], 2, []⟩], resume := none } w0 with clock := 50 } : State)))) (BitVec.ofNat 12 ((0x800000FF000123 : Slot).toNat / 2 ^ 48)), (({ wl { link0 with st := .retrain, sub := .linkInit, laneOk := 0xFF, initAcked := true, fails := 2, fseq := 2, replay := [⟨0, [3], 1, []⟩, ⟨1, [4], 2, []⟩], resume := none } w0 with clock := 50 } : State)), by decide +kernel⟩,
    ⟨7, 0x01FF000123, wl { link0 with st := .linkInit, laneOk := 0xFF } w0, by decide +kernel⟩,
    ⟨7, wl { link0 with st := .detect } w0, by decide +kernel⟩,
    ⟨7, 500000, { putReg (rPrtCfg 7) (BitVec.ofNat 64 (2 ^ 63 + 2 * 2 ^ 56 + 2 ^ 61)) (wl { link0 with st := .align, alignFails := 1 } w0) with clock := 500000 }, by decide +kernel⟩,
    ⟨7, 500000, { putReg (rPrtCfg 7) (BitVec.ofNat 64 (2 ^ 63 + 2 * 2 ^ 56 + 0)) (wl { link0 with st := .align, alignFails := 1 } w0) with clock := 500000 }, by decide +kernel⟩,
    ⟨7, (stageLimit .align).getD 0, { wl { link0 with st := .retrain, sub := .align, fails := 1, replay := [⟨0, [], 1, []⟩] } w0 with clock := 500000 }, by decide +kernel⟩,
    ⟨7, (stageLimit .align).getD 0, { wl { link0 with st := .retrain, sub := .align, fails := 2, replay := [⟨0, [], 1, []⟩] } w0 with clock := 500000 }, by decide +kernel⟩,
    ⟨7, (stageLimit .calibrate).getD 0, { wl { link0 with st := .calibrate, sub := .down, fails := 0, replay := [⟨0, [], 1, []⟩] } w0 with clock := 199999 }, by decide +kernel⟩,
    ⟨7, wl { link0 with st := .active } w0, by decide +kernel⟩⟩

theorem meets_FlitsAndIdle :
    (∃ (p : Fin 36) (s : State), s.powered = true ∧ portListens p.val s = false) ∧
    (∃ (p : Fin 36) (ctl : Slot) (slots : List Slot) (words : List CodewordRx) (s : State), s.powered = true ∧ portListens p.val s = true ∧ flitGood ctl slots words = true ∧ (BitVec.ofNat 12 ctl.toNat ≠ (linkOf p.val s).lastRx + 1 ∨ ctl.getLsbD 29 = true ∨ ((linkOf p.val s).nak = true ∧ ctl.getLsbD 26 = false))) ∧
    (∃ (p : Fin 36) (ctl : Slot) (slots : List Slot) (words : List CodewordRx) (f : Frame) (n : Nat) (s : State), s.powered = true ∧ portListens p.val s = true ∧ flitGood ctl slots words = true ∧ BitVec.ofNat 12 ctl.toNat = (linkOf p.val s).lastRx + 1 ∧ ((linkOf p.val s).nak = false ∨ ctl.getLsbD 26 = true) ∧ ((∀ i ∈ [25, 27, 28, 29], ctl.getLsbD i = false)) ∧ field ctl.toNat 175 168 = 0 ∧ field ctl.toNat 67 64 = 0 ∧ n ≤ 15 ∧ field ctl.toNat 46 32 = 2 ^ n - 1 ∧ field ctl.toNat 62 48 = (if n = 0 then 0 else 1) ∧ f = parseHeader (slots.getD 0 0) ∧ (n = 0 ∨ wireSlots f = n) ∧ n ≤ slots.length ∧ (linkOf p.val s).inFrame = [] ∧ (linkOf p.val s).cut = none ∧ (linkOf p.val s).swallow = false ∧ (getBit rSwcCut p.val s = false ∨ f.mcast = true) ∧ ctl.getLsbD 24 = false) ∧
    (∃ (p : Fin 36) (ctl : Slot) (slots : List Slot) (f : Frame) (f' : Frame) (o : Nat) (g : Nat) (d : Bool) (s : State), s.powered = true ∧ portListens p.val s = true ∧ flitGood ctl slots [] = true ∧ BitVec.ofNat 12 ctl.toNat = (linkOf p.val s).lastRx + 1 ∧ (linkOf p.val s).nak = false ∧ ((∀ i ∈ [24, 25, 26, 27, 28, 29], ctl.getLsbD i = false)) ∧ field ctl.toNat 175 72 = 0 ∧ field ctl.toNat 67 64 = 0 ∧ field ctl.toNat 46 32 = 1 ∧ field ctl.toNat 62 48 = 1 ∧ f = parseHeader (slots.getD 0 0) ∧ 1 < wireSlots f ∧ f.cls ≠ clBulk ∧ (linkOf p.val s).inFrame = [] ∧ cutOutput p.val f s = some (o, g, f', d)) ∧
    (∃ (p : Fin 36) (ctl : Slot) (s : State), s.powered = true ∧ portListens p.val s = true ∧ flitGood ctl [] [] = true ∧ BitVec.ofNat 12 ctl.toNat = (linkOf p.val s).lastRx + 1 ∧ (linkOf p.val s).nak = false ∧ ((∀ i ∈ [24, 26, 29], ctl.getLsbD i = false)) ∧ field ctl.toNat 175 72 = 0 ∧ field ctl.toNat 67 64 = 0 ∧ field ctl.toNat 46 32 = 0 ∧ ctl.getLsbD 27 = true) ∧
    (∃ (p : Fin 36) (ctl : Slot) (s : State), s.powered = true ∧ portListens p.val s = true ∧ flitGood ctl [] [] = true ∧ BitVec.ofNat 12 ctl.toNat = (linkOf p.val s).lastRx + 1 ∧ (linkOf p.val s).nak = false ∧ ((∀ i ∈ [24, 26, 29], ctl.getLsbD i = false)) ∧ field ctl.toNat 175 72 = 0 ∧ field ctl.toNat 67 64 = 0 ∧ field ctl.toNat 46 32 = 0 ∧ ctl.getLsbD 25 = false ∧ ctl.getLsbD 27 = false ∧ ctl.getLsbD 28 = true) ∧
    (∃ (p : Fin 36) (s : State), s.powered = true ∧ linkTalks p.val s = true ∧ (linkOf p.val s).replay ≠ [] ∧ (linkOf p.val s).ackAt + 2000 ≤ s.clock ∧ ((∃ h ∈ (linkOf p.val s).replay, 8 ≤ h.sends))) ∧
    (∃ (p : Fin 36) (s : State), s.powered = true ∧ (s.clock < (linkOf p.val s).ackAt + 2000 ∨ (linkOf p.val s).replay = [] ∨ linkTalks p.val s = false)) ∧
    (∃ (p : Fin 36) (lane : Fin 8) (left : Byte) (s : State), s.powered = true ∧ (linkOf p.val s).laneOk &&& ~~~(BitVec.ofNat 8 (2 ^ lane.val)) = left ∧ portUp p.val s = true ∧ (lowHalf left = true ∨ highHalf left = true)) ∧
    (∃ (p : Fin 36) (lane : Fin 8) (left : Byte) (s : State), s.powered = true ∧ (linkOf p.val s).laneOk &&& ~~~(BitVec.ofNat 8 (2 ^ lane.val)) = left ∧ (portUp p.val s = false ∨ (lowHalf left = false ∧ highHalf left = false))) ∧
    (∃ (p : Fin 36) (s : State), s.powered = true ∧ (portUp p.val s = true ∨ ((linkOf p.val s).st = .idle ∧ ∃ t ∈ (linkOf p.val s).wokeAt, t + 2000 ≤ s.clock))) ∧
    (∃ (p : Fin 36) (s : State), s.powered = true ∧ portUp p.val s = false ∧ ((linkOf p.val s).st ≠ .idle ∨ (∀ t ∈ (linkOf p.val s).wokeAt, s.clock < t + 2000))) ∧
    (∃ (p : Fin 36) (s : State), s.powered = true ∧ linkTalks p.val s = true ∧ (linkOf p.val s).txIdle = false ∧ getBit (rPrtCfg p.val) 55 s = true ∧ carriesTime p.val s = false ∧ hasWork p.val s = false ∧ flitRoom p.val 1 s = true ∧ (linkOf p.val s).quietSince + idleTime p.val s ≤ s.clock) ∧
    (∃ (p : Fin 36) (s : State), s.powered = true ∧ (getBit (rPrtCfg p.val) 55 s = false ∨ hasWork p.val s = true ∨ carriesTime p.val s = true ∨ (linkOf p.val s).txIdle = true ∨ s.clock < (linkOf p.val s).quietSince + idleTime p.val s)) ∧
    (∃ (p : Fin 36) (s : State), s.powered = true ∧ ((linkOf p.val s).st ≠ .idle ∨ (linkOf p.val s).txIdle = false ∨ (hasWork p.val s = false ∧ carriesTime p.val s = false))) ∧
    (∃ (p : Fin 36) (s : State), s.powered = true ∧ ((linkOf p.val s).st ≠ .idle ∨ (linkOf p.val s).rxIdle = false)) ∧
    (∃ (p : Fin 36) (t : Nat) (s : State), s.powered = true ∧ (linkOf p.val s).st = .idle ∧ (linkOf p.val s).rxIdle = true ∧ (linkOf p.val s).signalAt = some t ∧ t + 1000 ≤ s.clock) ∧
    (∃ (p : Fin 36) (t : Nat) (s : State), s.powered = true ∧ (linkOf p.val s).st = .idle ∧ (linkOf p.val s).rxIdle = true ∧ (linkOf p.val s).signalAt = some t ∧ s.clock < t + 1000) :=
  ⟨⟨7, wl { link0 with st := .detect } w0, by decide +kernel⟩,
    ⟨7, ctl0 5 [], [], [], wl { link0 with st := .active, width := 8, laneOk := 0xFF } w0, by decide +kernel⟩,
    ⟨7, ctl0 0 [], [], [], parseHeader (([] : List Slot).getD 0 0), 0, wl { link0 with st := .active, width := 8, laneOk := 0xFF } w0, by decide +kernel⟩,
    ⟨7, ctl0 (2^48 + 2^32) [headerSlot { fl 144 with ty := tyStore, len := 16 }], [headerSlot { fl 144 with ty := tyStore, len := 16 }], parseHeader (([headerSlot { fl 144 with ty := tyStore, len := 16 }] : List Slot).getD 0 0), ((cutOutput 7 (parseHeader (([headerSlot { fl 144 with ty := tyStore, len := 16 }] : List Slot).getD 0 0)) (({ withRegs [(rRteEntry 9, BitVec.ofNat 64 (2^15 + 1 + 2 * 2^8)), (rSwcCut, 0xFFFFFFFFF), (rPrtCfg 7, BitVec.ofNat 64 (2 ^ 63 + 2 * 2 ^ 56)), (rPrtCfg 8, BitVec.ofNat 64 (2 ^ 63 + 2 * 2 ^ 56))] w0 with img.groups := tblSet 0 (tblSet 0 w0.img.groups 7 2) 8 1, links := [(7, { link0 with st := .active, width := 8, rate160 := true }), (8, { link0 with st := .active, width := 8, rate160 := true })], credit := [(16 * 8 + 2, 60), (16*8+3,60), (16*8+4,60), (16*8+5,60)], sw.buf := [⟨40, some 8, 0, 0, { fl 144 with cls := clRsp }, 0, 0, [], 0, true, false, false, false⟩] } : State))).getD (0,0,f0,false)).2.2.1, ((cutOutput 7 (parseHeader (([headerSlot { fl 144 with ty := tyStore, len := 16 }] : List Slot).getD 0 0)) (({ withRegs [(rRteEntry 9, BitVec.ofNat 64 (2^15 + 1 + 2 * 2^8)), (rSwcCut, 0xFFFFFFFFF), (rPrtCfg 7, BitVec.ofNat 64 (2 ^ 63 + 2 * 2 ^ 56)), (rPrtCfg 8, BitVec.ofNat 64 (2 ^ 63 + 2 * 2 ^ 56))] w0 with img.groups := tblSet 0 (tblSet 0 w0.img.groups 7 2) 8 1, links := [(7, { link0 with st := .active, width := 8, rate160 := true }), (8, { link0 with st := .active, width := 8, rate160 := true })], credit := [(16 * 8 + 2, 60), (16*8+3,60), (16*8+4,60), (16*8+5,60)], sw.buf := [⟨40, some 8, 0, 0, { fl 144 with cls := clRsp }, 0, 0, [], 0, true, false, false, false⟩] } : State))).getD (0,0,f0,false)).1, ((cutOutput 7 (parseHeader (([headerSlot { fl 144 with ty := tyStore, len := 16 }] : List Slot).getD 0 0)) (({ withRegs [(rRteEntry 9, BitVec.ofNat 64 (2^15 + 1 + 2 * 2^8)), (rSwcCut, 0xFFFFFFFFF), (rPrtCfg 7, BitVec.ofNat 64 (2 ^ 63 + 2 * 2 ^ 56)), (rPrtCfg 8, BitVec.ofNat 64 (2 ^ 63 + 2 * 2 ^ 56))] w0 with img.groups := tblSet 0 (tblSet 0 w0.img.groups 7 2) 8 1, links := [(7, { link0 with st := .active, width := 8, rate160 := true }), (8, { link0 with st := .active, width := 8, rate160 := true })], credit := [(16 * 8 + 2, 60), (16*8+3,60), (16*8+4,60), (16*8+5,60)], sw.buf := [⟨40, some 8, 0, 0, { fl 144 with cls := clRsp }, 0, 0, [], 0, true, false, false, false⟩] } : State))).getD (0,0,f0,false)).2.1, ((cutOutput 7 (parseHeader (([headerSlot { fl 144 with ty := tyStore, len := 16 }] : List Slot).getD 0 0)) (({ withRegs [(rRteEntry 9, BitVec.ofNat 64 (2^15 + 1 + 2 * 2^8)), (rSwcCut, 0xFFFFFFFFF), (rPrtCfg 7, BitVec.ofNat 64 (2 ^ 63 + 2 * 2 ^ 56)), (rPrtCfg 8, BitVec.ofNat 64 (2 ^ 63 + 2 * 2 ^ 56))] w0 with img.groups := tblSet 0 (tblSet 0 w0.img.groups 7 2) 8 1, links := [(7, { link0 with st := .active, width := 8, rate160 := true }), (8, { link0 with st := .active, width := 8, rate160 := true })], credit := [(16 * 8 + 2, 60), (16*8+3,60), (16*8+4,60), (16*8+5,60)], sw.buf := [⟨40, some 8, 0, 0, { fl 144 with cls := clRsp }, 0, 0, [], 0, true, false, false, false⟩] } : State))).getD (0,0,f0,false)).2.2.2, (({ withRegs [(rRteEntry 9, BitVec.ofNat 64 (2^15 + 1 + 2 * 2^8)), (rSwcCut, 0xFFFFFFFFF), (rPrtCfg 7, BitVec.ofNat 64 (2 ^ 63 + 2 * 2 ^ 56)), (rPrtCfg 8, BitVec.ofNat 64 (2 ^ 63 + 2 * 2 ^ 56))] w0 with img.groups := tblSet 0 (tblSet 0 w0.img.groups 7 2) 8 1, links := [(7, { link0 with st := .active, width := 8, rate160 := true }), (8, { link0 with st := .active, width := 8, rate160 := true })], credit := [(16 * 8 + 2, 60), (16*8+3,60), (16*8+4,60), (16*8+5,60)], sw.buf := [⟨40, some 8, 0, 0, { fl 144 with cls := clRsp }, 0, 0, [], 0, true, false, false, false⟩] } : State)), by decide +kernel⟩,
    ⟨7, ctl0 (2^27) [], wl { link0 with st := .active, width := 8, laneOk := 0xFF, replay := [⟨0, [3], 1, []⟩] } w0, by decide +kernel⟩,
    ⟨7, ctl0 (2^28) [], wl { link0 with st := .active, width := 8, laneOk := 0xFF, replay := [⟨0, [3], 1, []⟩] } w0, by decide +kernel⟩,
    ⟨7, { wl { link0 with st := .active, width := 8, laneOk := 0xFF, replay := [⟨0, [], 8, []⟩] } w0 with clock := 2000 }, by decide +kernel⟩,
    ⟨7, { wl { link0 with st := .active, width := 8, laneOk := 0xFF, replay := [⟨0, [], 1, []⟩] } w0 with clock := 1999 }, by decide +kernel⟩,
    ⟨7, 7, (0xFF : Byte) &&& ~~~(BitVec.ofNat 8 (2 ^ 7)), wl { link0 with st := .active, width := 8, laneOk := 0xFF } w0, by decide +kernel⟩,
    ⟨7, 3, (0x0F : Byte) &&& ~~~(BitVec.ofNat 8 (2 ^ 3)), wl { link0 with st := .active, width := 8, laneOk := 0x0F } w0, by decide +kernel⟩,
    ⟨7, wl { link0 with st := .active, width := 8, laneOk := 0xFF, replay := [⟨0, [], 1, []⟩], inFrame := [3] } w0, by decide +kernel⟩,
    ⟨7, wl { link0 with st := .detect } w0, by decide +kernel⟩,
    ⟨7, { putReg (rPrtCfg 7) (BitVec.ofNat 64 (2 ^ 63 + 2 * 2 ^ 56 + 2 ^ 55)) (wl { link0 with st := .active, width := 8, laneOk := 0xFF } w0) with clock := 50000, sw.buf := [], owed := [], time.measuring := false }, by decide +kernel⟩,
    ⟨7, putReg (rPrtCfg 7) 0 (wl { link0 with st := .active, width := 8, laneOk := 0xFF } w0), by decide +kernel⟩,
    ⟨7, wl { link0 with st := .active } w0, by decide +kernel⟩,
    ⟨7, wl { link0 with st := .active } w0, by decide +kernel⟩,
    ⟨7, 4, { wl { link0 with st := .idle, width := 8, signalAt := some 4, rxIdle := true } w0 with clock := 1004 }, by decide +kernel⟩,
    ⟨7, 4, { wl { link0 with st := .idle, width := 8, signalAt := some 4, rxIdle := true } w0 with clock := 1003 }, by decide +kernel⟩⟩

theorem meets_PortRegisters :
    (∃ (side : Side) (p : Fin 36) (v : Word) (s : State), s.powered = true ∧ gate side bPRT false (.prt p.val) s = .go ∧ wbit v 63 = false ∧ (linkOf p.val s).st ≠ .down ∧ portRole p.val s ≠ 0) ∧
    (∃ (side : Side) (p : Fin 36) (s : State), s.powered = true ∧ gate side bPRT false (.prt p.val) s = .go ∧ liveState (linkOf p.val s).st = true) ∧
    (∃ (side : Side) (p : Fin 36) (s : State), s.powered = true ∧ gate side bPRT false (.prt p.val) s = .go ∧ ((linkOf p.val s).st = .lost ∨ ((linkOf p.val s).st = .down ∧ getBit (rPrtCfg p.val) 63 s = true ∧ getBit (rPrtTest p.val) 63 s = false)) ∧ portRole p.val s ≠ 0 ∧ portRetired p.val s = false ∧ s.power.failedComps.contains 1 = false ∧ eqValid p.val (decide (cfgRate p.val s = 2)) s = true ∧ (linkOf p.val s).st = .lost) ∧
    (∃ (side : Side) (p : Fin 36) (s : State), s.powered = true ∧ gate side bPRT false (.prt p.val) s = .go) ∧
    (∃ (p : Fin 36) (lane : Fin 8) (s : State), s.powered = true ∧ checking p.val lane.val s = false) ∧
    (∃ (p : Fin 36) (lane : Fin 8) (s : State), s.powered = true ∧ (linkOf p.val s).sync.getLsbD lane.val = false) :=
  ⟨⟨.host, 7, 0x4200000000000000, wl { link0 with st := .active, width := 8, laneOk := 0xFF } w0, by decide +kernel⟩,
    ⟨.host, 7, { wl { link0 with st := .active, replay := [⟨0, [], 1, []⟩] } w0 with clock := 50 }, by decide +kernel⟩,
    ⟨.host, 7, { wl { link0 with st := .lost, replay := [⟨0, [], 1, []⟩] } w0 with clock := 50 }, by decide +kernel⟩,
    ⟨.host, 7, wl { link0 with st := .down, sync := 7 } w0, by decide +kernel⟩,
    ⟨7, 5, withRegs [(rPrtTest 7, 0xA010000000000000), (rPrtLaneTest 7 4, 5)] (wl { link0 with sync := 0x10 } w0), by decide +kernel⟩,
    ⟨7, 5, withRegs [(rPrtTest 7, 0xA010000000000000), (rPrtLaneTest 7 4, 5)] (wl { link0 with sync := 0x10 } w0), by decide +kernel⟩⟩

theorem meets_MemoryStacks :
    (∃ (k : Fin 6) (l : Nat) (s : State), s.powered = true ∧ (getStack k.val s).st = .online ∧ 6 * (getStack k.val s).scrubNext + k.val = l ∧ hardWord l s = none ∧ softWords l s ≠ []) ∧
    (∃ (k : Fin 6) (l : Nat) (s : State), s.powered = true ∧ (getStack k.val s).st = .online ∧ 6 * (getStack k.val s).scrubNext + k.val = l ∧ hardWord l s = none ∧ (getStack k.val s).scrubNext + 1 < stackLines) ∧
    (∃ (k : Fin 6) (l : Nat) (s : State), s.powered = true ∧ (getStack k.val s).st = .online ∧ 6 * (getStack k.val s).scrubNext + k.val = l ∧ hardWord l s = none ∧ stackLines ≤ (getStack k.val s).scrubNext + 1) ∧
    (∃ (k : Fin 6) (l : Nat) (s : State), s.powered = true ∧ (getStack k.val s).st = .online ∧ 6 * (getStack k.val s).scrubNext + k.val = l ∧ (hardWord l s).isSome = true) ∧
    (∃ (k : Fin 6) (s : State), s.powered = true ∧ (getStack k.val s).st ≠ .online) ∧
    (∃ (k : Fin 6) (t : BitVec 8) (s : State), s.powered = true ∧ 10 ≤ apart t.toNat (getStack k.val s).trainTemp ∧ mayFence k.val s = false) ∧
    (∃ (k : Fin 6) (t : BitVec 8) (s : State), s.powered = true ∧ apart t.toNat (getStack k.val s).trainTemp < 10 ∧ ((getStack k.val s).wanted = false ∨ mayFence k.val s = false)) ∧
    (∃ (side : Side) (k : Fin 6) (s : State), s.powered = true ∧ gate side bMEM false (.stk k.val) s = .go) ∧
    (∃ (k : Fin 6) (s : State), s.powered = true ∧ (getStack k.val s).st = .fenced) ∧
    (∃ (k : Fin 6) (s : State), s.powered = true ∧ (getStack k.val s).st ≠ .fenced) ∧
    (∃ (k : Fin 6) (s : State), s.powered = true ∧ (getStack k.val s).st = .fenced ∧ (getStack k.val s).fencedAt + 50000 ≤ s.clock ∧ (getStack k.val s).repeated = false) ∧
    (∃ (k : Fin 6) (s : State), s.powered = true ∧ (getStack k.val s).st = .fenced ∧ (getStack k.val s).fencedAt + 50000 ≤ s.clock ∧ (getStack k.val s).repeated = true ∧ inReset (.stk k.val) s = false ∧ resetCount (.stk k.val) s < 3) ∧
    (∃ (k : Fin 6) (s : State), s.powered = true ∧ (getStack k.val s).st = .fenced ∧ s.clock < (getStack k.val s).fencedAt + 50000) ∧
    (∃ (side : Side) (v : Word) (s : State), s.powered = true ∧ gate side bMEM false .ept s = .go ∧ wbit v 16 = true ∧ clearRefused (wfield v 7 0) (wfield v 15 8) s = false) ∧
    (∃ (side : Side) (v : Word) (s : State), s.powered = true ∧ gate side bMEM false .ept s = .go ∧ wbit v 16 = false) ∧
    (∃ (p : Fin 184) (s : State), s.powered = true ∧ (p.val ∈ s.memory.regClear ∨ pageState p.val s = pgClearing) ∧ pageState p.val s = pgClearing) ∧
    (∃ (p : Fin 184) (s : State), s.powered = true ∧ (p.val ∈ s.memory.regClear ∨ pageState p.val s = pgClearing) ∧ pageState p.val s ≠ pgClearing) ∧
    (∃ (p : Fin 184) (s : State), s.powered = true ∧ p.val ∉ s.memory.regClear ∧ pageState p.val s ≠ pgClearing) ∧
    (∃ (side : Side) (k : Fin 6) (s : State), s.powered = true ∧ gate side bMEM false (.stk k.val) s = .go) :=
  ⟨⟨2, 2, { { w0 with memory.stackTbl := tblSet stack0 (wm w0).memory.stackTbl 2 { stack0 with st := .online, scrubNext := 0 } } with memory.errs := [(16 * (6 * 0 + 2) + 3, 1)] }, by decide +kernel⟩,
    ⟨2, 2, { { w0 with memory.stackTbl := tblSet stack0 (wm w0).memory.stackTbl 2 { stack0 with st := .online, scrubNext := 0 } } with memory.errs := [] }, by decide +kernel⟩,
    ⟨2, 805306364, { { w0 with memory.stackTbl := tblSet stack0 (wm w0).memory.stackTbl 2 { stack0 with st := .online, scrubNext := 134217727 } } with memory.errs := [] }, by decide +kernel⟩,
    ⟨2, 2, { { w0 with memory.stackTbl := tblSet stack0 (wm w0).memory.stackTbl 2 { stack0 with st := .online, scrubNext := 0 } } with memory.errs := [(16 * 2 + 3, 7)], caravan.colls := [] }, by decide +kernel⟩,
    ⟨2, { w0 with memory.stackTbl := tblSet stack0 (wm w0).memory.stackTbl 2 { stack0 with st := .fenced } }, by decide +kernel⟩,
    ⟨2, 60, { w0 with memory.stackTbl := tblSet stack0 (wm w0).memory.stackTbl 2 { stack0 with st := .online, trainTemp := 40, lastTrain := some 0 } }, by decide +kernel⟩,
    ⟨2, 49, { w0 with memory.stackTbl := tblSet stack0 (wm w0).memory.stackTbl 2 { stack0 with st := .online, trainTemp := 40 } }, by decide +kernel⟩,
    ⟨.host, 2, { w0 with memory.stackTbl := tblSet stack0 (wm w0).memory.stackTbl 2 { stack0 with st := .online } }, by decide +kernel⟩,
    ⟨2, { { w0 with memory.stackTbl := tblSet stack0 (wm w0).memory.stackTbl 2 { stack0 with st := .fenced, temp := 77 } } with clock := 88 }, by decide +kernel⟩,
    ⟨2, { w0 with memory.stackTbl := tblSet stack0 (wm w0).memory.stackTbl 2 { stack0 with st := .online } }, by decide +kernel⟩,
    ⟨2, { { w0 with memory.stackTbl := tblSet stack0 (wm w0).memory.stackTbl 2 { stack0 with st := .fenced, repeated := false } } with clock := 50000, resets := [] }, by decide +kernel⟩,
    ⟨2, { { w0 with memory.stackTbl := tblSet stack0 (wm w0).memory.stackTbl 2 { stack0 with st := .fenced, repeated := true } } with clock := 50000, resets := [] }, by decide +kernel⟩,
    ⟨2, { { w0 with memory.stackTbl := tblSet stack0 (wm w0).memory.stackTbl 2 { stack0 with st := .fenced, repeated := true } } with clock := 49999, resets := [] }, by decide +kernel⟩,
    ⟨.host, 0x10105, { w0 with memory.regClear := [] }, by decide +kernel⟩,
    ⟨.host, 0x105, w0, by decide +kernel⟩,
    ⟨0, { setPageState 0 pgClearing (put8 8 77 (put8 0x40000000 99 w0)) with memory.regClear := [1] }, by decide +kernel⟩,
    ⟨0, { put8 8 77 (put8 0x40000000 99 w0) with memory.regClear := [0] }, by decide +kernel⟩,
    ⟨0, { put8 8 77 (put8 0x40000000 99 w0) with memory.regClear := [1] }, by decide +kernel⟩,
    ⟨.host, 2, w0, by decide +kernel⟩⟩

theorem meets_ResetsBegin :
    (∃ (s : State), s.powered = true) ∧
    (∃ (d : Dom) (c : Instr) (s : State), s.powered = true ∧ (c, d) ∈ [((.kprReset (.command none) : Instr), Dom.kpr), (.keeperWatchdogExpiry, .kpr), (.eptReset (.command none), .ept), (.eptReset .uncorrectable, .ept), (.heartbeatTimeout .endPoint, .ept), (.aryReset (.command none), .ary), (.heartbeatTimeout .caravan, .ary), (.heartbeatTimeout .routeScheduler, .ary)] ++ (List.finRange 36).map (fun p => ((.prtReset p (.command none) : Instr), Dom.prt p.val)) ++ (List.finRange 36).map (fun p => ((.heartbeatTimeout (.port p) : Instr), Dom.prt p.val)) ++ (List.finRange 6).map (fun k => ((.stkReset k (.command none) : Instr), Dom.stk k.val)) ++ (List.finRange 6).map (fun k => ((.heartbeatTimeout (.stack k) : Instr), Dom.stk k.val)) ∧ inReset d s = true) ∧
    (∃ (d : Dom) (c : Instr) (s : State), s.powered = true ∧ (c, d) ∈ [((.kprReset (.command none) : Instr), Dom.kpr), (.keeperWatchdogExpiry, .kpr), (.eptReset (.command none), .ept), (.eptReset .uncorrectable, .ept), (.heartbeatTimeout .endPoint, .ept), (.aryReset (.command none), .ary), (.heartbeatTimeout .caravan, .ary), (.heartbeatTimeout .routeScheduler, .ary)] ++ (List.finRange 36).map (fun p => ((.prtReset p (.command none) : Instr), Dom.prt p.val)) ++ (List.finRange 36).map (fun p => ((.heartbeatTimeout (.port p) : Instr), Dom.prt p.val)) ++ (List.finRange 6).map (fun k => ((.stkReset k (.command none) : Instr), Dom.stk k.val)) ++ (List.finRange 6).map (fun k => ((.heartbeatTimeout (.stack k) : Instr), Dom.stk k.val)) ∧ inReset d s = false ∧ resetCount d s < 3 ∧ d = .ept) ∧
    (∃ (d : Dom) (c : Instr) (s : State), s.powered = true ∧ (c, d) ∈ [((.kprReset (.command none) : Instr), Dom.kpr), (.keeperWatchdogExpiry, .kpr), (.eptReset (.command none), .ept), (.eptReset .uncorrectable, .ept), (.heartbeatTimeout .endPoint, .ept), (.aryReset (.command none), .ary), (.heartbeatTimeout .caravan, .ary), (.heartbeatTimeout .routeScheduler, .ary)] ++ (List.finRange 36).map (fun p => ((.prtReset p (.command none) : Instr), Dom.prt p.val)) ++ (List.finRange 36).map (fun p => ((.heartbeatTimeout (.port p) : Instr), Dom.prt p.val)) ++ (List.finRange 6).map (fun k => ((.stkReset k (.command none) : Instr), Dom.stk k.val)) ++ (List.finRange 6).map (fun k => ((.heartbeatTimeout (.stack k) : Instr), Dom.stk k.val)) ∧ inReset d s = false ∧ resetCount d s < 3 ∧ d = .ary) ∧
    (∃ (k : Fin 6) (s : State), s.powered = true ∧ inReset (.stk k.val) s = false ∧ resetCount (.stk k.val) s < 3) ∧
    (∃ (s : State), s.powered = true ∧ inReset .kpr s = false ∧ resetCount .kpr s < 3) ∧
    (∃ (d : Dom) (c : Instr) (s : State), s.powered = true ∧ 3 ≤ resetCount d s ∧ inReset d s = false ∧ s.power.oos = false ∧ (c, d) ∈ [((.kprReset .watchdog : Instr), Dom.kpr), (.eptReset .heartbeat, .ept), (.aryReset .heartbeat, .ary)]) ∧
    (∃ (p : Fin 36) (s : State), s.powered = true ∧ 3 ≤ resetCount (.prt p.val) s ∧ inReset (.prt p.val) s = false) ∧
    (∃ (s : State), s.powered = true ∧ sidebandUp s = true ∧ s.side.capWaiting.length < 4 ∧ inReset .ept s = false) ∧
    (∃ (c : Instr) (s : State), s.powered = true ∧ c ∈ [(.pwrReset .watchdog : Instr), .kprReset .heartbeat, .eptReset .watchdog, .aryReset .lostRetrain, .prtReset 0 .uncorrectable, .stkReset 0 .uncorrectable]) ∧
    (∃ (p : Fin 36) (t : Nat) (s : State), s.powered = true ∧ (linkOf p.val s).lostRetrainAt = some t ∧ t + 10000000 ≤ s.clock ∧ portUp p.val s = false ∧ inReset (.prt p.val) s = false) ∧
    (∃ (p : Fin 36) (t : Nat) (s : State), s.powered = true ∧ (linkOf p.val s).lostRetrainAt = some t ∧ (s.clock < t + 10000000 ∨ portUp p.val s = true)) ∧
    (∃ (p : Fin 36) (s : State), s.powered = true ∧ (linkOf p.val s).lostRetrainAt = none) :=
  ⟨⟨{ (put8 8 77 (wrun1 run0 (wq 0 0 [fds (mkDesc opFill 0 [])] w0))) with hostMem := [(5, 1)], memory.retired := [9], clock := 77, service.resetTimes := [(0, [3])], rope.paired := false }, by decide +kernel⟩,
    ⟨(.kpr : Dom), (.kprReset (.command none) : Instr), { w0 with resets := [((.kpr : Dom).code, 5)] }, by decide +kernel⟩,
    ⟨(.ept : Dom), (.eptReset (.command none) : Instr), { (put8 8 77 (wrun1 run0 (wq 0 0 [fds (mkDesc opFill 0 [])] w0))) with hostMem := [(5, 1)], memory.retired := [9], clock := 77, service.resetTimes := [(0, [3])], rope.paired := false }, by decide +kernel⟩,
    ⟨(.ary : Dom), (.aryReset (.command none) : Instr), { (put8 8 77 (wrun1 run0 (wq 0 0 [fds (mkDesc opFill 0 [])] w0))) with hostMem := [(5, 1)], memory.retired := [9], clock := 77, service.resetTimes := [(0, [3])], rope.paired := false }, by decide +kernel⟩,
    ⟨2, { (put8 8 77 (wrun1 run0 (wq 0 0 [fds (mkDesc opFill 0 [])] w0))) with hostMem := [(5, 1)], memory.retired := [9], clock := 77, service.resetTimes := [(0, [3])], rope.paired := false }, by decide +kernel⟩,
    ⟨{ (put8 8 77 (wrun1 run0 (wq 0 0 [fds (mkDesc opFill 0 [])] w0))) with hostMem := [(5, 1)], memory.retired := [9], clock := 77, service.resetTimes := [(0, [3])], rope.paired := false }, by decide +kernel⟩,
    ⟨(.kpr : Dom), (.kprReset .watchdog : Instr), { w0 with service.resetTimes := [((.kpr : Dom).code, [1, 2, 3])], power.oos := false, clock := 10 }, by decide +kernel⟩,
    ⟨7, { w0 with service.resetTimes := [((Dom.prt 7).code, [1, 2, 3])], clock := 10 }, by decide +kernel⟩,
    ⟨{ wid w0 with side.dynAddr := some 9, side.capWaiting := [] }, by decide +kernel⟩,
    ⟨(.pwrReset .watchdog : Instr), w0, by decide +kernel⟩,
    ⟨7, 0, { wl { link0 with st := .lost, lostRetrainAt := some 0 } w0 with clock := 10000000 }, by decide +kernel⟩,
    ⟨7, 0, { wl { link0 with st := .lost, lostRetrainAt := some 0 } w0 with clock := 9999999 }, by decide +kernel⟩,
    ⟨7, w0, by decide +kernel⟩⟩

theorem meets_ResetsEnd :
    (∃ (c : Instr) (d : Dom) (s : State), s.powered = true ∧ (c, d) ∈ [((.kprResetEnd : Instr), Dom.kpr), (.eptResetEnd, .ept), (.aryResetEnd, .ary)] ++ (List.finRange 36).map (fun p => ((.prtResetEnd p : Instr), Dom.prt p.val)) ++ (List.finRange 6).map (fun k => ((.stkResetEnd k : Instr), Dom.stk k.val)) ∧ ((∃ t ∈ resetEnd d s, t ≤ s.clock)) ∧ s.power.stage = 13 ∧ ((d = .ary → ∀ e ∈ s.queues, e.2.fetched = [])) ∧ ((d = .kpr → s.tenant.heldCmd = none)) ∧ d = .ept) ∧
    (∃ (d : Dom) (c : Instr) (t : Nat) (s : State), s.powered = true ∧ resetEnd d s = some t ∧ s.clock < t ∧ (c, d) ∈ [((.eptResetEnd : Instr), Dom.ept), (.aryResetEnd, .ary), (.prtResetEnd 0, .prt 0)]) ∧
    (∃ (d : Dom) (c : Instr) (s : State), s.powered = true ∧ inReset d s = false ∧ (c, d) ∈ [((.kprResetEnd : Instr), Dom.kpr), (.eptResetEnd, .ept), (.aryResetEnd, .ary), (.prtResetEnd 0, .prt 0), (.stkResetEnd 0, .stk 0)]) ∧
    (∃ (s : State), s.powered = true ∧ s.power.stage < 8) ∧
    (∃ (s : State), s.powered = true ∧ s.power.stage < 12) ∧
    (∃ (s : State), s.powered = true ∧ tblWf [] s.service.resetTimes = true) ∧
    (∃ (side : Side) (s : State), s.powered = true ∧ gate side bKPR false .pwr s = .go) :=
  ⟨⟨.eptResetEnd, .ept, { w0 with resets := [((.ept : Dom).code, 6)], clock := 5, queues := [], memory.stackTbl := [(2, { stack0 with temp := 33 })] }, by decide +kernel⟩,
    ⟨.ept, .eptResetEnd, 5, { w0 with resets := [((.ept : Dom).code, 6)], clock := 4 }, by decide +kernel⟩,
    ⟨(.kpr : Dom), (.kprResetEnd : Instr), w0, by decide +kernel⟩,
    ⟨{ w0 with power.stage := 7, resets := [(Dom.ept.code, 6)], clock := 50 }, by decide +kernel⟩,
    ⟨{ w0 with power.stage := 7, resets := [(Dom.ept.code, 6)], clock := 50 }, by decide +kernel⟩,
    ⟨{ w0 with service.resetTimes := [(3, [5, 100000000001])], clock := 900000000005 }, by decide +kernel⟩,
    ⟨.host, { withRegs [(rKprPrtRetired, 0x80)] w0 with service.resetTimes := [((Dom.prt 7).code, [1, 2]), ((Dom.prt 8).code, [1])] }, by decide +kernel⟩⟩

theorem meets_KeyDelivery :
    (∃ (tr : Transport) (s : State), s.powered = true ∧ transportUp tr s = true ∧ s.tenant.identity = true) ∧
    (∃ (tr : Transport) (s : State), s.powered = true ∧ (transportUp tr s = false ∨ s.tenant.identity = false)) ∧
    (∃ (tr : Transport) (p : Byte) (s : State), s.powered = true ∧ transportUp tr s = true ∧ s.tenant.identity = true ∧ (p = 0 ∨ partSlot p s = none)) ∧
    (∃ (tr : Transport) (s : State), s.powered = true ∧ (transportUp tr s = false ∨ s.tenant.identity = false)) ∧
    (∃ (tr : Transport) (pub : List Byte) (s : State), s.powered = true ∧ transportUp tr s = true ∧ s.tenant.identity = true ∧ pub.length = 97 ∧ ((tr = .doe → isReady s = true)) ∧ ((∃ i ∈ List.range 4, getSession i s = none))) ∧
    (∃ (tr : Transport) (pub : List Byte) (s : State) (st : Byte), s.powered = true ∧ transportUp tr s = true ∧ s.tenant.identity = true ∧ ((tr = .doe ∧ isReady s = false ∧ st = stRetryBusy) ∨ ((tr = .doe → isReady s = true) ∧ pub.length ≠ 97 ∧ st = stMalformed) ∨ ((tr = .doe → isReady s = true) ∧ pub.length = 97 ∧ (∀ i, i < 4 → getSession i s ≠ none) ∧ st = stRetryBusy))) ∧
    (∃ (s : State), s.powered = true) ∧
    (∃ (env : Envelope) (x : Session) (msg : InstallMsg) (s : State) (st : Byte), s.powered = true ∧ getSession env.session.val s = some x ∧ sessionServed x s ∧ env.tagOk = true ∧ env.counter.toNat = x.rx ∧ ((manifestOk msg.manifest msg.partition = false ∧ st = stMalformed) ∨ (manifestOk msg.manifest msg.partition = true ∧ partSlot msg.partition s = none ∧ st = stDenied) ∨ (manifestOk msg.manifest msg.partition = true ∧ (∃ n, partSlot msg.partition s = some n ∧ (getSlot n s).st ≠ .bound ∧ (getSlot n s).st ≠ .keyed) ∧ st = stDenied))) ∧
    (∃ (env : Envelope) (x : Session) (y : Permit) (rcd : BitVec 192) (body : BitVec 64) (key : BitVec 256) (s : State), s.powered = true ∧ getSession env.session.val s = some x ∧ sessionServed x s ∧ env.tagOk = true ∧ env.counter.toNat = x.rx ∧ body.toNat = y.number.toNat + y.kind.toNat * 2 ^ 16 + y.grantor.toNat * 2 ^ 24 + y.grantee.toNat * 2 ^ 32 + y.first * 2 ^ 40 + y.count * 2 ^ 48 ∧ y.first < 256 ∧ y.count < 256 ∧ rcd = BitVec.ofNat 192 (body.toNat + natOfBytes (permitMac key (bytesOfNat 8 body.toNat)) * 2 ^ 64) ∧ y.first + y.count ≤ 184 ∧ y.count ≠ 0 ∧ (y.kind = 1 ∨ y.kind = 2) ∧ grantorKey y.grantor s = some key ∧ permitParty y.grantor s = true ∧ permitParty y.grantee s = true ∧ ((∀ z ∈ s.tenant.permits, z.number ≠ y.number)) ∧ s.tenant.permits.length < 64) ∧
    (∃ (env : Envelope) (x : Session) (y : Permit) (rcd : BitVec 192) (body : BitVec 64) (key : BitVec 256) (s : State) (st : Byte), s.powered = true ∧ getSession env.session.val s = some x ∧ sessionServed x s ∧ env.tagOk = true ∧ env.counter.toNat = x.rx ∧ body.toNat = y.number.toNat + y.kind.toNat * 2 ^ 16 + y.grantor.toNat * 2 ^ 24 + y.grantee.toNat * 2 ^ 32 + y.first * 2 ^ 40 + y.count * 2 ^ 48 ∧ y.first < 256 ∧ y.count < 256 ∧ rcd = BitVec.ofNat 192 (body.toNat + natOfBytes (permitMac key (bytesOfNat 8 body.toNat)) * 2 ^ 64) ∧ ((184 < y.first + y.count ∧ st = stMalformed) ∨ (y.first + y.count ≤ 184 ∧ y.count ≠ 0 ∧ (y.kind = 1 ∨ y.kind = 2) ∧ (grantorKey y.grantor s = none ∨ permitParty y.grantor s = false ∨ permitParty y.grantee s = false ∨ ∃ z ∈ s.tenant.permits, z.number = y.number) ∧ st = stDenied))) ∧
    (∃ (env : Envelope) (x : Session) (n : BitVec 16) (mac : BitVec 128) (s : State) (y : Permit) (key : _), s.powered = true ∧ getSession env.session.val s = some x ∧ sessionServed x s ∧ env.tagOk = true ∧ env.counter.toNat = x.rx ∧ s.tenant.permits.find? (fun z => decide (z.number = n)) = some y ∧ grantorKey y.grantor s = some key ∧ mac = BitVec.ofNat 128 (natOfBytes (permitMac key (bytesOfNat 2 n.toNat)))) ∧
    (∃ (env : Envelope) (x : Session) (n : BitVec 16) (s : State), s.powered = true ∧ getSession env.session.val s = some x ∧ sessionServed x s ∧ env.tagOk = true ∧ env.counter.toNat = x.rx ∧ ((∀ z ∈ s.tenant.permits, z.number ≠ n))) ∧
    (∃ (env : Envelope) (x : Session) (s : State), s.powered = true ∧ getSession env.session.val s = some x ∧ sessionServed x s ∧ env.tagOk = true ∧ env.counter.toNat = x.rx) ∧
    (∃ (i : Fin 4) (s : State), s.powered = true ∧ (keeperRuns s = false ∨ (∀ x ∈ getSession i.val s, s.clock < x.last + 10000000000))) :=
  ⟨⟨.mctp, wid w0, by decide +kernel⟩,
    ⟨.mctp, w0, by decide +kernel⟩,
    ⟨.mctp, 0, wid w0, by decide +kernel⟩,
    ⟨.mctp, w0, by decide +kernel⟩,
    ⟨.mctp, List.replicate 97 1, { wid w0 with tenant.sessions := [] }, by decide +kernel⟩,
    ⟨.mctp, List.replicate 97 1, { wid w0 with tenant.sessions := [(0, some (ses0 .doe)), (1, some (ses0 .doe)), (2, some (ses0 .doe)), (3, some (ses0 .doe))] }, stRetryBusy, by decide +kernel⟩,
    ⟨wse .doe w0, by decide +kernel⟩,
    ⟨⟨1, 4, true⟩, ses0 .mctp, ⟨7, 5, 6, man0 7 0⟩, wks (ks .active) (wse .mctp w0), stDenied, by unfold sessionServed; decide +kernel⟩,
    ⟨⟨1, 4, true⟩, ses0 .mctp, ⟨99, 1, 7, 7, 183, 1⟩, BitVec.ofNat 192 ((BitVec.ofNat 64 (99 + 1 * 2^16 + 7 * 2^24 + 7 * 2^32 + 183 * 2^40 + 1 * 2^48)).toNat + natOfBytes (permitMac ((grantorKey 7 ((wks (ks .active) (wse .mctp w0) : State))).getD 0) (bytesOfNat 8 (BitVec.ofNat 64 (99 + 1 * 2^16 + 7 * 2^24 + 7 * 2^32 + 183 * 2^40 + 1 * 2^48)).toNat)) * 2 ^ 64), (BitVec.ofNat 64 (99 + 1 * 2^16 + 7 * 2^24 + 7 * 2^32 + 183 * 2^40 + 1 * 2^48)), ((grantorKey 7 ((wks (ks .active) (wse .mctp w0) : State))).getD 0), ((wks (ks .active) (wse .mctp w0) : State)), by decide +kernel, by decide +kernel, by unfold sessionServed; decide +kernel, by decide +kernel, by decide +kernel, by decide +kernel, by decide +kernel, by decide +kernel, by rfl, by decide +kernel, by decide +kernel, by decide +kernel, by decide +kernel, by decide +kernel, by decide +kernel, by decide +kernel, by decide +kernel⟩,
    ⟨⟨1, 4, true⟩, ses0 .mctp, ⟨99, 1, 7, 7, 183, 2⟩, BitVec.ofNat 192 ((BitVec.ofNat 64 (99 + 1 * 2^16 + 7 * 2^24 + 7 * 2^32 + 183 * 2^40 + 2 * 2^48)).toNat + natOfBytes (permitMac ((grantorKey 7 ((wks (ks .active) (wse .mctp w0) : State))).getD 0) (bytesOfNat 8 (BitVec.ofNat 64 (99 + 1 * 2^16 + 7 * 2^24 + 7 * 2^32 + 183 * 2^40 + 2 * 2^48)).toNat)) * 2 ^ 64), (BitVec.ofNat 64 (99 + 1 * 2^16 + 7 * 2^24 + 7 * 2^32 + 183 * 2^40 + 2 * 2^48)), ((grantorKey 7 ((wks (ks .active) (wse .mctp w0) : State))).getD 0), ((wks (ks .active) (wse .mctp w0) : State)), stMalformed, by decide +kernel, by decide +kernel, by unfold sessionServed; decide +kernel, by decide +kernel, by decide +kernel, by decide +kernel, by decide +kernel, by decide +kernel, by rfl, by decide +kernel⟩,
    ⟨⟨1, 4, true⟩, ses0 .mctp, 99, BitVec.ofNat 128 (natOfBytes (permitMac ((grantorKey 7 (({ wks (ks .active) (wse .mctp w0) with tenant.permits := [⟨99, 1, 7, 7, 5, 1⟩, ⟨98, 1, 7, 7, 5, 1⟩] } : State))).getD 0) (bytesOfNat 2 99))), (({ wks (ks .active) (wse .mctp w0) with tenant.permits := [⟨99, 1, 7, 7, 5, 1⟩, ⟨98, 1, 7, 7, 5, 1⟩] } : State)), (⟨99, 1, 7, 7, 5, 1⟩ : Permit), ((grantorKey 7 (({ wks (ks .active) (wse .mctp w0) with tenant.permits := [⟨99, 1, 7, 7, 5, 1⟩, ⟨98, 1, 7, 7, 5, 1⟩] } : State))).getD 0), by decide +kernel, by decide +kernel, by unfold sessionServed; decide +kernel, by decide +kernel, by decide +kernel, by decide +kernel, by decide +kernel, by rfl⟩,
    ⟨⟨1, 4, true⟩, ses0 .mctp, 97, { wks (ks .active) (wse .mctp w0) with tenant.permits := [⟨99, 1, 7, 7, 5, 1⟩, ⟨98, 1, 7, 7, 5, 1⟩] }, by unfold sessionServed; decide +kernel⟩,
    ⟨⟨1, 4, true⟩, ses0 .mctp, wse .mctp w0, by unfold sessionServed; decide +kernel⟩,
    ⟨1, { wse .mctp w0 with clock := 9999999999 }, by decide +kernel⟩⟩

/-- An OPEN of a partition whose manifest names an empty image of a digest. -/
def wdig (d : Nat) : State :=
  { wks { ks .keyed with manifest := bytesOfNat 4 0x4D465A36 ++ [1, 0, 1, 7] ++ List.replicate 56 0 ++ bytesOfNat 48 d ++ List.replicate 16 0 } w0 with
    tenant.run := some ⟨opOpen, 2, 0, 0, [], none⟩ }

theorem wdig_match (d : Fin 2) : digestsMatch 2 (wdig d.val) = decide ((Config.sha384 []).toNat = d.val) := by
  have hi : ∀ d : Fin 2, manifestImages (getSlot 2 (wdig d.val)).manifest = [(d.val, 0, 0)] := by decide +kernel
  have he : ∀ d : Fin 2, (selfEid 0 (wdig d.val)).toNat = 0 := by decide +kernel
  simp only [digestsMatch, hi, List.all_cons, List.all_nil]
  simp [he, readMem]

theorem wdig_some : ∃ d : Fin 2, digestsMatch 2 (wdig d.val) = false := by
  rcases Nat.eq_zero_or_pos (Config.sha384 []).toNat with h | h
  · exact ⟨1, by rw [wdig_match]; simp [h]⟩
  · exact ⟨0, by rw [wdig_match]; simp; omega⟩

theorem meets_PartitionCommands :
    (∃ (side : Side) (s : State), s.powered = true ∧ takesSecCmd side s) ∧
    (∃ (side : Side) (n : Fin 64) (p : Byte) (gen : Byte) (a : Byte) (b : Byte) (s : State) (c : Instr), c ∈ [(.bind side n p gen : Instr), .openSlot side n, .grant side n a b, .grantShared side n a b, .releasePages side n a b, .stage side n, .switch side n, .close side n] ∧ s.powered = true ∧ gate side bSEC false .pwr s = .go ∧ (s.tenant.run ≠ none ∨ s.tenant.heldCmd ≠ none)) ∧
    (∃ (side : Side) (n : Fin 64) (p : Byte) (gen : Byte) (a : Byte) (b : Byte) (s : State) (c : Instr), c ∈ [(.bind side n p gen : Instr), .openSlot side n, .grant side n a b, .grantShared side n a b, .releasePages side n a b, .stage side n, .switch side n, .close side n] ∧ s.powered = true ∧ gate side bSEC false .pwr s = .go ∧ s.tenant.run = none ∧ s.tenant.heldCmd = none ∧ swapping 0 s = true) ∧
    (∃ (side : Side) (n : Fin 64) (s : State), s.powered = true ∧ takesSecCmd side s ∧ s.power.oos = false ∧ (getSlot n.val s).st = .keyed ∧ manifestFlag (getSlot n.val s).manifest 0 = strictMode s) ∧
    (∃ (side : Side) (n : Fin 64) (s : State) (st : Byte), s.powered = true ∧ takesSecCmd side s ∧ ((s.power.oos = true ∧ st = stOos) ∨ (s.power.oos = false ∧ (getSlot n.val s).st ≠ .keyed ∧ st = stDenied) ∨ (s.power.oos = false ∧ (getSlot n.val s).st = .keyed ∧ manifestFlag (getSlot n.val s).manifest 0 ≠ strictMode s ∧ st = stStrict))) ∧
    (∃ (r : SecRun) (s : State), s.powered = true ∧ s.tenant.run = some r ∧ r.op = opOpen ∧ digestsMatch r.slot s = true) ∧
    (∃ (r : SecRun) (s : State), s.powered = true ∧ s.tenant.run = some r ∧ r.op = opOpen ∧ digestsMatch r.slot s = false) ∧
    (∃ (s : State), s.powered = true ∧ ((∀ r ∈ s.tenant.run, r.op ≠ opOpen))) ∧
    (∃ (side : Side) (n : Fin 64) (a : Byte) (b : Byte) (shared : Bool) (c : Instr) (good : Bool) (s : State), s.powered = true ∧ takesSecCmd side s ∧ c = (if shared then .grantShared side n a b else .grant side n a b) ∧ ((good = true ↔ ((getSlot n.val s).st = .bound ∨ (getSlot n.val s).st = .keyed ∨ ((getSlot n.val s).st = .active ∧ shared = false)) ∧ ∀ i, i < 184 → a.toNat ≤ i → i < a.toNat + b.toNat → pageState i s = pgFree))) ∧
    (∃ (side : Side) (n : Fin 64) (a : Byte) (b : Byte) (good : Bool) (s : State), s.powered = true ∧ takesSecCmd side s ∧ ((good = true ↔ ((getSlot n.val s).st = .bound ∨ (getSlot n.val s).st = .keyed ∨ (getSlot n.val s).st = .active) ∧ ∀ i, i < 184 → a.toNat ≤ i → i < a.toNat + b.toNat → pageState i s = pgOwned ∧ pagePartition i s = (getSlot n.val s).partition))) ∧
    (∃ (n : Fin 64) (s : State), s.powered = true ∧ ((getSlot n.val s).st ≠ .clearing ∨ (∃ i ∈ List.range 184, pageState i s = pgClearing ∧ pageSlot i s = n.val))) :=
  ⟨⟨.host, { w0 with tenant.slots := [], tenant.lastGen := [], tenant.enrolled := some ⟨true, true, 0, 0⟩, tenant.run := none, tenant.heldCmd := none }, by unfold takesSecCmd; decide +kernel⟩,
    ⟨.host, 2, 7, 3, 0, 1, { w0 with tenant.run := some ⟨opOpen, 2, 0, 0, [], none⟩ }, (.bind .host 2 7 3 : Instr), by decide +kernel⟩,
    ⟨.host, 2, 7, 3, 0, 1, { w0 with tenant.run := none, tenant.heldCmd := none, service.activation := some ⟨0, 5, [], []⟩ }, (.bind .host 2 7 3 : Instr), by decide +kernel⟩,
    ⟨.host, 2, wks (ks .keyed) w0, by unfold takesSecCmd; decide +kernel⟩,
    ⟨.host, 2, wks ({ ks .keyed with manifest := man0 7 1 }) w0, stStrict, by unfold takesSecCmd; decide +kernel⟩,
    ⟨⟨opOpen, 2, 0, 0, [], none⟩, { wks (ks .keyed) w0 with tenant.run := some ⟨opOpen, 2, 0, 0, [], none⟩ }, by decide +kernel⟩,
    wdig_some.elim (fun d h => ⟨⟨opOpen, 2, 0, 0, [], none⟩, wdig d.val, rfl, rfl, rfl, h⟩),
    ⟨w0, by decide +kernel⟩,
    ⟨.host, 2, 183, 1, true, (.grantShared .host 2 183 1 : Instr), true, wks (ks .bound) w0, by unfold takesSecCmd; decide +kernel⟩,
    ⟨.host, 2, 182, 2, true, wpg 182 pgOwned (wpg 183 pgOwned (wks (ks .active) w0)), by unfold takesSecCmd; decide +kernel⟩,
    ⟨2, wpg 5 pgClearing (wks (ks .clearing) w0), by decide +kernel⟩⟩

theorem meets_RotationAndClose :
    (∃ (side : Side) (n : Fin 64) (k : KeySlot) (s : State), s.powered = true ∧ takesSecCmd side s ∧ getSlot n.val s = k ∧ k.st = .active ∧ k.rotation = 0 ∧ attached s = []) ∧
    (∃ (side : Side) (n : Fin 64) (k : KeySlot) (s : State), s.powered = true ∧ takesSecCmd side s ∧ getSlot n.val s = k ∧ k.st = .active ∧ k.rotation = 0 ∧ attached s ≠ []) ∧
    (∃ (side : Side) (n : Fin 64) (k : KeySlot) (s : State), s.powered = true ∧ takesSecCmd side s ∧ getSlot n.val s = k ∧ k.st = .active ∧ k.rotation = 1 ∧ attached s = []) ∧
    (∃ (side : Side) (n : Fin 64) (k : KeySlot) (s : State), s.powered = true ∧ takesSecCmd side s ∧ getSlot n.val s = k ∧ k.st = .active ∧ k.rotation = 1 ∧ attached s ≠ []) ∧
    (∃ (side : Side) (n : Fin 64) (k : KeySlot) (s : State), s.powered = true ∧ takesSecCmd side s ∧ getSlot n.val s = k ∧ (k.st ≠ .active ∨ k.rotation ≠ 0)) ∧
    (∃ (side : Side) (n : Fin 64) (k : KeySlot) (s : State), s.powered = true ∧ takesSecCmd side s ∧ getSlot n.val s = k ∧ (k.st ≠ .active ∨ k.rotation ≠ 1)) ∧
    (∃ (f : Frame) (x : Slot) (r : SecRun) (s : State), s.powered = true ∧ rotationRun s = some r ∧ f.ty = tyMgmt ∧ f.data = [x] ∧ slotByte x 0 = 0x25 ∧ slotByte x 1 = (getSlot r.slot s).partition ∧ BitVec.ofNat 16 (x.toNat / 2 ^ 16) = r.tag ∧ eidPart f.src = (partId s).toNat ∧ localIndex f.src ∈ r.waiting ∧ ((∀ i ∈ r.waiting, i = localIndex f.src))) ∧
    (∃ (f : Frame) (x : Slot) (r : SecRun) (s : State), s.powered = true ∧ rotationRun s = some r ∧ f.ty = tyMgmt ∧ f.data = [x] ∧ slotByte x 0 = 0x25 ∧ slotByte x 1 = (getSlot r.slot s).partition ∧ BitVec.ofNat 16 (x.toNat / 2 ^ 16) = r.tag ∧ eidPart f.src = (partId s).toNat ∧ localIndex f.src ∈ r.waiting ∧ ((∃ i ∈ r.waiting, i ≠ localIndex f.src))) ∧
    (∃ (f : Frame) (s : State), s.powered = true ∧ f.ty ≠ tyMgmt) ∧
    (∃ (r : SecRun) (s : State), s.powered = true ∧ rotationRun s = some r ∧ r.beganAt + 1000000 ≤ s.clock) ∧
    (∃ (r : SecRun) (s : State), s.powered = true ∧ rotationRun s = some r ∧ s.clock < r.beganAt + 1000000) ∧
    (∃ (s : State), s.powered = true ∧ rotationRun s = none) ∧
    (∃ (n : Fin 64) (s : State), s.powered = true ∧ ((getSlot n.val s).rotation ≠ 2 ∨ (∀ t ∈ (getSlot n.val s).windowEnd, s.clock < t))) ∧
    (∃ (side : Side) (n : Fin 64) (k : KeySlot) (s : State), s.powered = true ∧ takesSecCmd side s ∧ getSlot n.val s = k ∧ (k.st = .empty ∨ k.st = .fenced ∨ k.st = .clearing)) ∧
    (∃ (n : Fin 64) (k : KeySlot) (s : State), s.powered = true ∧ getSlot n.val s = k ∧ (k.st ≠ .fenced ∨ (drained k.partition s = false ∧ drainOver n.val s = false))) :=
  ⟨⟨.host, 2, { ks .active with rotation := 0 }, wks { ks .active with rotation := 0 } w0, by unfold takesSecCmd; decide +kernel⟩,
    ⟨.host, 2, { ks .active with rotation := 0 }, wks { ks .active with rotation := 0 } (watt w0), by unfold takesSecCmd; decide +kernel⟩,
    ⟨.host, 2, { ks .active with rotation := 1 }, wks { ks .active with rotation := 1 } w0, by unfold takesSecCmd; decide +kernel⟩,
    ⟨.host, 2, { ks .active with rotation := 1 }, wks { ks .active with rotation := 1 } (watt w0), by unfold takesSecCmd; decide +kernel⟩,
    ⟨.host, 2, { ks .active with rotation := 1 }, wks { ks .active with rotation := 1 } w0, by unfold takesSecCmd; decide +kernel⟩,
    ⟨.host, 2, { ks .active with rotation := 0 }, wks { ks .active with rotation := 0 } w0, by unfold takesSecCmd; decide +kernel⟩,
    ⟨{ f0 with ty := tyMgmt, src := selfEid 3 w0, data := [BitVec.ofNat 256 (0x25 + 7 * 2^8 + 9 * 2^16 + 0 * 2^128)] }, BitVec.ofNat 256 (0x25 + 7 * 2^8 + 9 * 2^16 + 0 * 2^128), ⟨opStage, 2, 0, 9, [3], none⟩, { wks (ks .active) w0 with tenant.run := some ⟨opStage, 2, 0, 9, [3], none⟩ }, by decide +kernel⟩,
    ⟨{ f0 with ty := tyMgmt, src := selfEid 3 w0, data := [BitVec.ofNat 256 (0x25 + 7 * 2^8 + 9 * 2^16 + 0 * 2^128)] }, BitVec.ofNat 256 (0x25 + 7 * 2^8 + 9 * 2^16 + 0 * 2^128), ⟨opStage, 2, 0, 9, [3, 4], none⟩, { wks (ks .active) w0 with tenant.run := some ⟨opStage, 2, 0, 9, [3, 4], none⟩ }, by decide +kernel⟩,
    ⟨f0, w0, by decide +kernel⟩,
    ⟨⟨opStage, 2, 0, 9, [3], none⟩, { wks (ks .active) w0 with tenant.run := some ⟨opStage, 2, 0, 9, [3], none⟩, clock := 1000000 }, by decide +kernel⟩,
    ⟨⟨opStage, 2, 0, 9, [3], none⟩, { wks (ks .active) w0 with tenant.run := some ⟨opStage, 2, 0, 9, [3], none⟩, clock := 999999 }, by decide +kernel⟩,
    ⟨w0, by decide +kernel⟩,
    ⟨2, { wks { ks .active with rotation := 2, windowEnd := some 5 } w0 with clock := 4 }, by decide +kernel⟩,
    ⟨.host, 2, ks .fenced, { wks (ks .fenced) w0 with tenant.permits := [⟨99, 1, 7, 7, 5, 1⟩, ⟨98, 1, 8, 9, 5, 1⟩], req.reqs := [{ rq .store tyStore with frame := { f0 with part := 7 } }] }, by unfold takesSecCmd; decide +kernel⟩,
    ⟨2, ks .fenced, { wks (ks .fenced) w0 with req.reqs := [{ rq .store tyStore with frame := { f0 with part := 7 } }] }, by decide +kernel⟩⟩

theorem meets_SidebandMessages :
    (∃ (inst : Byte) (m : BitVec 16) (cap : BitVec 16) (n : BitVec 32) (o : BitVec 32) (l : BitVec 16) (cert : EnrolCert) (s : State) (c : Instr), c ∈ [(.ownerGet inst : Instr), .ownerSet inst m, .capSet inst cap, .capGet inst, .snapshot inst, .snapRead inst n o l, .enrol inst cert] ∧ s.powered = true ∧ sidebandUp s = false) ∧
    (∃ (inst : Byte) (m : BitVec 16) (cap : BitVec 16) (n : BitVec 32) (o : BitVec 32) (l : BitVec 16) (cert : EnrolCert) (s : State) (c : Instr), c ∈ [(.ownerGet inst : Instr), .ownerSet inst m, .capSet inst cap, .capGet inst, .snapshot inst, .snapRead inst n o l, .enrol inst cert] ∧ s.powered = true ∧ sidebandUp s = true ∧ 4 ≤ s.side.capWaiting.length) ∧
    (∃ (s : State), s.powered = true ∧ sidebandUp s = true ∧ s.side.capWaiting.length < 4) ∧
    (∃ (cap : BitVec 16) (s : State), s.powered = true ∧ sidebandUp s = true ∧ s.side.capWaiting.length < 4 ∧ 450 ≤ cap.toNat ∧ cap.toNat ≤ 800) ∧
    (∃ (cap : BitVec 16) (s : State), s.powered = true ∧ sidebandUp s = true ∧ s.side.capWaiting.length < 4 ∧ (cap.toNat < 450 ∨ 800 < cap.toNat)) ∧
    (∃ (inst : Byte) (cap : BitVec 16) (t : List (Byte × BitVec 16)) (s : State), s.powered = true ∧ s.side.capWaiting = (inst, cap) :: t) ∧
    (∃ (s : State), s.powered = true ∧ s.side.capWaiting = []) ∧
    (∃ (s : State), s.powered = true ∧ s.power.leaseEnd = none) ∧
    (∃ (t : Nat) (s : State), s.powered = true ∧ s.power.leaseEnd = some t ∧ s.clock < t) ∧
    (∃ (s : State), s.powered = true ∧ sidebandUp s = true ∧ s.side.capWaiting.length < 4 ∧ s.observe.capture = none) ∧
    (∃ (s : State) (n : Nat) (t0 : Nat), s.powered = true ∧ sidebandUp s = true ∧ s.side.capWaiting.length < 4 ∧ s.observe.capture = some (n, t0)) ∧
    (∃ (side : Side) (s : State), s.powered = true ∧ gate side bDBG false .kpr s = .go ∧ getBit rCairnCtl 63 s = true ∧ s.observe.capture = none) ∧
    (∃ (side : Side) (s : State), s.powered = true ∧ gate side bDBG false .kpr s = .go ∧ getBit rCairnCtl 63 s = true ∧ s.observe.capture ≠ none) ∧
    (∃ (side : Side) (s : State), s.powered = true ∧ gate side bDBG false .kpr s = .go ∧ getBit rCairnCtl 63 s = false) ∧
    (∃ (n : Nat) (t0 : Nat) (s : State), s.powered = true ∧ s.observe.capture = some (n, t0)) ∧
    (∃ (s : State), s.powered = true ∧ s.observe.capture = none) ∧
    (∃ (n : BitVec 32) (o : BitVec 32) (l : BitVec 16) (s : State), s.powered = true ∧ sidebandUp s = true ∧ s.side.capWaiting.length < 4 ∧ ((∃ c ∈ s.observe.cairns, c.number = n.toNat)) ∧ 1 ≤ l.toNat ∧ l.toNat ≤ 1024 ∧ o.toNat + l.toNat ≤ 2 ^ 24) ∧
    (∃ (n : BitVec 32) (o : BitVec 32) (l : BitVec 16) (s : State), s.powered = true ∧ sidebandUp s = true ∧ s.side.capWaiting.length < 4 ∧ (l = 0 ∨ 1024 < l.toNat ∨ 2 ^ 24 < o.toNat + l.toNat ∨ (∀ c ∈ s.observe.cairns, c.number ≠ n.toNat))) ∧
    (∃ (cert : EnrolCert) (s : State), s.powered = true ∧ sidebandUp s = true ∧ s.side.capWaiting.length < 4 ∧ cert.wellFormed = true ∧ cert.sigOk = true ∧ cert.deviceId = deviceId ∧ cert.partId = partId s) ∧
    (∃ (cert : EnrolCert) (s : State) (st : Byte), s.powered = true ∧ sidebandUp s = true ∧ s.side.capWaiting.length < 4 ∧ ((cert.wellFormed = false ∧ st = stMalformed) ∨ (cert.wellFormed = true ∧ cert.sigOk = false ∧ st = stIntegrity) ∨ (cert.wellFormed = true ∧ cert.sigOk = true ∧ (cert.deviceId ≠ deviceId ∨ cert.partId ≠ partId s) ∧ st = stDenied))) ∧
    (∃ (s : State), s.powered = true) :=
  ⟨⟨3, 5, 600, 1, 0, 1, ⟨true, true, 0, 0⟩, { w0 with power.stage := 1 }, (.ownerGet 3 : Instr), by decide +kernel⟩,
    ⟨3, 5, 600, 1, 0, 1, ⟨true, true, 0, 0⟩, { w0 with side.capWaiting := [(0, 500), (0, 500), (0, 500), (0, 500)] }, (.ownerGet 3 : Instr), by decide +kernel⟩,
    ⟨{ w0 with side.capWaiting := [] }, by decide +kernel⟩,
    ⟨450, { w0 with side.capWaiting := [(0, 500), (0, 500), (0, 500)] }, by decide +kernel⟩,
    ⟨449, { w0 with side.capWaiting := [(0, 500), (0, 500), (0, 500)] }, by decide +kernel⟩,
    ⟨3, 600, [(4, 700)], { w0 with side.capWaiting := [(3, 600), (4, 700)] }, by decide +kernel⟩,
    ⟨w0, by decide +kernel⟩,
    ⟨w0, by decide +kernel⟩,
    ⟨5, { w0 with power.leaseEnd := some 5, clock := 4 }, by decide +kernel⟩,
    ⟨{ w0 with observe.capture := none, observe.cairns := [⟨4, 0, 1, []⟩] }, by decide +kernel⟩,
    ⟨{ w0 with observe.capture := some (3, 1), observe.cairns := [⟨4, 0, 1, []⟩] }, 3, 1, by decide +kernel⟩,
    ⟨.host, { withRegs [(rCairnCtl, 0x8000000000000004)] w0 with observe.capture := none, observe.cairns := [⟨4, 0, 1, []⟩] }, by decide +kernel⟩,
    ⟨.host, { withRegs [(rCairnCtl, 0x8000000000000004)] w0 with observe.capture := some (3, 1), observe.cairns := [⟨4, 0, 1, []⟩] }, by decide +kernel⟩,
    ⟨.host, { withRegs [(rCairnCtl, 4)] w0 with observe.capture := none, observe.cairns := [⟨4, 0, 1, []⟩] }, by decide +kernel⟩,
    ⟨8, 1, { w0 with observe.capture := some (8, 1), observe.cairns := [⟨4, 0, 1, []⟩, ⟨5, 0, 1, []⟩], resets := [] }, by decide +kernel⟩,
    ⟨w0, by decide +kernel⟩,
    ⟨4, 16777215, 1, put8 (cairnBase + 0xFFFFFF - 6) 77 { w0 with observe.cairns := [⟨4, 0, 1, []⟩] }, by decide +kernel⟩,
    ⟨4, 0, 0, put8 (cairnBase + 0xFFFFFF - 6) 77 { w0 with observe.cairns := [⟨4, 0, 1, []⟩] }, by decide +kernel⟩,
    ⟨⟨true, true, deviceId, partId w0⟩, w0, by decide +kernel, by decide +kernel, by decide +kernel, by decide +kernel, by decide +kernel, by rfl, by decide +kernel⟩,
    ⟨⟨true, false, 0, 0⟩, w0, stIntegrity, by decide +kernel⟩,
    ⟨{ wse .doe w0 with side.dynAddr := some 9, side.eid := 8 }, by decide +kernel⟩⟩

theorem meets_BusControlAndSensors :
    (∃ (s : State), s.powered = true ∧ mctpControlUp s = true ∧ s.side.dynAddr = none) ∧
    (∃ (s : State), s.powered = true ∧ mctpControlUp s = true ∧ s.side.dynAddr ≠ none) ∧
    (∃ (st : BitVec 7) (s : State), s.powered = true ∧ mctpControlUp s = true ∧ st ≠ s.img.staticAddr) ∧
    (∃ (e : Byte) (s : State), s.powered = true ∧ mctpControlUp s = true ∧ e ≠ 0 ∧ e ≠ 255) ∧
    (∃ (e : Byte) (s : State), s.powered = true ∧ mctpControlUp s = true ∧ (e = 0 ∨ e = 255)) ∧
    (∃ (ty : Byte) (s : State), s.powered = true ∧ mctpControlUp s = true ∧ (ty = 0 ∨ ty = 1 ∨ ty = 0x7E)) ∧
    (∃ (ty : Byte) (s : State), s.powered = true ∧ mctpControlUp s = true ∧ ty ≠ 0 ∧ ty ≠ 1 ∧ ty ≠ 0x7E) ∧
    (∃ (sel : Byte) (s : State), s.powered = true ∧ mctpControlUp s = true ∧ sel ≠ 0) ∧
    (∃ (sel : Byte) (s : State), s.powered = true ∧ mctpControlUp s = true ∧ sel = 0) ∧
    (∃ (c : Byte) (s : State), s.powered = true ∧ mctpControlUp s = true ∧ c ≠ 4 ∧ 1 ≤ c.toNat ∧ c.toNat ≤ 5) ∧
    (∃ (c : Byte) (s : State), s.powered = true ∧ mctpControlUp s = true ∧ (c = 0 ∨ 6 ≤ c.toNat)) ∧
    (∃ (a : BitVec 7) (st : BitVec 7) (e : Byte) (s : State) (c : Instr), c ∈ [(.entdaa a : Instr), .setdasa st a, .setEndpointId e, .getEndpointId, .getMctpVersionSupport e, .getMessageTypeSupport, .getVendorDefinedMessageSupport e, .pldmBaseCommand e, .sensorPoll e] ∧ s.powered = true ∧ mctpControlUp s = false) ∧
    (∃ (i : Byte) (s : State), s.powered = true ∧ sidebandUp s = true ∧ sensorValue i.toNat s = none) ∧
    (∃ (s : State), s.powered = true) :=
  ⟨⟨{ w0 with side.dynAddr := none }, by decide +kernel⟩,
    ⟨{ w0 with side.dynAddr := some 9 }, by decide +kernel⟩,
    ⟨9, { w0 with side.dynAddr := none }, by decide +kernel⟩,
    ⟨8, w0, by decide +kernel⟩,
    ⟨0, w0, by decide +kernel⟩,
    ⟨0, w0, by decide +kernel⟩,
    ⟨62, w0, by decide +kernel⟩,
    ⟨1, w0, by decide +kernel⟩,
    ⟨0, w0, by decide +kernel⟩,
    ⟨1, w0, by decide +kernel⟩,
    ⟨0, w0, by decide +kernel⟩,
    ⟨5, 9, 8, { w0 with power.stage := 0 }, (.entdaa 5 : Instr), by decide +kernel⟩,
    ⟨0, { w0 with power.watts := 777, memory.stackTbl := [(5, { stack0 with temp := 44 })] }, by decide +kernel⟩,
    ⟨{ w0 with counters := [(0x1960000, 2^64 - 2)], power.throttle := 0, power.cap := 600 }, by decide +kernel⟩⟩

theorem meets_HostPort :
    (∃ (s : State) (c : Instr), c ∈ [(.perstAssert : Instr), .hotReset] ∧ s.powered = true ∧ c = .perstAssert) ∧
    (∃ (s : State) (c : Instr), c ∈ [(.perstAssert : Instr), .hotReset] ∧ s.powered = true ∧ c = .hotReset) ∧
    (∃ (s : State), s.powered = true ∧ s.host.linkUp = false ∧ s.host.perst = false) ∧
    (∃ (s : State), s.powered = true ∧ s.host.linkUp = false ∧ s.host.perst = true) ∧
    (∃ (s : State), s.powered = true ∧ s.host.linkUp = true) ∧
    (∃ (s : State), s.powered = true) ∧
    (∃ (w : Fin 4) (s : State), s.powered = true ∧ s.host.configured = true ∧ (getDecoder w.val s).committed = false) ∧
    (∃ (w : Fin 4) (s : State), s.powered = true ∧ (s.host.configured = false ∨ (getDecoder w.val s).committed = true)) ∧
    (∃ (side : Side) (s : State), s.powered = true ∧ gate side bHST false .ept s = .go) ∧
    (∃ (s : State), s.powered = true ∧ s.host.cacheReads = []) ∧
    (∃ (id : Nat) (a : Nat) (t : List (Nat × Nat)) (s : State), s.powered = true ∧ s.host.cacheReads = (id, a) :: t ∧ findReq id s = none) ∧
    (∃ (s : State), s.powered = true ∧ s.host.linkUp = true) ∧
    (∃ (s : State), s.powered = true ∧ s.host.linkUp = false) ∧
    (∃ (i : Byte) (s : State), s.powered = true ∧ doeUp s = true ∧ i = 0) ∧
    (∃ (i : Byte) (s : State), s.powered = true ∧ doeUp s = true ∧ i = 1) ∧
    (∃ (i : Byte) (s : State), s.powered = true ∧ doeUp s = true ∧ (i = 2 ∨ i = 3)) ∧
    (∃ (i : Byte) (s : State), s.powered = true ∧ doeUp s = true ∧ 4 ≤ i.toNat) ∧
    (∃ (h : BitVec 16) (s : State), s.powered = true ∧ doeUp s = true ∧ (committedWindows s)[h.toNat]? = none) ∧
    (∃ (s : State), s.powered = true ∧ doeUp s = false) ∧
    (∃ (env : Envelope) (x : Session) (b : List Byte) (s : State), s.powered = true ∧ getSession env.session.val s = some x ∧ sessionServed x s ∧ env.tagOk = true ∧ env.counter.toNat = x.rx ∧ (x.via = .mctp ∨ b = [])) ∧
    (∃ (env : Envelope) (x : Session) (s : State), s.powered = true ∧ getSession env.session.val s = some x ∧ sessionServed x s ∧ ((env.tagOk = true → env.counter.toNat ≠ x.rx))) ∧
    (∃ (env : Envelope) (x : Session) (b : List Byte) (s : State), s.powered = true ∧ getSession env.session.val s = some x ∧ x.via = .doe ∧ sessionServed x s ∧ env.tagOk = true ∧ env.counter.toNat = x.rx ∧ b ≠ []) :=
  ⟨⟨{ { wid w0 with host.cacheReads := [(1, 64)], host.decoders := [(2, ⟨0, 64, true, false⟩)], host.doeBusy := true, req.reqs := [rw2] } with host.linkUp := true }, (.perstAssert : Instr), by decide +kernel⟩,
    ⟨{ { wid w0 with host.cacheReads := [(1, 64)], host.decoders := [(2, ⟨0, 64, true, false⟩)], host.doeBusy := true, req.reqs := [rw2] } with host.linkUp := true }, (.hotReset : Instr), by decide +kernel⟩,
    ⟨{ w0 with host.linkUp := false, host.perst := false }, by decide +kernel⟩,
    ⟨{ w0 with host.linkUp := false, host.perst := true }, by decide +kernel⟩,
    ⟨{ wid w0 with host.cacheReads := [(1, 64)], host.decoders := [(2, ⟨0, 64, true, false⟩)], host.doeBusy := true, req.reqs := [rw2] }, by decide +kernel⟩,
    ⟨{ w0 with power.stage := 8 }, by decide +kernel⟩,
    ⟨3, { (withRegs [(rHstWin 3, 0x8000000000000001)] w0) with host.configured := true, host.decoders := [] }, by decide +kernel⟩,
    ⟨2, { wid w0 with host.cacheReads := [(1, 64)], host.decoders := [(2, ⟨0, 64, true, false⟩)], host.doeBusy := true, req.reqs := [rw2] }, by decide +kernel⟩,
    ⟨.host, { w0 with host.decoders := [] }, by decide +kernel⟩,
    ⟨w0, by decide +kernel⟩,
    ⟨1, 64, [], { { wid w0 with host.cacheReads := [(1, 64)], host.decoders := [(2, ⟨0, 64, true, false⟩)], host.doeBusy := true, req.reqs := [rw2] } with req.reqs := [] }, by decide +kernel⟩,
    ⟨{ w0 with host.linkUp := true }, by decide +kernel⟩,
    ⟨{ w0 with host.linkUp := false }, by decide +kernel⟩,
    ⟨0, { { wid w0 with host.cacheReads := [(1, 64)], host.decoders := [(2, ⟨0, 64, true, false⟩)], host.doeBusy := true, req.reqs := [rw2] } with host.doeBusy := false }, by decide +kernel⟩,
    ⟨1, { { wid w0 with host.cacheReads := [(1, 64)], host.decoders := [(2, ⟨0, 64, true, false⟩)], host.doeBusy := true, req.reqs := [rw2] } with host.doeBusy := false }, by decide +kernel⟩,
    ⟨2, { { wid w0 with host.cacheReads := [(1, 64)], host.decoders := [(2, ⟨0, 64, true, false⟩)], host.doeBusy := true, req.reqs := [rw2] } with host.doeBusy := false }, by decide +kernel⟩,
    ⟨4, { { wid w0 with host.cacheReads := [(1, 64)], host.decoders := [(2, ⟨0, 64, true, false⟩)], host.doeBusy := true, req.reqs := [rw2] } with host.doeBusy := false }, by decide +kernel⟩,
    ⟨1, { { wid w0 with host.cacheReads := [(1, 64)], host.decoders := [(2, ⟨0, 64, true, false⟩)], host.doeBusy := true, req.reqs := [rw2] } with host.doeBusy := false }, by decide +kernel⟩,
    ⟨{ w0 with host.linkUp := false, host.configured := false }, by decide +kernel⟩,
    ⟨⟨1, 4, true⟩, ses0 .mctp, [7], wse .mctp w0, by unfold sessionServed; decide +kernel⟩,
    ⟨⟨1, 5, true⟩, ses0 .doe, wse .doe w0, by unfold sessionServed; decide +kernel⟩,
    ⟨⟨1, 4, true⟩, ses0 .doe, [7], wse .doe w0, by unfold sessionServed; decide +kernel⟩⟩

end Sys2Proof.Tests
end

/-! PROOF. Words bit by bit: what a mask, a field and a write by access types (R6) do to each bit. -/
namespace Sys2Proof.Machine

/-! ### Words bit by bit -/

theorem getLsbD_maskOf (hi lo i : Nat) (h : hi < 64) :
    (maskOf hi lo).getLsbD i = decide (lo ≤ i ∧ i ≤ hi) := by
  unfold maskOf
  rw [BitVec.getLsbD_ofNat, Nat.testBit_mul_two_pow, Nat.testBit_two_pow_sub_one, Bool.eq_iff_iff]
  simp only [Bool.and_eq_true, decide_eq_true_eq]
  omega

theorem getLsbD_placed (hi lo x i : Nat) (h : hi < 64) :
    (BitVec.ofNat 64 ((x % 2 ^ (hi + 1 - lo)) * 2 ^ lo)).getLsbD i =
      (decide (lo ≤ i ∧ i ≤ hi) && x.testBit (i - lo)) := by
  rw [BitVec.getLsbD_ofNat, Nat.testBit_mul_two_pow, Nat.testBit_mod_two_pow, Bool.eq_iff_iff]
  simp only [Bool.and_eq_true, decide_eq_true_eq]
  constructor
  · rintro ⟨-, inside, below, bit⟩; exact ⟨by omega, bit⟩
  · rintro ⟨inside, bit⟩; exact ⟨by omega, by omega, by omega, bit⟩

/-- A word with a field replaced reads the new value inside the field and the old word outside. -/
theorem getLsbD_setField (v : Word) (hi lo x i : Nat) (h : hi < 64) :
    (setField v hi lo x).getLsbD i = if lo ≤ i ∧ i ≤ hi then x.testBit (i - lo) else v.getLsbD i := by
  unfold setField
  rw [BitVec.getLsbD_or, BitVec.getLsbD_and, BitVec.getLsbD_not, getLsbD_maskOf _ _ _ h, getLsbD_placed _ _ _ _ h]
  by_cases inside : lo ≤ i ∧ i ≤ hi
  · simp [inside]
  · by_cases word : i < 64
    · simp [inside, word]
    · simp [inside, BitVec.getLsbD_of_ge v i (by omega)]

/-- A field of a word is the number its bits spell. -/
theorem testBit_wfield (v : Word) (hi lo i : Nat) :
    (wfield v hi lo).testBit i = (decide (i < hi + 1 - lo) && v.getLsbD (lo + i)) := by
  unfold wfield field
  rw [Nat.testBit_mod_two_pow, ← Nat.shiftRight_eq_div_pow, Nat.testBit_shiftRight]
  rfl

/-- Words that agree on a field's bits have the same field. -/
theorem wfield_congr {v w : Word} {hi lo : Nat} (h : ∀ i, lo ≤ i → i ≤ hi → v.getLsbD i = w.getLsbD i) :
    wfield v hi lo = wfield w hi lo := by
  refine Nat.eq_of_testBit_eq fun i => ?_
  rw [testBit_wfield, testBit_wfield]
  by_cases inside : i < hi + 1 - lo
  · rw [h (lo + i) (by omega) (by omega)]
  · simp [inside]

theorem wfield_setField_self (v : Word) (hi lo x : Nat) (h : hi < 64) :
    wfield (setField v hi lo x) hi lo = x % 2 ^ (hi + 1 - lo) := by
  refine Nat.eq_of_testBit_eq fun i => ?_
  rw [testBit_wfield, getLsbD_setField _ _ _ _ _ h, Nat.testBit_mod_two_pow]
  by_cases inside : i < hi + 1 - lo
  · rw [if_pos (by omega), Nat.add_sub_cancel_left]
  · simp [inside]

/-! ### Field masks and access types (R6) -/

theorem getLsbD_foldl_mask (p : FieldDesc → Bool) (l : List FieldDesc) (m : Word) (i : Nat) :
    (l.foldl (fun m f => if p f then m ||| maskOf f.hi f.lo else m) m).getLsbD i =
      (m.getLsbD i || l.any (fun f => p f && (maskOf f.hi f.lo).getLsbD i)) := by
  induction l generalizing m with
  | nil => simp
  | cons f t ih =>
    rw [List.foldl_cons, ih, List.any_cons, ← Bool.or_assoc]
    cases p f <;> simp

/-- A bit is in a field mask where one of the fields that pass covers it. -/
theorem getLsbD_fieldMask (p : FieldDesc → Bool) (l : List FieldDesc) (i : Nat) :
    (fieldMask p l).getLsbD i = l.any (fun f => p f && (maskOf f.hi f.lo).getLsbD i) := by
  simp [fieldMask, getLsbD_foldl_mask]

/-- What a write leaves in a bit by its access type (R6). -/
theorem getLsbD_accessWrite (fields : List FieldDesc) (locked : Bool) (old v : Word) (i : Nat) :
    (accessWrite fields locked old v).getLsbD i =
      (let wr := fieldMask (fun f => decide (f.acc = .rw ∨ f.acc = .rws ∨ (f.acc = .rwl ∧ locked = false))) fields
       let wc := fieldMask (fun f => decide (f.acc = .w1c)) fields
       let ws := fieldMask (fun f => decide (f.acc = .w1s)) fields
       ((if wr.getLsbD i then v.getLsbD i else old.getLsbD i) && !(v.getLsbD i && wc.getLsbD i)) ||
         (v.getLsbD i && ws.getLsbD i)) := by
  by_cases word : i < 64
  · simp only [accessWrite, BitVec.getLsbD_or, BitVec.getLsbD_and, BitVec.getLsbD_not, word, decide_true, Bool.true_and]
    generalize (fieldMask _ _).getLsbD i = wr
    cases wr <;> simp
  · simp [BitVec.getLsbD_of_ge _ i (Nat.le_of_not_lt word)]

end Sys2Proof.Machine

/-! PROOF. What the shared operations leave alone, and commands that put nothing out of service. -/
namespace Sys2Proof.Machine

/-! ### Commands that may put the part out of service -/

/-- An effect that leaves the power state alone puts nothing out of service: no collective ends with it. -/
theorem settleOos_of_power {f : State → State} {s : State} (h : (f s).power = s.power) : settleOos f s = f s := by
  simp [settleOos, h]

theorem actSettled_on {f : State → State} {s : State} (hs : s.powered = true) (h : (f s).power = s.power) :
    actSettled s f = .next (f s) := by
  rw [actSettled, act_on hs, settleOos_of_power h]

/-! ### What the shared operations leave alone -/

theorem setFlag_side {o : Nat} (h : o ≠ rKprAttn) (b : Nat) (s : State) : (setFlag o b s).side = s.side := by
  simp only [setFlag, h, if_false]
  split
  · rfl
  · split <;> rfl

theorem getField_setFlag_outside {o b hi lo : Nat} (hb : b < 64) (out : b < lo ∨ hi < b) (s : State) :
    getField o hi lo (setFlag o b s) = getField o hi lo s :=
  wfield_congr fun i below above => by
    have bit := getBit_setFlag hb o i s
    rw [decide_eq_false (by omega), Bool.or_false] at bit
    exact bit

theorem getField_putField_self (o hi lo x : Nat) (s : State) (h : hi < 64) :
    getField o hi lo (putField o hi lo x s) = x % 2 ^ (hi + 1 - lo) := by
  rw [getField, putField, getReg_putReg_self, wfield_setField_self _ _ _ _ h]

theorem prof_frame (b i p e n : Nat) (s : State) : prof b i p e n s =
    { s with counters := (prof b i p e n s).counters } := by
  unfold prof
  refine List.foldlRecOn (motive := fun t : State => t = { s with counters := t.counters }) _ _ rfl
    fun t (ht : t = { s with counters := t.counters }) o _ => ?_
  rw [ht]; rfl

theorem profItem_frame (b : Nat) (s : State) : profItem b s = { s with counters := (profItem b s).counters } := by
  unfold profItem
  rw [prof_frame b 0 0 evOut, prof_frame b 0 0 evIn]

end Sys2Proof.Machine

/-! PROOF. The reset state, and a part without power. -/
namespace Sys2Proof.Machine

/-- Settles O5: every part of the statement is a field of `State.reset` as it is written. -/
theorem resetMeetsInvariant : Obligations.ResetMeetsInvariant := ⟨rfl, rfl, rfl, rfl, rfl⟩

/-- An outcome that depends on the power is, without it, the state as it was. -/
theorem next_if_off {s t : State} (h : s.powered = false) :
    (.next (if s.powered then t else s) : Host.Outcome State Fault Refusal) = .next s := by simp [h]

/-- Settles O6: each command but the four of the supply is an `act`, which a part without power does not take. -/
theorem noPowerNoEffect : Obligations.NoPowerNoEffect := by
  intro c s hs hPowerApplied hInputQualified hBrownout hOvervoltage
  cases c
  case powerApplied => exact absurd rfl hPowerApplied
  case inputQualified => exact absurd rfl hInputQualified
  case brownout => exact absurd rfl hBrownout
  case overvoltage => exact absurd rfl hOvervoltage
  all_goals exact next_if_off hs

end Sys2Proof.Machine

/-! PROOF. The events of the 48 V input (R394, R400, R410). -/
namespace Sys2Proof.Machine

/-! ### The supply -/

/-- An input that stands in range is qualified once 100 ms have passed (R394, R410). -/
theorem inputStood_standing {s : State} {t : Nat} (h : s.power.supply = .standby t ∨ s.power.supply = .above t) :
    inputStood s = due (t + 100000000) s := by
  rcases h with h | h <;> simp [inputStood, h]

theorem exec_inputQualified_of_stood {s : State} (h : inputStood s = true) :
    exec .inputQualified s = .next (pwrReset { s with power.supply := .qualified }) :=
  congrArg Host.Outcome.next (if_pos h)

theorem exec_inputQualified_of_not_stood {s : State} (h : inputStood s = false) :
    exec .inputQualified s = .next s :=
  congrArg Host.Outcome.next (if_neg (by simp [h]))

/-- The keeper's last entry as the input fails: it is made while there is power, and touches the service state alone. -/
def noteInputLost (s : State) : State := if s.powered then logEvent bKPR 0 11 0 0 0 s else s

theorem noteInputLost_frame (s : State) : noteInputLost s = { s with service := (noteInputLost s).service } := by
  unfold noteInputLost
  split
  · exact logEvent_frame ..
  · rfl

theorem exec_brownout_of_on {s : State} (h : s.power.supply ≠ .off) : exec .brownout s =
    .next { s with powered := false, power := { s.power with supply := .off, tripped := false },
                   service := (noteInputLost s).service } := by
  have e : exec .brownout s = .next (powerOff
      { noteInputLost s with power.supply := .off, power.tripped := false }) := congrArg Host.Outcome.next (if_neg h)
  rw [e, noteInputLost_frame]
  rfl

theorem exec_overvoltage_of_on {s : State} (h : s.power.supply ≠ .off) : exec .overvoltage s =
    .next { s with powered := false, power := { s.power with supply := .above s.clock },
                   service := (noteInputLost s).service } := by
  have e : exec .overvoltage s = .next (powerOff
      { noteInputLost s with power.supply := .above (noteInputLost s).clock }) := congrArg Host.Outcome.next (if_neg h)
  rw [e, noteInputLost_frame]
  rfl

/-- Settles O7: the events of the input one by one; that a brownout ends a trip (`tripped := false`) is log entry
103. -/
theorem supplyEvents : Obligations.SupplyEvents := by
  refine ⟨fun s off => ?_, fun s t standing passed => ?_, fun s t standing early => ?_, fun s on => ?_, fun s on => ?_⟩
  · exact congrArg Host.Outcome.next (if_pos off)
  · have stood : inputStood s = true := by simp [inputStood_standing standing, due, passed]
    exact ⟨_, exec_inputQualified_of_stood stood, rfl, rfl, rfl, rfl, rfl, rfl, rfl, rfl, rfl, rfl, rfl, rfl⟩
  · have notYet : inputStood s = false := by simp [inputStood_standing standing, due, early]
    exact exec_inputQualified_of_not_stood notYet
  · exact ⟨_, exec_brownout_of_on on, rfl, rfl, rfl⟩
  · exact ⟨_, exec_overvoltage_of_on on, rfl, rfl, rfl⟩

end Sys2Proof.Machine

/-! PROOF. Writes of registers: by access types, KPR_ATTN, and those the host may not make (R373, R379, R381, R437). -/
namespace Sys2Proof.Machine

/-! ### Register writes (R6, R435 to R439) -/

theorem exec_registerWrite {side : Side} {off : BitVec 32} {full : Bool} {v c : Word} {s : State}
    (hs : s.powered = true) (h : (registerWrite side off.toNat full v c s).power = s.power) :
    exec (.registerWrite side off full v c) s = .next (registerWrite side off.toNat full v c s) :=
  actSettled_on hs h

theorem registerWrite_decoded {o : Nat} {d : RegDesc} (h : regDesc o = some d) (side : Side) (v c : Word) (s : State) :
    registerWrite side o true v c s = regWriteFrom side o d v c s := by
  simp [registerWrite, h]

/-- A write that takes its effect by the access types of the fields (R6). -/
theorem getReg_plainWrite_self {o : Nat} {d : RegDesc} (h : regDesc o = some d) (v : Word) (s : State) :
    getReg o (plainWrite o v s) = accessWrite d.fields (swcLocked s) (getReg o s) v := by
  simp only [plainWrite, h]
  split <;> simp [blockEvent]

theorem getReg_plainWrite_ne {o p : Nat} (h : p ≠ o) (v : Word) (s : State) :
    getReg p (plainWrite o v s) = getReg p s := by
  unfold plainWrite
  split
  · rfl
  · dsimp only
    split <;> simp [blockEvent, getReg_putReg_ne h]

theorem plainWrite_frame (o : Nat) (v : Word) (s : State) : plainWrite o v s =
    { s with regs := (plainWrite o v s).regs, counters := (plainWrite o v s).counters } := by
  unfold plainWrite
  split
  · rfl
  · dsimp only
    split <;> rfl

theorem countKept_frame (o : Nat) (v c : Word) (s : State) : countKept o v c s =
    { s with counters := (countKept o v c s).counters } := by
  unfold countKept
  split <;> rfl

theorem getReg_countKept (p o : Nat) (v c : Word) (s : State) : getReg p (countKept o v c s) = getReg p s := by
  rw [countKept_frame]; rfl

/-- Where the part sets no bit in the cycle of the write, none is kept. -/
theorem keptBits_zero (o : Nat) (v : Word) (s : State) : keptBits o v 0 s = 0 := by
  unfold keptBits
  split <;> simp

/-- A register without rules of its own is written by its access types, but for the W1C bits that the part sets in the
same cycle (R6, R439). -/
def ordinaryEffect (o : Nat) (v c : Word) (s : State) : State :=
  plainWrite o (v &&& ~~~(keptBits o v c s)) (countKept o v c s)

theorem ordinaryEffect_frame (o : Nat) (v c : Word) (s : State) : ordinaryEffect o v c s =
    { s with regs := (ordinaryEffect o v c s).regs, counters := (ordinaryEffect o v c s).counters } := by
  unfold ordinaryEffect
  rw [plainWrite_frame, countKept_frame]

theorem getReg_ordinaryEffect_ne {o p : Nat} (h : p ≠ o) (v c : Word) (s : State) :
    getReg p (ordinaryEffect o v c s) = getReg p s := by
  rw [ordinaryEffect, getReg_plainWrite_ne h, getReg_countKept]

theorem getReg_ordinaryEffect_self {o : Nat} {d : RegDesc} (h : regDesc o = some d) (v c : Word) (s : State) :
    getReg o (ordinaryEffect o v c s) =
      accessWrite d.fields (swcLocked s) (getReg o s) (v &&& ~~~(keptBits o v c s)) := by
  rw [ordinaryEffect, getReg_plainWrite_self h, getReg_countKept]
  rw [countKept_frame]; rfl

theorem regEffect_kprAttn (v c : Word) (s : State) : regEffect rKprAttn v c s = ordinaryEffect rKprAttn v c s := rfl

theorem regEffect_cairnCtl (v c : Word) (s : State) : regEffect rCairnCtl v c s = ordinaryEffect rCairnCtl v c s := rfl

/-! ### KPR_ATTN (R379) -/

theorem regDesc_kprAttn :
    regDesc rKprAttn = some ⟨bKPR, .kpr, [⟨37, 32, .rw, .img⟩, ⟨5, 0, .w1c, .zero⟩]⟩ := by decide

theorem getLsbD_accessWrite_kprAttn {d : RegDesc} (h : regDesc rKprAttn = some d) (locked : Bool) (old v : Word)
    (i : Nat) : (accessWrite d.fields locked old v).getLsbD i =
      if 32 ≤ i ∧ i ≤ 37 then v.getLsbD i else if i ≤ 5 then old.getLsbD i && !(v.getLsbD i) else old.getLsbD i := by
  obtain rfl : _ = d := Option.some.inj (regDesc_kprAttn.symm.trans h)
  simp only [getLsbD_accessWrite, getLsbD_fieldMask, List.any_cons, List.any_nil, getLsbD_maskOf, Nat.reduceLT]
  by_cases enables : 32 ≤ i ∧ i ≤ 37
  · have flags : ¬(i ≤ 5) := by omega
    simp [enables, flags]
  · by_cases flags : i ≤ 5 <;> simp [enables, flags]

theorem getLsbD_keptBits_kprAttn (v c : Word) (s : State) (i : Nat) :
    (keptBits rKprAttn v c s).getLsbD i =
      (v.getLsbD i && c.getLsbD i && (getReg rKprAttn s).getLsbD i && decide (i ≤ 5)) := by
  simp [keptBits, regDesc_kprAttn, getLsbD_fieldMask, getLsbD_maskOf]

/-- A flag written 1 is cleared unless the part sets it in that cycle. -/
theorem getBit_kprAttn_flag {i : Nat} (h : i < 6) (v c : Word) (s : State) :
    getBit rKprAttn i (ordinaryEffect rKprAttn v c s) = (getBit rKprAttn i s && !(wbit v i && !(wbit c i))) := by
  have flags : i ≤ 5 := by omega
  have noEnable : ¬(32 ≤ i ∧ i ≤ 37) := by omega
  have word : i < 64 := by omega
  unfold getBit wbit
  rw [getReg_ordinaryEffect_self regDesc_kprAttn, getLsbD_accessWrite_kprAttn regDesc_kprAttn, if_neg noEnable,
    if_pos flags, BitVec.getLsbD_and, BitVec.getLsbD_not, getLsbD_keptBits_kprAttn]
  cases (getReg rKprAttn s).getLsbD i <;> cases v.getLsbD i <;> simp [flags, word]

theorem getBit_kprAttn_enable {i : Nat} (lo : 32 ≤ i) (hi : i < 38) (v c : Word) (s : State) :
    getBit rKprAttn i (ordinaryEffect rKprAttn v c s) = wbit v i := by
  have noFlag : ¬(i ≤ 5) := by omega
  have word : i < 64 := by omega
  unfold getBit wbit
  rw [getReg_ordinaryEffect_self regDesc_kprAttn, getLsbD_accessWrite_kprAttn regDesc_kprAttn, if_pos (by omega),
    BitVec.getLsbD_and, BitVec.getLsbD_not, getLsbD_keptBits_kprAttn]
  simp [noFlag, word]

theorem exec_registerWrite_kprAttn {side : Side} {v c : Word} {s : State} (hs : s.powered = true)
    (h : gate side bKPR false .kpr s = .go) :
    exec (.registerWrite side 0x48 true v c) s = .next (ordinaryEffect rKprAttn v c s) := by
  have wrote : registerWrite side (0x48 : BitVec 32).toNat true v c s = ordinaryEffect rKprAttn v c s :=
    (registerWrite_decoded regDesc_kprAttn side v c s).trans ((guarded_go _ h).trans (regEffect_kprAttn v c s))
  rw [exec_registerWrite hs (by rw [wrote, ordinaryEffect_frame]), wrote]

/-! ### Host writes that are refused (R373, R381, R437) -/

theorem gate_host_owned {blk : Nat} {s : State} (ready : isReady s = true) (owned : sidebandOwns blk s = true)
    (fixed : Bool) (d : Dom) : gate .host blk fixed d s = .denied := by
  simp [gate, ready, owned]

theorem guarded_host_denied {blk : Nat} {fixed : Bool} {d : Dom} {s : State} (f : State → State)
    (h : gate .host blk fixed d s = .denied) : guarded .host blk fixed d s f = refuseDenied s := by simp [guarded, h]

/-- A write into a domain in reset is only counted (R437). -/
theorem guarded_held {side : Side} {blk : Nat} {fixed : Bool} {d : Dom} {s : State} (f : State → State)
    (h : gate side blk fixed d s = .held) : guarded side blk fixed d s f = bump (rBlockEvents blk) 1 s := by
  simp [guarded, h, blockEvent]

/-- A write dropped as not owned is flagged and counted in HST_STATUS (R381). -/
theorem refuseDenied_eq {s : State} (h : inReset .ept s = false) : refuseDenied s =
    setFlag rHstStatus 3 (putField rHstStatus 63 48 (satAdd 65535 (getField rHstStatus 63 48 s) 1) s) := by
  simp [refuseDenied, h]

theorem refuseDenied_frame (s : State) : refuseDenied s =
    { s with regs := (refuseDenied s).regs, host := (refuseDenied s).host } := by
  unfold refuseDenied
  split
  · rfl
  · generalize satAdd _ _ _ = n
    have side := setFlag_side (o := rHstStatus) (by decide) 3 (putField rHstStatus 63 48 n s)
    rw [setFlag_frame] at side ⊢
    dsimp only at side ⊢
    rw [side]
    rfl

theorem getField_refuseDenied {s : State} (h : inReset .ept s = false) :
    getField rHstStatus 63 48 (refuseDenied s) = min 65535 (getField rHstStatus 63 48 s + 1) := by
  rw [refuseDenied_eq h, getField_setFlag_outside (by decide) (by decide), getField_putField_self _ _ _ _ _ (by decide)]
  exact Nat.mod_eq_of_lt (by unfold satAdd; omega)

theorem getReg_refuseDenied_ne {o : Nat} (h : o ≠ rHstStatus) (s : State) : getReg o (refuseDenied s) = getReg o s := by
  unfold refuseDenied
  split
  · rfl
  · rw [getReg_setFlag_ne h, getReg_putField_ne h]

end Sys2Proof.Machine

/-! PROOF. 32-bit writes, REG_READ and REG_WRITE (R376, R377, R435). -/
namespace Sys2Proof.Machine

/-! ### 32-bit writes (R435) -/

theorem getReg_halfWrite_low {o : Nat} (h : o % 8 = 0) (v : Word) (s : State) :
    getReg o (halfWrite o v s) = setField (getReg o s) 31 0 v.toNat := by
  have word : o / 8 * 8 = o := by omega
  simp [halfWrite, h, word]

theorem getReg_halfWrite_high {o : Nat} (h : o % 8 = 4) (v : Word) (s : State) :
    getReg (o - 4) (halfWrite o v s) = setField (getReg (o - 4) s) 63 32 v.toNat := by
  have word : o / 8 * 8 = o - 4 := by omega
  simp [halfWrite, h, word]

theorem getReg_halfWrite_ne {o p : Nat} (h : p ≠ o / 8 * 8) (v : Word) (s : State) :
    getReg p (halfWrite o v s) = getReg p s := getReg_putReg_ne h _ s

theorem registerWrite_msix {o : Nat} {s : State} (lo : rHstMsix ≤ o) (hi : o < rHstPba) (aligned : o % 4 = 0)
    (free : sidebandOwns bHST s = false) (up : inReset .ept s = false) (v c : Word) :
    registerWrite .host o false v c s = halfWrite o v s := by
  have half : takesHalf o = true := by simp only [takesHalf, decide_eq_true_eq]; exact ⟨aligned, .inl ⟨lo, hi⟩⟩
  have go : gate .host bHST false .ept s = .go := gate_host_go.mpr ⟨.inr (.inr (.inl rfl)), rfl, free, up⟩
  rw [registerWrite, if_neg (by decide), if_pos ⟨rfl, half⟩, guarded_go _ go, if_pos lo]

/-! ### REG_READ (R376, R377) -/

/-- A vendor message that is served runs after the keeper has counted it (R377, R427). -/
theorem sbVendor_served {s : State} (up : sidebandUp s = true) (room : s.side.capWaiting.length < 4) (inst : Byte)
    (f : State → State) : sbVendor inst f s = f (profItem bKPR s) := by
  simp [sbVendor, up, Nat.not_le.mpr room]

theorem getReg_profItem (o b : Nat) (s : State) : getReg o (profItem b s) = getReg o s := by
  rw [profItem_frame]; rfl

theorem sbAnswer_answers (inst st : Byte) (body : List Byte) (s : State) :
    (sbAnswer inst st body s).side.answers = s.side.answers ++ [⟨.sideband, inst, st, body⟩] := rfl

/-- An answer over the side band touches the answers alone. -/
theorem sbAnswer_frame (inst st : Byte) (body : List Byte) (s : State) : sbAnswer inst st body s =
    { s with side.answers := (sbAnswer inst st body s).side.answers } := by
  simp [sbAnswer, answer]

theorem length_bytesOfNat (n v : Nat) : (bytesOfNat n v).length = n := by
  induction n generalizing v with
  | zero => rfl
  | succ n ih => simp [bytesOfNat, ih]

theorem readReg_frame (o : Nat) (s : State) : (readReg o s).2 = { s with freeCtr := (readReg o s).2.freeCtr } := by
  unfold readReg
  split
  · rfl
  · split <;> rfl

theorem readRegs_cons (o : Nat) (t : List Nat) (s : State) : readRegs (o :: t) s =
    (bytesOfNat 8 (readReg o s).1.toNat ++ (readRegs t (readReg o s).2).1, (readRegs t (readReg o s).2).2) := rfl

theorem readRegs_frame (l : List Nat) (s : State) : (readRegs l s).2 =
    { s with freeCtr := (readRegs l s).2.freeCtr } := by
  induction l generalizing s with
  | nil => rfl
  | cons o t ih => rw [readRegs_cons, ih, readReg_frame]

theorem length_readRegs (l : List Nat) (s : State) : (readRegs l s).1.length = 8 * l.length := by
  induction l generalizing s with
  | nil => rfl
  | cons o t ih => rw [readRegs_cons, List.length_append, length_bytesOfNat, ih, List.length_cons]; omega

theorem exec_regRead {inst : Byte} {off : BitVec 32} {n : Byte} {s : State} (hs : s.powered = true)
    (up : sidebandUp s = true) (room : s.side.capWaiting.length < 4) (good : rangeGood off.toNat n.toNat = true) :
    exec (.regRead inst off n) s =
      .next (sbAnswer inst stOk (readRegs (wordOffsets off.toNat n.toNat) (profItem bKPR s)).1
        (readRegs (wordOffsets off.toNat n.toNat) (profItem bKPR s)).2) := by
  have run : exec (.regRead inst off n) s = _ := act_on hs
  rw [run, sbVendor_served up room, if_pos good]

theorem keeperRuns_of_sidebandUp {s : State} (up : sidebandUp s = true) : inReset .kpr s = false := by
  simp only [sidebandUp, keeperRuns, Bool.and_eq_true, Bool.not_eq_true'] at up
  exact up.1

theorem liveWord_kprOwn (s : State) : liveWord rKprOwn s = 0#64 := rfl

theorem readReg_kprOwn {s : State} (h : inReset .kpr s = false) : readReg rKprOwn s = (getReg rKprOwn s, s) := by
  have desc : regDesc rKprOwn = some ⟨bKPR, .kpr, [⟨13, 0, .ro, .img⟩]⟩ := by decide
  simp only [readReg, desc]
  rw [if_neg (by decide), storedWord, if_neg (by simp [h]), liveWord_kprOwn, BitVec.or_zero]

/-! ### REG_WRITE (R376, R377, R437) -/

theorem sidebandMay_profItem (o b : Nat) (s : State) : sidebandMay o (profItem b s) = sidebandMay o s := by
  rw [profItem_frame]; rfl

theorem regWriteMessage_denied {inst : Byte} {o n : Nat} {l : List Word} {s : State} (good : rangeGood o n = true)
    (len : l.length = n) (bad : ∃ i ∈ List.range n, sidebandMay (o + 8 * i) s = false) :
    regWriteMessage inst o n l s = sbAnswer inst stDenied [] s := by
  obtain ⟨i, hi, no⟩ := bad
  have notAll : (wordOffsets o n).all (fun a => sidebandMay a s) = false := by
    rw [List.all_eq_false]
    exact ⟨o + 8 * i, List.mem_map_of_mem hi, by simp [no]⟩
  rw [regWriteMessage, if_neg (by simp [good, len]), if_pos notAll]

theorem exec_regWrite {inst : Byte} {off : BitVec 32} {n : Byte} {l : List Word} {s : State} (hs : s.powered = true)
    (up : sidebandUp s = true) (room : s.side.capWaiting.length < 4)
    (h : (regWriteMessage inst off.toNat n.toNat l (profItem bKPR s)).power = s.power) :
    exec (.regWrite inst off n l) s = .next (regWriteMessage inst off.toNat n.toNat l (profItem bKPR s)) := by
  have served := sbVendor_served up room inst (regWriteMessage inst off.toNat n.toNat l)
  have run : exec (.regWrite inst off n l) s = _ := actSettled_on hs (by rw [served]; exact h)
  rw [run, served]

theorem regDesc_cairnCtl :
    regDesc rCairnCtl = some ⟨bDBG, .kpr, [⟨63, 63, .rw, .zero⟩, ⟨31, 0, .ro, .zero⟩]⟩ := by decide

/-- A write of the cairn snapshot control sets HOST_REQ alone (R428). -/
theorem getReg_cairnCtl_written (w : Word) (s : State) :
    getReg rCairnCtl (ordinaryEffect rCairnCtl w 0 s) = setField (getReg rCairnCtl s) 63 63 (wfield w 63 63) := by
  rw [getReg_ordinaryEffect_self regDesc_cairnCtl, keptBits_zero]
  refine BitVec.eq_of_getLsbD_eq fun i word => ?_
  rw [getLsbD_accessWrite, getLsbD_setField _ _ _ _ _ (by decide), testBit_wfield]
  simp only [getLsbD_fieldMask, List.any_cons, List.any_nil, getLsbD_maskOf, Nat.reduceLT]
  by_cases top : i = 63
  · subst top; simp
  · have below : ¬(63 ≤ i ∧ i ≤ 63) := by omega
    simp [below]

/-- The cairn snapshot control always belongs to the side band (R380). -/
theorem regWriteMessage_cairnCtl {inst : Byte} {w : Word} {s : State} (up : inReset .kpr s = false) :
    regWriteMessage inst 0x1A00000 1 [w] s = ordinaryEffect rCairnCtl w 0 (sbAnswer inst stOk [] s) := by
  have good : rangeGood 0x1A00000 1 = true := by decide
  have words : wordOffsets 0x1A00000 1 = [rCairnCtl] := rfl
  have may : sidebandMay rCairnCtl s = true := by simp [sidebandMay, regDesc_cairnCtl, alwaysSideband]
  have go : gate .sideband bDBG (alwaysSideband rCairnCtl) .kpr (sbAnswer inst stOk [] s) = .go :=
    gate_sideband_go.mpr ⟨.inl (by decide), up⟩
  rw [regWriteMessage, if_neg (by simp [good]), words, if_neg (by simp [may])]
  simp only [List.zip_cons_cons, List.zip_nil_left, writeRegs, regDesc_cairnCtl, regWriteFrom, guarded_go _ go,
    regEffect_cairnCtl]

/-! ### The outcomes of O15 -/

theorem exec_registerWrite_notOwned {off : BitVec 32} {d : RegDesc} {v c : Word} {s : State} (hs : s.powered = true)
    (desc : regDesc off.toNat = some d) (shared : alwaysSideband off.toNat = false) (ready : isReady s = true)
    (owned : sidebandOwns d.blk s = true) :
    exec (.registerWrite .host off true v c) s = .next (refuseDenied s) := by
  have wrote : registerWrite .host off.toNat true v c s = refuseDenied s := by
    rw [registerWrite_decoded desc, regWriteFrom, shared, guarded_host_denied _ (gate_host_owned ready owned _ _)]
  rw [exec_registerWrite hs (by rw [wrote, refuseDenied_frame]), wrote]

theorem exec_registerWrite_inReset {side : Side} {off : BitVec 32} {d : RegDesc} {v c : Word} {s : State}
    (hs : s.powered = true) (desc : regDesc off.toNat = some d)
    (held : gate side d.blk (alwaysSideband off.toNat) d.dom s = .held) :
    exec (.registerWrite side off true v c) s = .next (bump (rBlockEvents d.blk) 1 s) := by
  have wrote : registerWrite side off.toNat true v c s = bump (rBlockEvents d.blk) 1 s :=
    (registerWrite_decoded desc side v c s).trans (guarded_held _ held)
  rw [exec_registerWrite hs (by rw [wrote, bump_power]), wrote]

theorem exec_registerWrite_halfRefused {off : BitVec 32} {v c : Word} {s : State} (hs : s.powered = true)
    (wide : takesHalf off.toNat = false) :
    exec (.registerWrite .host off false v c) s = .next (bump (rBlockEvents bHST) 1 s) := by
  have wrote : registerWrite .host off.toNat false v c s = bump (rBlockEvents bHST) 1 s := by
    rw [registerWrite, if_neg (by decide), if_neg (by simp [wide])]
    rfl
  rw [exec_registerWrite hs (by rw [wrote, bump_power]), wrote]

theorem exec_registerWrite_msix {off : BitVec 32} {v c : Word} {s : State} (hs : s.powered = true)
    (lo : rHstMsix ≤ off.toNat) (hi : off.toNat < rHstPba) (aligned : off.toNat % 4 = 0)
    (free : sidebandOwns bHST s = false) (up : inReset .ept s = false) :
    exec (.registerWrite .host off false v c) s = .next (halfWrite off.toNat v s) := by
  have wrote := registerWrite_msix lo hi aligned free up v c
  rw [exec_registerWrite hs (by rw [wrote]; rfl), wrote]

/-- The keeper's reply to a vendor message that changes nothing else. -/
def sbReply (inst st : Byte) (body : List Byte) (s : State) : State := sbAnswer inst st body (profItem bKPR s)

theorem sbReply_answers (inst st : Byte) (body : List Byte) (s : State) :
    (sbReply inst st body s).side.answers = s.side.answers ++ [⟨.sideband, inst, st, body⟩] := by
  rw [sbReply, sbAnswer_answers, profItem_frame]

theorem sbReply_frame (inst st : Byte) (body : List Byte) (s : State) : sbReply inst st body s =
    { s with side.answers := (sbReply inst st body s).side.answers, counters := (sbReply inst st body s).counters } := by
  unfold sbReply
  rw [sbAnswer_frame, profItem_frame]

theorem exec_regRead_kprOwn {inst : Byte} {s : State} (hs : s.powered = true) (up : sidebandUp s = true)
    (room : s.side.capWaiting.length < 4) :
    exec (.regRead inst 0x40 1) s = .next (sbReply inst stOk (bytesOfNat 8 (getReg rKprOwn s).toNat) s) := by
  have running : inReset .kpr (profItem bKPR s) = false := by
    rw [profItem_frame]; exact keeperRuns_of_sidebandUp up
  have read : readRegs (wordOffsets (0x40 : BitVec 32).toNat (1 : Byte).toNat) (profItem bKPR s) =
      (bytesOfNat 8 (getReg rKprOwn s).toNat, profItem bKPR s) := by
    rw [show wordOffsets (0x40 : BitVec 32).toNat (1 : Byte).toNat = [rKprOwn] from rfl, readRegs_cons,
      readReg_kprOwn running, getReg_profItem]
    simp [readRegs]
  rw [exec_regRead hs up room (by decide), read]
  rfl

theorem exec_regWrite_cairnCtl {inst : Byte} {w : Word} {s : State} (hs : s.powered = true) (up : sidebandUp s = true)
    (room : s.side.capWaiting.length < 4) (out : inReset .kpr s = false) :
    exec (.regWrite inst 0x1A00000 1 [w]) s = .next (ordinaryEffect rCairnCtl w 0 (sbReply inst stOk [] s)) := by
  have running : inReset .kpr (profItem bKPR s) = false := by rw [profItem_frame]; exact out
  have wrote : regWriteMessage inst (0x1A00000 : BitVec 32).toNat (1 : Byte).toNat [w] (profItem bKPR s) =
      ordinaryEffect rCairnCtl w 0 (sbReply inst stOk [] s) := regWriteMessage_cairnCtl running
  rw [exec_regWrite hs up room (by rw [wrote, ordinaryEffect_frame, sbReply_frame]), wrote]

theorem exec_regWrite_denied {inst : Byte} {off : BitVec 32} {n : Byte} {l : List Word} {s : State}
    (hs : s.powered = true) (up : sidebandUp s = true) (room : s.side.capWaiting.length < 4)
    (good : rangeGood off.toNat n.toNat = true) (len : l.length = n.toNat)
    (bad : ∃ i ∈ List.range n.toNat, sidebandMay (off.toNat + 8 * i) s = false) :
    exec (.regWrite inst off n l) s = .next (sbReply inst stDenied [] s) := by
  have refused : regWriteMessage inst off.toNat n.toNat l (profItem bKPR s) = sbReply inst stDenied [] s :=
    regWriteMessage_denied good len (by simpa only [sidebandMay_profItem] using bad)
  rw [exec_regWrite hs up room (by rw [refused, sbReply_frame]), refused]

/-- Settles O15: a write of KPR_ATTN, the writes that are refused, counted or 32 bits wide, and the two messages, each by
its own outcome. -/
theorem registerAccess : Obligations.RegisterAccess := by
  refine ⟨fun side v c s hs go => ?_, fun off d v c s hs desc shared ready owned up => ?_,
    fun side off d v c s hs desc held => exec_registerWrite_inReset hs desc held,
    fun off v c s hs wide => exec_registerWrite_halfRefused hs wide, fun off v c s hs lo hi aligned free up => ?_,
    fun inst s hs up room => ?_, fun inst off n s hs up room good => ?_, fun inst w s hs up room out => ?_,
    fun inst off n l s hs up room good len bad => ?_⟩
  · exact ⟨_, exec_registerWrite_kprAttn hs go, fun i h => getBit_kprAttn_flag h v c s,
      fun i lo hi => getBit_kprAttn_enable lo hi v c s, fun o h => getReg_ordinaryEffect_ne h v c s,
      ordinaryEffect_frame _ v c s⟩
  · refine ⟨_, exec_registerWrite_notOwned hs desc shared ready owned, ?_, getField_refuseDenied up,
      fun o h => getReg_refuseDenied_ne h s, refuseDenied_frame s⟩
    rw [refuseDenied_eq up]
    exact getBit_setFlag_self (by decide) _ _
  · exact ⟨_, exec_registerWrite_msix hs lo hi aligned free up, fun low => getReg_halfWrite_low low v s,
      fun high => getReg_halfWrite_high high v s, fun o h h4 => getReg_halfWrite_ne (by omega) v s, rfl⟩
  · exact ⟨_, exec_regRead_kprOwn hs up room, sbReply_answers .., sbReply_frame ..⟩
  · refine ⟨_, (readRegs (wordOffsets off.toNat n.toNat) (profItem bKPR s)).1, exec_regRead hs up room good, ?_, ?_, ?_⟩
    · rw [length_readRegs, wordOffsets, List.length_map, List.length_range]
    · rw [sbAnswer_answers, readRegs_frame, profItem_frame]
    · rw [sbAnswer_frame, readRegs_frame, profItem_frame]
  · refine ⟨_, exec_regWrite_cairnCtl hs up room out, ?_, ?_, fun o h => ?_, ?_⟩
    · rw [ordinaryEffect_frame]
      exact sbReply_answers ..
    · rw [getReg_cairnCtl_written, sbReply_frame]
      rfl
    · rw [getReg_ordinaryEffect_ne h, sbReply_frame]
      rfl
    · rw [ordinaryEffect_frame, sbReply_frame]
  · exact ⟨_, exec_regWrite_denied hs up room good len bad, sbReply_answers .., sbReply_frame ..⟩

end Sys2Proof.Machine

/-! PROOF. What a reset begins. -/
namespace Sys2Proof.Machine

/-! ### A fourth end-point reset that meets a bad completion ring -/

/-- The open fault of queue 0, which the end-point reset aborts (R45). -/
def fatalResetFault : XltFault :=
  { tag := 4, part := 0, page := 0, reason := 1, level := 3, access := 1, waiters := [0], openedAt := 0,
    gathered := false, silent := false }

/-- A part in READY whose end-point was reset three times within 15 minutes. Queue 0 of partition 0 is PARKED on a
fault; its completion ring lies in the part's own region, on a line that has an uncorrectable error again after it was
rewritten whole (R335). -/
def fatalResetState : State :=
  let ring := lineOf tenantEnd
  let s := baseState { imageDefault with regs := [] }
    [(rQcfg 0, 0x8000000000000000), (rQcmpl 0, 0x8000002E00000000), (rMemErrA (lineStack ring), 0xC000000000000000)]
  { s with
    resets := [], power.stage := stageReady,
    queues := [(0, { queue0 with st := .parked, parkedOn := some 0, producer := 1, fetched := [freshDesc 0 1] })],
    xlt.faults := [fatalResetFault],
    memory.errs := [(16 * ring, 3)], memory.bad := [⟨ring, 0, true⟩],
    service.resetTimes := [(Dom.ept.code, [0, 0, 0])] }

/-- The abort's record meets the bad line and puts the part out of service for its memory before the reset is
counted, and the first cause stays. -/
theorem eptReset_fatalResetState_oosCause :
    (settleOos (eptReset .heartbeat) fatalResetState).power.oosCause = 5 := by decide +kernel

theorem exec_eptReset {s : State} (h : s.powered = true) (cause : ResetCause) :
    exec (.eptReset cause) s = .next (settleOos (eptReset cause) s) := act_on h

/-- Refutes O53: at a fourth end-point reset OOS_CAUSE is not always that of the escalation. The reset aborts the open
faults, an abort writes a completion record, and where the ring's line is bad beyond repair outside the tenant pages the
part is already out of service for its memory, cause 5 (R335, R391), when the reset is counted. -/
theorem not_resetsBegin : ¬ Obligations.ResetsBegin := by
  intro h
  obtain ⟨-, -, -, -, fourthReset, -⟩ := h
  obtain ⟨u, run, -, cause, -⟩ := fourthReset .ept (.eptReset .heartbeat) fatalResetState rfl (by decide) rfl rfl
    (by simp)
  obtain rfl : settleOos (eptReset .heartbeat) fatalResetState = u :=
    Host.Outcome.next.inj ((exec_eptReset rfl .heartbeat).symm.trans run)
  rw [eptReset_fatalResetState_oosCause] at cause
  exact absurd cause (by decide)

end Sys2Proof.Machine

/-! PROOF. What the end of a reset leaves in the registers (R8, R438). -/
namespace Sys2Proof.Machine

/-! ### Registers of a domain (R8, R438) -/

theorem tblGet_of_not_mem {α : Type} (d : α) (t : Tbl α) {i : Nat} (h : i ∉ t.map (·.1)) : tblGet d t i = d := by
  induction t with
  | nil => rfl
  | cons e t ih =>
    simp only [List.map_cons, List.mem_cons, not_or] at h
    rw [tblGet, if_neg (Ne.symm h.1), ih h.2]

/-- A register that holds its reset value keeps it in a second reset. -/
theorem resetWord_of_reset {o : Nat} {x : RegDesc} {s t : State} (reg : getReg o t = resetWord o x s)
    (img : t.img = s.img) : resetWord o x t = resetWord o x s := by
  unfold resetWord at reg ⊢
  rw [reg, img]
  refine BitVec.eq_of_getLsbD_eq fun i _ => ?_
  simp only [BitVec.getLsbD_or, BitVec.getLsbD_and]
  cases (getReg o s).getLsbD i <;> cases (heldMask x).getLsbD i <;> simp

theorem resetReg_frame (d : Dom) (s : State) (o : Nat) : resetReg d s o = { s with regs := (resetReg d s o).regs } := by
  unfold resetReg
  split
  · split <;> rfl
  · rfl

theorem getReg_resetReg_self {o : Nat} {x : RegDesc} (h : regDesc o = some x) (s : State) :
    getReg o (resetReg x.dom s o) = resetWord o x s := by
  simp [resetReg, h]

theorem getReg_resetReg_ne {o p : Nat} (h : o ≠ p) (d : Dom) (s : State) :
    getReg o (resetReg d s p) = getReg o s := by
  unfold resetReg
  split
  · split
    · exact getReg_putReg_ne h _ s
    · rfl
  · rfl

theorem getReg_resetReg_otherDomain {o : Nat} {x : RegDesc} {d : Dom} (h : regDesc o = some x) (other : x.dom ≠ d)
    (s : State) (p : Nat) : getReg o (resetReg d s p) = getReg o s := by
  by_cases same : o = p
  · subst same; simp [resetReg, h, other]
  · exact getReg_resetReg_ne same d s

theorem foldl_resetReg_frame (d : Dom) (l : List Nat) (s : State) :
    l.foldl (resetReg d) s = { s with regs := (l.foldl (resetReg d) s).regs } := by
  induction l generalizing s with
  | nil => rfl
  | cons p t ih => rw [List.foldl_cons, ih, resetReg_frame]

theorem getReg_foldl_resetReg {o : Nat} {x : RegDesc} (h : regDesc o = some x) (l : List Nat) (s : State) :
    getReg o (l.foldl (resetReg x.dom) s) = if o ∈ l then resetWord o x s else getReg o s := by
  induction l generalizing s with
  | nil => simp
  | cons p t ih =>
    rw [List.foldl_cons, ih]
    by_cases same : o = p
    · subst same
      have first := getReg_resetReg_self h s
      rw [resetWord_of_reset first (by rw [resetReg_frame]), first]
      simp
    · have first := getReg_resetReg_ne same x.dom s
      have word : resetWord o x (resetReg x.dom s p) = resetWord o x s := by
        unfold resetWord
        rw [first, resetReg_frame]
      rw [first, word]
      simp [same]

theorem resetRegs_frame (d : Dom) (s : State) : resetRegs d s = { s with regs := (resetRegs d s).regs } :=
  foldl_resetReg_frame d _ s

/-- The registers of the domain hold their reset values; one that no table lists holds 0, which is its reset value. -/
theorem getReg_resetRegs_own {o : Nat} {x : RegDesc} (h : regDesc o = some x) (s : State) :
    getReg o (resetRegs x.dom s) = resetWord o x s := by
  rw [resetRegs, getReg_foldl_resetReg h]
  split
  · rfl
  · rename_i unlisted
    rw [List.mem_append, not_or] at unlisted
    have empty : getReg o s = 0 := tblGet_of_not_mem 0 _ unlisted.1
    rw [resetWord, empty, tblGet_of_not_mem 0 _ unlisted.2]
    simp

theorem getReg_resetRegs_other {o : Nat} {x : RegDesc} {d : Dom} (h : regDesc o = some x) (other : x.dom ≠ d)
    (s : State) : getReg o (resetRegs d s) = getReg o s :=
  List.foldlRecOn (motive := fun t => getReg o t = getReg o s) _ _ rfl fun t ht p _ =>
    (getReg_resetReg_otherDomain h other t p).trans ht

/-! ### Out of reset (R438) -/

theorem leaveReset_frame (d : Dom) (s : State) : leaveReset d s =
    { s with regs := (leaveReset d s).regs, resets := tblSet 0 s.resets d.code 0 } := by
  unfold leaveReset
  rw [resetRegs_frame]

/-- What the end of a reset of a domain leaves: the domain is out of reset, its registers hold their reset values but
for the flags that the end itself sets, and no other register and no byte of memory has changed. -/
structure LeftReset (d : Dom) (s u : State) : Prop where
  out : inReset d u = false
  own : ∀ o x, regDesc o = some x → x.dom = d → o ≠ rKprAttn → (∀ p, d = .prt p → o ≠ rPrtStatus p) →
    getReg o u = resetWord o x s
  other : ∀ o x, regDesc o = some x → x.dom ≠ d → getReg o u = getReg o s
  mem : u.mem = s.mem

theorem leftReset_leaveReset (d : Dom) (s : State) : LeftReset d s (leaveReset d s) where
  out := by rw [leaveReset_frame]; simp [inReset]
  own := by
    rintro o x h rfl - -
    exact getReg_resetRegs_own h _
  other := fun o x h other => getReg_resetRegs_other h other _
  mem := by rw [leaveReset_frame]

/-- What comes after may touch the registers of flags that the reset's own end sets. -/
theorem LeftReset.carry {d : Dom} {s t u : State} (h : LeftReset d s t) (resets : u.resets = t.resets)
    (mem : u.mem = t.mem) (regs : ∀ o, getReg o u = getReg o t ∨ ((regDesc o).map (·.dom) = some d ∧
      (o = rKprAttn ∨ ∃ p, d = .prt p ∧ o = rPrtStatus p))) : LeftReset d s u where
  out := by rw [inReset, resets]; exact h.out
  own := fun o x hx dom notAttn notStatus => by
    rcases regs o with same | ⟨-, attn | ⟨p, hp, status⟩⟩
    · rw [same]; exact h.own o x hx dom notAttn notStatus
    · exact absurd attn notAttn
    · exact absurd status (notStatus p hp)
  other := fun o x hx dom => by
    rcases regs o with same | ⟨domain, -⟩
    · rw [same]; exact h.other o x hx dom
    · rw [hx] at domain
      exact absurd (Option.some.inj domain) dom
  mem := mem.trans h.mem

end Sys2Proof.Machine

/-! PROOF. Ports that come out of a reset or of retirement (R305, R385, R390). -/
namespace Sys2Proof.Machine

/-! ### A port that leaves DOWN (R305, R309) -/

/-- Only a port's own: its status register, its link, what a raised flag brings, and the place of a swap. -/
structure PortOnly (p : Nat) (s t : State) : Prop where
  regs : ∀ o, o ≠ rPrtStatus p → getReg o t = getReg o s
  links : ∀ q, q ≠ p → linkOf q t = linkOf q s
  rest : t = { s with regs := t.regs, links := t.links, host := t.host, side := t.side,
                      service := { s.service with activation := t.service.activation } }

theorem PortOnly.refl (p : Nat) (s : State) : PortOnly p s s := ⟨fun _ _ => rfl, fun _ _ => rfl, rfl⟩

theorem PortOnly.trans {p : Nat} {s t u : State} (h : PortOnly p s t) (k : PortOnly p t u) : PortOnly p s u where
  regs := fun o ho => (k.regs o ho).trans (h.regs o ho)
  links := fun q hq => (k.links q hq).trans (h.links q hq)
  rest := by rw [k.rest, h.rest]

theorem portOnly_setFlag (p b : Nat) (s : State) : PortOnly p s (setFlag (rPrtStatus p) b s) where
  regs := fun _ ho => getReg_setFlag_ne ho b s
  links := fun q _ => by rw [setFlag_frame]; rfl
  rest := by rw [setFlag_frame]

theorem portOnly_putLink (p : Nat) (k : Link) (s : State) : PortOnly p s (putLink p k s) where
  regs := fun _ _ => rfl
  links := fun _ hq => linkOf_putLink_ne hq k s
  rest := rfl

theorem portOnly_notePortSwap (p : Nat) (s : State) : PortOnly p s (notePortSwap p s) :=
  ⟨fun _ _ => rfl, fun _ _ => rfl, rfl⟩

theorem linkOf_setFlag (p o b : Nat) (s : State) : linkOf p (setFlag o b s) = linkOf p s := by
  rw [setFlag_frame]; rfl

theorem linkOf_notePortSwap (p q : Nat) (s : State) : linkOf p (notePortSwap q s) = linkOf p s := rfl

/-- From DOWN to DETECT a port carries no traffic before or after: only its own state changes. -/
theorem setPortState_detect_of_down {p : Nat} {s : State} (h : (linkOf p s).st = .down) : setPortState p .detect s =
    notePortSwap p (setFlag (rPrtStatus p) 0 (putLink p { linkOf p s with st := .detect } s)) := by
  simp [setPortState, h, liveState]

theorem setStage_detect_of_down {p : Nat} {s : State} (h : (linkOf p s).st = .down) :
    PortOnly p s (setStage p .detect s) ∧ (linkOf p (setStage p .detect s)).st = .detect := by
  have down : (linkOf p (putLink p { linkOf p s with stageAt := s.clock } s)).st = .down := by simp [h]
  have stage : setStage p .detect s = _ := (if_neg (by simp [h])).trans (setPortState_detect_of_down down)
  rw [stage]
  refine ⟨(portOnly_putLink ..).trans ((portOnly_putLink ..).trans ((portOnly_setFlag ..).trans
    (portOnly_notePortSwap ..))), ?_⟩
  rw [linkOf_notePortSwap, linkOf_setFlag, linkOf_putLink_self]

theorem startTraining_of_down {p : Nat} {s : State} (h : (linkOf p s).st = .down) :
    PortOnly p s (startTraining p s) ∧ (portRole p s ≠ 0 → portRetired p s = false →
      s.power.failedComps.contains 1 = false → eqValid p (decide (cfgRate p s = 2)) s = true →
      (linkOf p (startTraining p s)).st = .detect) := by
  unfold startTraining
  dsimp only
  split
  · rename_i barred
    refine ⟨.refl p s, fun role retired runs _ => ?_⟩
    rcases barred with noRole | isRetired | stopped
    · exact absurd noRole role
    · exact absurd isRetired (Bool.eq_false_iff.mp retired)
    · exact absurd stopped (Bool.eq_false_iff.mp runs)
  · split
    · rename_i invalid
      refine ⟨portOnly_setFlag .., fun _ _ _ valid => ?_⟩
      simp [valid] at invalid
    · have set := setStage_detect_of_down (p := p) (s := putLink p { link0 with
        st := (linkOf p s).st, rate160 := decide (cfgRate p s = 2), lostRetrainAt := (linkOf p s).lostRetrainAt,
        sync := (linkOf p s).sync, laneOk := (linkOf p s).laneOk, laneIds := (linkOf p s).laneIds,
        beganAt := s.clock } s) (by simp [h])
      exact ⟨(portOnly_putLink ..).trans set.1, fun _ _ _ _ => set.2⟩

theorem trainEnabled_of_disabled {p : Nat} {s : State} (h : getBit (rPrtCfg p) 63 s = false) :
    trainEnabled p s = s := by
  simp [trainEnabled, h]

theorem trainEnabled_of_enabled {p : Nat} {s : State} (h : getBit (rPrtCfg p) 63 s = true)
    (down : (linkOf p s).st = .down) : trainEnabled p s = startTraining p s := by
  simp [trainEnabled, h, down]

theorem trainEnabled_portOnly (p : Nat) (s : State) : PortOnly p s (trainEnabled p s) := by
  unfold trainEnabled
  split
  · rename_i h
    rw [Bool.and_eq_true, decide_eq_true_eq] at h
    exact (startTraining_of_down h.2).1
  · exact .refl p s

/-! ### Clearing a retirement (R390, R391) -/

/-- One port of a write that clears retirements: its count starts afresh and it may train. -/
def reopenPort (clear : Word) (s : State) (p : Nat) : State :=
  if wbit clear p then
    trainEnabled p { s with service.resetTimes := tblSet [] s.service.resetTimes (Dom.prt p).code [] }
  else s

/-- The reset starts a port's count is taken from. -/
def portStarts (p : Nat) (s : State) : List Nat := tblGet [] s.service.resetTimes (Dom.prt p).code

theorem writeRetired_eq (v c : Word) (s : State) : writeRetired v c s =
    (List.range 36).foldl (reopenPort (getReg rKprPrtRetired s &&& v &&& ~~~c))
      (putReg rKprPrtRetired (getReg rKprPrtRetired s &&& ~~~(getReg rKprPrtRetired s &&& v &&& ~~~c)) s) := rfl

theorem reopenPort_of_kept {clear : Word} {p : Nat} (h : wbit clear p = false) (s : State) :
    reopenPort clear s p = s := by
  simp [reopenPort, h]

theorem reopenPort_of_cleared {clear : Word} {p : Nat} (h : wbit clear p = true) (s : State) : reopenPort clear s p =
    trainEnabled p { s with service.resetTimes := tblSet [] s.service.resetTimes (Dom.prt p).code [] } := by
  simp [reopenPort, h]

/-- What reopening ports leaves alone, whichever they are. -/
structure Reopened (s t : State) : Prop where
  retired : getReg rKprPrtRetired t = getReg rKprPrtRetired s
  mem : t.mem = s.mem
  queues : t.queues = s.queues
  clock : t.clock = s.clock

theorem reopenPort_reopened (clear : Word) (s : State) (p : Nat) : Reopened s (reopenPort clear s p) := by
  unfold reopenPort
  split
  · obtain ⟨regs, -, rest⟩ := trainEnabled_portOnly p
      { s with service.resetTimes := tblSet [] s.service.resetTimes (Dom.prt p).code [] }
    exact ⟨regs _ (by unfold rKprPrtRetired rPrtStatus rPrt; omega), by rw [rest], by rw [rest], by rw [rest]⟩
  · exact ⟨rfl, rfl, rfl, rfl⟩

theorem foldl_reopenPort_reopened (clear : Word) (l : List Nat) (s : State) :
    Reopened s (l.foldl (reopenPort clear) s) :=
  List.foldlRecOn (motive := fun t => Reopened s t) _ _ ⟨rfl, rfl, rfl, rfl⟩ fun t ht p _ =>
    have step := reopenPort_reopened clear t p
    ⟨step.retired.trans ht.retired, step.mem.trans ht.mem, step.queues.trans ht.queues, step.clock.trans ht.clock⟩

theorem portStarts_reopenPort (clear : Word) (s : State) (p q : Nat) :
    portStarts p (reopenPort clear s q) = if q = p ∧ wbit clear p = true then [] else portStarts p s := by
  cases h : wbit clear q
  · rw [reopenPort_of_kept h, if_neg]
    rintro ⟨rfl, set⟩
    simp [h] at set
  · have rest := (trainEnabled_portOnly q
      { s with service.resetTimes := tblSet [] s.service.resetTimes (Dom.prt q).code [] }).rest
    rw [reopenPort_of_cleared h, portStarts, rest]
    by_cases same : q = p
    · subst same; simp [h]
    · have code : (Dom.prt q).code ≠ (Dom.prt p).code := by simp [Dom.code, same]
      simpa [same, portStarts] using tblGet_tblSet_ne [] _ [] code

theorem portStarts_foldl_reopenPort (clear : Word) (l : List Nat) (s : State) (p : Nat) :
    portStarts p (l.foldl (reopenPort clear) s) = if p ∈ l ∧ wbit clear p = true then [] else portStarts p s := by
  induction l generalizing s with
  | nil => simp
  | cons q t ih =>
    rw [List.foldl_cons, ih, portStarts_reopenPort]
    by_cases same : q = p
    · subst same; by_cases h : wbit clear q = true <;> simp [h]
    · simp [same, Ne.symm same]

theorem linkOf_foldl_reopenPort {clear : Word} {p : Nat} (h : wbit clear p = false) (l : List Nat) (s : State) :
    linkOf p (l.foldl (reopenPort clear) s) = linkOf p s :=
  List.foldlRecOn (motive := fun t => linkOf p t = linkOf p s) _ _ rfl fun t ht q _ => by
    rw [← ht]
    by_cases same : p = q
    · subst same; rw [reopenPort_of_kept h]
    · unfold reopenPort
      split
      · exact (trainEnabled_portOnly q _).links p same
      · rfl

theorem resetCount_congr {d : Dom} {s t : State} (starts : tblGet [] t.service.resetTimes d.code =
    tblGet [] s.service.resetTimes d.code) (clock : t.clock = s.clock) : resetCount d t = resetCount d s := by
  rw [resetCount, starts, recentStarts, clock]
  rfl

end Sys2Proof.Machine

/-! PROOF. Queues, stacks and counts when a reset ends (R333, R386, R387, R390). -/
namespace Sys2Proof.Machine

/-! ### Queues when the array reset ends (R386, R387) -/

theorem tblGet_default_or_mem {α : Type} (d : α) (t : Tbl α) (i : Nat) :
    tblGet d t i = d ∨ ∃ e ∈ t, e.2 = tblGet d t i := by
  induction t with
  | nil => exact .inl rfl
  | cons e t ih =>
    by_cases here : e.1 = i
    · exact .inr ⟨e, List.mem_cons_self, by rw [tblGet, if_pos here]⟩
    · rw [tblGet, if_neg here]
      exact ih.imp_right fun ⟨x, hx, same⟩ => ⟨x, List.mem_cons_of_mem e hx, same⟩

theorem nothingFetched_of_queues {s : State} (h : ∀ e ∈ s.queues, e.2.fetched = []) (q : Nat) :
    (getQ q s).fetched = [] := by
  rcases tblGet_default_or_mem queue0 s.queues q with unlisted | ⟨e, he, listed⟩
  · rw [getQ, unlisted]; rfl
  · rw [getQ, ← listed]; exact h e he

/-- A queue with nothing fetched has no record to write: it is FENCED or IDLE and nothing else happens. -/
theorem aryRestart_of_nothingFetched {s : State} {q : Fin 512} (h : (getQ q.val s).fetched = []) : aryRestart s q =
    putQ q.val { getQ q.val s with st := if qEnabled q.val s then .fenced else .idle } s := by
  simp [aryRestart, h, completeUpTo]

theorem nothingFetched_aryRestart {s : State} (h : ∀ q, (getQ q s).fetched = []) (p : Fin 512) (q : Nat) :
    (getQ q (aryRestart s p)).fetched = [] := by
  rw [aryRestart_of_nothingFetched (h p.val)]
  by_cases same : q = p.val
  · subst same; rw [getQ_putQ_self]; exact h p.val
  · rw [getQ_putQ_ne same]; exact h q

theorem foldl_aryRestart_frame (l : List (Fin 512)) {s : State} (h : ∀ q, (getQ q s).fetched = []) :
    l.foldl aryRestart s = { s with queues := (l.foldl aryRestart s).queues } := by
  induction l generalizing s with
  | nil => rfl
  | cons p t ih =>
    rw [List.foldl_cons, ih (nothingFetched_aryRestart h p), aryRestart_of_nothingFetched (h p.val)]
    rfl

theorem getQ_foldl_aryRestart (l : List (Fin 512)) {s : State} (h : ∀ q, (getQ q s).fetched = []) (q : Fin 512) :
    (getQ q.val (l.foldl aryRestart s)).st =
      if q ∈ l then (if qEnabled q.val s then .fenced else .idle) else (getQ q.val s).st := by
  induction l generalizing s with
  | nil => simp
  | cons p t ih =>
    have enabled : qEnabled q.val (aryRestart s p) = qEnabled q.val s := by
      rw [aryRestart_of_nothingFetched (h p.val)]; rfl
    rw [List.foldl_cons, ih (nothingFetched_aryRestart h p), enabled, aryRestart_of_nothingFetched (h p.val)]
    by_cases same : q = p
    · subst same; simp
    · simp [same, getQ_putQ_ne (Fin.val_ne_of_ne same)]

/-! ### Stacks when a stack reset ends (R333, R385) -/

theorem getStack_putStack_ne {j k : Nat} (h : j ≠ k) (v : Stack) (s : State) :
    getStack j (putStack k v s) = getStack j s := tblGet_tblSet_ne _ _ v (Ne.symm h)

theorem beginStackFence_frame (j : Nat) (s : State) : beginStackFence j s =
    { s with memory := { s.memory with stackTbl := (beginStackFence j s).memory.stackTbl } } := by
  unfold beginStackFence
  dsimp only
  split <;> rfl

/-- A stack that no retrain waits for is not fenced. -/
theorem getStack_beginStackFence {k : Nat} {s : State} (h : (getStack k s).wanted = false) (j : Nat) :
    getStack k (beginStackFence j s) = getStack k s := by
  unfold beginStackFence
  dsimp only
  split
  · rename_i fenced
    by_cases same : k = j
    · subst same; simp [h] at fenced
    · exact getStack_putStack_ne same _ s
  · rfl

theorem foldl_beginStackFence_frame (l : List Nat) (s : State) : l.foldl (fun s j => beginStackFence j s) s =
    { s with memory := { s.memory with stackTbl := (l.foldl (fun s j => beginStackFence j s) s).memory.stackTbl } } := by
  induction l generalizing s with
  | nil => rfl
  | cons j t ih => rw [List.foldl_cons, ih, beginStackFence_frame]

theorem getStack_foldl_beginStackFence {k : Nat} {s : State} (h : (getStack k s).wanted = false) (l : List Nat) :
    getStack k (l.foldl (fun s j => beginStackFence j s) s) = getStack k s :=
  List.foldlRecOn (motive := fun t => getStack k t = getStack k s) _ _ rfl fun t ht j _ =>
    (getStack_beginStackFence (by rw [ht]; exact h) j).trans ht

/-! ### Counts that run out (R390) -/

theorem tblWfFrom_le {α : Type} [DecidableEq α] {d : α} {lo : Nat} {t : Tbl α} (h : tblWfFrom d lo t = true) {i : Nat}
    (hi : i ∈ t.map (·.1)) : lo ≤ i := by
  induction t generalizing lo with
  | nil => simp at hi
  | cons e t ih =>
    obtain ⟨k, v⟩ := e
    simp only [tblWfFrom, Bool.and_eq_true, decide_eq_true_eq] at h
    simp only [List.map_cons, List.mem_cons] at hi
    rcases hi with rfl | hi
    · exact h.1.1
    · have := ih h.2 hi
      omega

/-- The table of reset starts with those that have left the window taken out of every entry. -/
def expireStarts (s : State) (acc : Tbl (List Nat)) (l : Tbl (List Nat)) : Tbl (List Nat) :=
  l.foldl (fun t e => tblSet [] t e.1 (recentStarts e.2 s)) acc

theorem tblGet_expireStarts (s : State) (l acc : Tbl (List Nat)) (c lo : Nat) (wf : tblWfFrom [] lo l = true) :
    tblGet [] (expireStarts s acc l) c =
      if c ∈ l.map (·.1) then recentStarts (tblGet [] l c) s else tblGet [] acc c := by
  induction l generalizing acc lo with
  | nil => simp [expireStarts]
  | cons e t ih =>
    obtain ⟨k, v⟩ := e
    simp only [tblWfFrom, Bool.and_eq_true, decide_eq_true_eq] at wf
    have later : tblGet [] (expireStarts s acc ((k, v) :: t)) c = _ :=
      ih (tblSet [] acc k (recentStarts v s)) (k + 1) wf.2
    rw [later]
    by_cases same : k = c
    · subst same
      have once : k ∉ t.map (·.1) := fun again => by have := tblWfFrom_le wf.2 again; omega
      simp [once, tblGet]
    · rw [tblGet, if_neg same, tblGet_tblSet_ne _ _ _ same]
      exact ite_congr (propext (by simp [Ne.symm same])) (fun _ => rfl) (fun _ => rfl)

theorem tblGet_expireStarts_self (s : State) (c : Nat) (wf : tblWf [] s.service.resetTimes = true) :
    tblGet [] (expireStarts s [] s.service.resetTimes) c = recentStarts (tblGet [] s.service.resetTimes c) s := by
  rw [tblGet_expireStarts s _ [] c 0 wf]
  split
  · rfl
  · rename_i unlisted
    rw [tblGet_of_not_mem [] _ unlisted]
    rfl

theorem exec_resetCountExpiry {s : State} (hs : s.powered = true) : exec .resetCountExpiry s =
    .next { s with service.resetTimes := expireStarts s [] s.service.resetTimes } :=
  congrArg Host.Outcome.next (if_pos hs)

/-- A start that has left the window was not counted before it is taken out. -/
theorem resetCount_expired {s t : State} {d : Dom} (clock : t.clock = s.clock)
    (starts : tblGet [] t.service.resetTimes d.code = recentStarts (tblGet [] s.service.resetTimes d.code) s) :
    resetCount d t = resetCount d s := by
  rw [resetCount, starts, resetCount]
  simp only [recentStarts, clock, List.filter_filter, Bool.and_self]

end Sys2Proof.Machine

/-! PROOF. The end of each domain's reset (R385). -/
namespace Sys2Proof.Machine

/-! ### When a reset's end takes effect (R385, R401) -/

theorem resetDue_of_passed {d : Dom} {s : State} (h : ∃ t ∈ resetEnd d s, t ≤ s.clock) : resetDue d s = true := by
  obtain ⟨t, ht, passed⟩ := h
  simp [resetDue, Option.mem_def.mp ht, due, passed]

theorem resetDue_of_early {d : Dom} {t : Nat} {s : State} (h : resetEnd d s = some t) (early : s.clock < t) :
    resetDue d s = false := by
  simp [resetDue, h, due, early]

theorem resetEnd_of_out {d : Dom} {s : State} (h : inReset d s = false) : resetEnd d s = none := by
  have zero : tblGet 0 s.resets d.code = 0 := by simpa [inReset] using h
  simp [resetEnd, zero]

theorem resetDue_of_out {d : Dom} {s : State} (h : inReset d s = false) : resetDue d s = false := by
  simp [resetDue, resetEnd_of_out h]

theorem inReset_of_passed {d : Dom} {s : State} (h : ∃ t ∈ resetEnd d s, t ≤ s.clock) : inReset d s = true := by
  obtain ⟨t, ht, -⟩ := h
  cases out : inReset d s with
  | true => rfl
  | false => simp [resetEnd_of_out out] at ht

theorem broughtUp_ready {stage : Nat} {s : State} (ready : s.power.stage = stageReady) (h : stage ≤ stageReady) :
    broughtUp stage s = true := by
  simp [broughtUp, ready, h]

theorem broughtUp_before {stage : Nat} {s : State} (h : s.power.stage < stage) : broughtUp stage s = false := by
  simp only [broughtUp, decide_eq_false_iff_not]
  omega

/-! ### KPR -/

theorem exec_kprResetEnd_out {s : State} (hs : s.powered = true) (h : inReset .kpr s = false) :
    exec .kprResetEnd s = .next s :=
  congrArg Host.Outcome.next ((if_pos hs).trans (if_neg (by simp [h])))

theorem takeHeldCmd_of_none {s : State} (h : s.tenant.heldCmd = none) : takeHeldCmd s = s := by
  simp [takeHeldCmd, h]

/-- With no command held the end of a keeper reset only adds the two flags that stay to KPR_ATTN. -/
theorem exec_kprResetEnd {s : State} (hs : s.powered = true) (h : inReset .kpr s = true)
    (noCommand : s.tenant.heldCmd = none) :
    ∃ w, exec .kprResetEnd s = .next (putReg rKprAttn w (leaveReset .kpr s)) := by
  have taken : ∀ w, takeHeldCmd (putReg rKprAttn w (leaveReset .kpr s)) = putReg rKprAttn w (leaveReset .kpr s) :=
    fun w => takeHeldCmd_of_none (by rw [putReg_tenant, leaveReset_frame]; exact noCommand)
  exact ⟨_, congrArg Host.Outcome.next ((if_pos hs).trans ((if_pos h).trans (taken _)))⟩

theorem leftReset_kpr (w : Word) (s : State) : LeftReset .kpr s (putReg rKprAttn w (leaveReset .kpr s)) :=
  (leftReset_leaveReset .kpr s).carry rfl rfl fun o => by
    by_cases attn : o = rKprAttn
    · subst attn
      exact .inr ⟨by rw [regDesc_kprAttn]; rfl, .inl rfl⟩
    · exact .inl (getReg_putReg_ne attn w _)

/-! ### EPT -/

theorem exec_eptResetEnd {s : State} (hs : s.powered = true) (h : (resetDue .ept s && broughtUp 0x08 s) = true) :
    exec .eptResetEnd s = .next { leaveReset .ept s with
      tgt.quarantineEnd := some ((leaveReset .ept s).clock + 2500000) } :=
  congrArg Host.Outcome.next ((if_pos hs).trans (if_pos h))

theorem exec_eptResetEnd_notYet {s : State} (hs : s.powered = true)
    (h : (resetDue .ept s && broughtUp 0x08 s) = false) : exec .eptResetEnd s = .next s :=
  congrArg Host.Outcome.next ((if_pos hs).trans (if_neg (by simp [h])))

/-! ### ARY -/

theorem exec_aryResetEnd {s : State} (hs : s.powered = true) (h : (resetDue .ary s && broughtUp 0x0C s) = true) :
    exec .aryResetEnd s = .next ((List.finRange 512).foldl aryRestart (leaveReset .ary s)) :=
  congrArg Host.Outcome.next ((if_pos hs).trans (if_pos h))

theorem exec_aryResetEnd_notYet {s : State} (hs : s.powered = true)
    (h : (resetDue .ary s && broughtUp 0x0C s) = false) : exec .aryResetEnd s = .next s :=
  congrArg Host.Outcome.next ((if_pos hs).trans (if_neg (by simp [h])))

theorem nothingFetched_leaveReset {d : Dom} {s : State} (h : ∀ e ∈ s.queues, e.2.fetched = []) (q : Nat) :
    (getQ q (leaveReset d s)).fetched = [] := by
  rw [leaveReset_frame]
  exact nothingFetched_of_queues h q

theorem leftReset_aryRestart {s : State} (h : ∀ e ∈ s.queues, e.2.fetched = []) (l : List (Fin 512)) :
    LeftReset .ary s (l.foldl aryRestart (leaveReset .ary s)) := by
  have frame := foldl_aryRestart_frame l (nothingFetched_leaveReset (d := .ary) h)
  exact (leftReset_leaveReset .ary s).carry (by rw [frame]) (by rw [frame]) fun o => .inl (by rw [frame]; rfl)

/-- Every queue restarted comes out FENCED where it is enabled, else IDLE (R387). -/
theorem getQ_aryRestart {s : State} (h : ∀ e ∈ s.queues, e.2.fetched = []) {q : Fin 512} {l : List (Fin 512)}
    (hq : q ∈ l) : (getQ q.val (l.foldl aryRestart (leaveReset .ary s))).st =
      if getBit (rQcfg q.val) 63 (l.foldl aryRestart (leaveReset .ary s)) then .fenced else .idle := by
  have unfetched := nothingFetched_leaveReset (d := .ary) h
  have regs : getBit (rQcfg q.val) 63 (l.foldl aryRestart (leaveReset .ary s)) =
      qEnabled q.val (leaveReset .ary s) := by
    rw [foldl_aryRestart_frame l unfetched]; rfl
  rw [getQ_foldl_aryRestart l unfetched, if_pos hq, regs]

/-! ### PRT -/

/-- The port as its reset's end leaves it: out of reset, and training where it is enabled (R385). -/
def portResetEnd (p : Nat) (s : State) : State := trainEnabled p (leaveReset (.prt p) s)

theorem exec_prtResetEnd {p : Fin 36} {s : State} (hs : s.powered = true) (h : resetDue (.prt p.val) s = true)
    (ready : s.power.stage = stageReady) : exec (.prtResetEnd p) s = .next (portResetEnd p.val s) := by
  have up : broughtUp 0x0C (leaveReset (.prt p.val) s) = true :=
    broughtUp_ready (by rw [leaveReset_frame]; exact ready) (by decide)
  exact congrArg Host.Outcome.next ((if_pos hs).trans ((if_pos h).trans (if_pos up)))

theorem exec_prtResetEnd_notYet {p : Fin 36} {s : State} (hs : s.powered = true)
    (h : resetDue (.prt p.val) s = false) : exec (.prtResetEnd p) s = .next s :=
  congrArg Host.Outcome.next ((if_pos hs).trans (if_neg (by simp [h])))

theorem regDesc_prtStatus_dom : ∀ p : Fin 36, (regDesc (rPrtStatus p.val)).map (·.dom) = some (.prt p.val) := by decide

theorem leftReset_prt (p : Fin 36) (s : State) : LeftReset (.prt p.val) s (portResetEnd p.val s) := by
  obtain ⟨regs, -, rest⟩ := trainEnabled_portOnly p.val (leaveReset (.prt p.val) s)
  refine (leftReset_leaveReset (.prt p.val) s).carry (by rw [portResetEnd, rest]) (by rw [portResetEnd, rest])
    fun o => ?_
  by_cases status : o = rPrtStatus p.val
  · subst status
    exact .inr ⟨regDesc_prtStatus_dom p, .inr ⟨p.val, rfl, rfl⟩⟩
  · exact .inl (regs o status)

theorem linkOf_leaveReset (p : Nat) (d : Dom) (s : State) : linkOf p (leaveReset d s) = linkOf p s := by
  rw [leaveReset_frame]; rfl

/-- A port's configuration is not among what its training touches. -/
theorem getReg_prtCfg_portResetEnd (p : Nat) (s : State) :
    getReg (rPrtCfg p) (portResetEnd p s) = getReg (rPrtCfg p) (leaveReset (.prt p) s) :=
  (trainEnabled_portOnly p _).regs _ (by unfold rPrtCfg rPrtStatus; omega)

theorem linkOf_portResetEnd_of_disabled {p : Nat} {s : State} (h : getBit (rPrtCfg p) 63 (portResetEnd p s) = false) :
    linkOf p (portResetEnd p s) = linkOf p s := by
  rw [getBit, getReg_prtCfg_portResetEnd] at h
  rw [portResetEnd, trainEnabled_of_disabled h, linkOf_leaveReset]

/-- The equalisation entries of a port depend on its configuration and the image alone. -/
theorem eqValid_congr {p : Nat} {s t : State} (cfg : getReg (rPrtCfg p) t = getReg (rPrtCfg p) s) (img : t.img = s.img)
    (rate160 : Bool) : eqValid p rate160 t = eqValid p rate160 s := by
  unfold eqValid eqTable eqEntry getField
  rw [cfg, img]

theorem cfgRate_congr {p : Nat} {s t : State} (cfg : getReg (rPrtCfg p) t = getReg (rPrtCfg p) s) :
    cfgRate p t = cfgRate p s := by
  unfold cfgRate getField
  rw [cfg]

theorem linkOf_portResetEnd_of_enabled {p : Nat} {s : State} (on : getBit (rPrtCfg p) 63 (portResetEnd p s) = true)
    (down : (linkOf p s).st = .down) (role : portRole p (portResetEnd p s) ≠ 0) (kept : portRetired p s = false)
    (runs : s.power.failedComps.contains 1 = false)
    (valid : eqValid p (decide (cfgRate p (portResetEnd p s) = 2)) (portResetEnd p s) = true) :
    (linkOf p (portResetEnd p s)).st = .detect := by
  have cfg := getReg_prtCfg_portResetEnd p s
  have image : (portResetEnd p s).img = (leaveReset (.prt p) s).img := by
    rw [portResetEnd, (trainEnabled_portOnly p _).rest]
  rw [getBit, cfg] at on
  rw [portRole, getField, cfg] at role
  rw [cfgRate_congr cfg, eqValid_congr cfg image] at valid
  have down' : (linkOf p (leaveReset (.prt p) s)).st = .down := by rw [linkOf_leaveReset]; exact down
  have kept' : portRetired p (leaveReset (.prt p) s) = false := by
    have desc : regDesc rKprPrtRetired = some ⟨bKPR, .pwr, [⟨35, 0, .w1c, .zero⟩]⟩ := by decide
    have same := (leftReset_leaveReset (.prt p) s).other rKprPrtRetired _ desc (by simp)
    rw [portRetired, getBit, same]
    exact kept
  rw [portResetEnd, trainEnabled_of_enabled on down']
  refine (startTraining_of_down down').2 role kept' (by rw [leaveReset_frame]; exact runs) valid

/-! ### STK -/

/-- The stack as its reset's end leaves it: trained afresh and in service (R385). -/
def stackResetEnd (k : Nat) (s : State) : State :=
  let t := leaveReset (.stk k) s
  putStack k { getStack k t with st := .online, trainTemp := (getStack k t).temp } t

theorem exec_stkResetEnd {k : Fin 6} {s : State} (hs : s.powered = true) (h : inReset (.stk k.val) s = true) :
    exec (.stkResetEnd k) s = .next ((List.range 6).foldl (fun s j => beginStackFence j s) (stackResetEnd k.val s)) :=
  congrArg Host.Outcome.next ((if_pos hs).trans (if_pos h))

theorem exec_stkResetEnd_out {k : Fin 6} {s : State} (hs : s.powered = true) (h : inReset (.stk k.val) s = false) :
    exec (.stkResetEnd k) s = .next s :=
  congrArg Host.Outcome.next ((if_pos hs).trans (if_neg (by simp [h])))

theorem leftReset_stackResetEnd (k : Nat) (s : State) (l : List Nat) :
    LeftReset (.stk k) s (l.foldl (fun s j => beginStackFence j s) (stackResetEnd k s)) := by
  have frame := foldl_beginStackFence_frame l (stackResetEnd k s)
  exact (leftReset_leaveReset (.stk k) s).carry (by rw [frame]; rfl) (by rw [frame]; rfl)
    fun o => .inl (by rw [frame]; rfl)

theorem getStack_stackResetEnd (k : Nat) (s : State) :
    getStack k (stackResetEnd k s) = { getStack k s with st := .online, trainTemp := (getStack k s).temp } := by
  rw [stackResetEnd, getStack_putStack_self, leaveReset_frame]
  rfl

theorem getStack_foldl_stackResetEnd {k : Nat} {s : State} (h : (getStack k s).wanted = false) (l : List Nat) :
    getStack k (l.foldl (fun s j => beginStackFence j s) (stackResetEnd k s)) =
      { getStack k s with st := .online, trainTemp := (getStack k s).temp } := by
  have unwanted : (getStack k (stackResetEnd k s)).wanted = false := by rw [getStack_stackResetEnd]; exact h
  rw [getStack_foldl_beginStackFence unwanted, getStack_stackResetEnd]

end Sys2Proof.Machine

/-! PROOF. PORTS, and the end of resets as a whole. -/
namespace Sys2Proof.Machine

/-! ### PORTS (R390, R391) -/

/-- The ports a write of 1s reopens where the part retires none in the same cycle: those retired. -/
theorem wbit_cleared (g v : Word) (p : Nat) : wbit (g &&& v &&& ~~~0) p = (wbit g p && wbit v p) := by
  unfold wbit
  by_cases word : p < 64
  · rw [BitVec.getLsbD_and, BitVec.getLsbD_and, BitVec.getLsbD_not]
    simp [word]
  · simp [BitVec.getLsbD_of_ge _ p (Nat.le_of_not_lt word)]

theorem getReg_writeRetired (v : Word) (s : State) :
    getReg rKprPrtRetired (writeRetired v 0 s) = getReg rKprPrtRetired s &&& ~~~v := by
  rw [writeRetired_eq, (foldl_reopenPort_reopened ..).retired, getReg_putReg_self]
  refine BitVec.eq_of_getLsbD_eq fun i word => ?_
  simp only [BitVec.getLsbD_and, BitVec.getLsbD_not, word]
  cases (getReg rKprPrtRetired s).getLsbD i <;> simp [word]

theorem writeRetired_keeps (v : Word) (s : State) :
    (writeRetired v 0 s).mem = s.mem ∧ (writeRetired v 0 s).queues = s.queues ∧
      (writeRetired v 0 s).clock = s.clock := by
  obtain ⟨-, mem, queues, clock⟩ := foldl_reopenPort_reopened (getReg rKprPrtRetired s &&& v &&& ~~~0) (List.range 36)
    (putReg rKprPrtRetired (getReg rKprPrtRetired s &&& ~~~(getReg rKprPrtRetired s &&& v &&& ~~~0)) s)
  exact ⟨mem, queues, clock⟩

theorem portStarts_writeRetired (v : Word) (s : State) {p : Nat} (hp : p < 36) : portStarts p (writeRetired v 0 s) =
    if getBit rKprPrtRetired p s = true ∧ wbit v p = true then [] else portStarts p s := by
  rw [writeRetired_eq, portStarts_foldl_reopenPort, wbit_cleared]
  exact ite_congr (propext (by simp [List.mem_range.mpr hp, getBit])) (fun _ => rfl) (fun _ => rfl)

theorem resetCount_writeRetired_cleared {v : Word} {s : State} {p : Nat} (hp : p < 36) (set : wbit v p = true)
    (retired : getBit rKprPrtRetired p s = true) : resetCount (.prt p) (writeRetired v 0 s) = 0 := by
  have starts := portStarts_writeRetired v s hp
  rw [if_pos ⟨retired, set⟩, portStarts] at starts
  rw [resetCount, starts]
  rfl

theorem writeRetired_other {v : Word} {s : State} {p : Nat} (hp : p < 36)
    (h : wbit v p = false ∨ getBit rKprPrtRetired p s = false) :
    linkOf p (writeRetired v 0 s) = linkOf p s ∧ resetCount (.prt p) (writeRetired v 0 s) = resetCount (.prt p) s := by
  have uncleared : wbit (getReg rKprPrtRetired s &&& v &&& ~~~0) p = false := by
    rw [wbit_cleared, Bool.and_eq_false_iff]
    exact h.symm
  constructor
  · rw [writeRetired_eq, linkOf_foldl_reopenPort uncleared]
    rfl
  · have starts := portStarts_writeRetired v s hp
    rw [if_neg (by rcases h with h | h <;> simp [h])] at starts
    exact resetCount_congr starts (writeRetired_keeps v s).2.2

theorem exec_ports {side : Side} {v : Word} {s : State} (hs : s.powered = true)
    (go : gate side bKPR false .pwr s = .go) :
    exec (.ports side v 0) s = .next (writeRetired v 0 (countKept rKprPrtRetired v 0 s)) :=
  congrArg Host.Outcome.next ((if_pos hs).trans (guarded_go _ go))

/-- Settles O54: the end of a reset domain by domain, the ends that come too early or where nothing is in reset, the
counts that run out, and the write that clears a retirement. -/
theorem resetsEnd : Obligations.ResetsEnd := by
  refine ⟨fun c d s hs cd passed ready queues held => ?_, fun d c t s hs ends early cd => ?_,
    fun d c s hs out cd => ?_, fun s hs => ⟨fun before => ?_, fun before => ?_⟩, fun s hs wf => ?_,
    fun side v s hs go => ?_⟩
  · have inReset := inReset_of_passed passed
    have due := resetDue_of_passed passed
    simp only [List.mem_append, List.mem_cons, List.not_mem_nil, or_false, List.mem_map, Prod.mk.injEq] at cd
    rcases cd with ((⟨rfl, rfl⟩ | ⟨rfl, rfl⟩ | ⟨rfl, rfl⟩) | ⟨p, -, rfl, rfl⟩) | ⟨k, -, rfl, rfl⟩
    · obtain ⟨w, run⟩ := exec_kprResetEnd hs inReset (held rfl)
      obtain ⟨out, own, other, mem⟩ := leftReset_kpr w s
      exact ⟨_, run, out, own, other, mem, nofun, nofun, nofun, nofun, nofun⟩
    · have run := exec_eptResetEnd hs (by rw [due, broughtUp_ready ready (by decide)]; rfl)
      obtain ⟨out, own, other, mem⟩ := leftReset_leaveReset .ept s
      exact ⟨_, run, out, own, other, mem, fun _ => by rw [leaveReset_frame], nofun, nofun, nofun, nofun⟩
    · have run := exec_aryResetEnd hs (by rw [due, broughtUp_ready ready (by decide)]; rfl)
      obtain ⟨out, own, other, mem⟩ := leftReset_aryRestart (queues rfl) (List.finRange 512)
      exact ⟨_, run, out, own, other, mem, nofun,
        fun _ q hq => getQ_aryRestart (q := ⟨q, hq⟩) (queues rfl) (List.mem_finRange _), nofun, nofun, nofun⟩
    · obtain ⟨out, own, other, mem⟩ := leftReset_prt p s
      refine ⟨_, exec_prtResetEnd hs due ready, out, own, other, mem, nofun, nofun, nofun, ?_, ?_⟩
      · rintro q - ⟨rfl⟩ disabled
        exact linkOf_portResetEnd_of_disabled disabled
      · rintro q - ⟨rfl⟩ on down role kept runs valid
        exact linkOf_portResetEnd_of_enabled on down role kept runs valid
    · obtain ⟨out, own, other, mem⟩ := leftReset_stackResetEnd k s (List.range 6)
      refine ⟨_, exec_stkResetEnd hs inReset, out, own, other, mem, nofun, nofun, ?_, nofun, nofun⟩
      rintro j - ⟨rfl⟩ unwanted
      rw [getStack_foldl_stackResetEnd unwanted]
      exact ⟨rfl, rfl⟩
  · have notDue := resetDue_of_early ends early
    simp only [List.mem_cons, List.not_mem_nil, or_false, Prod.mk.injEq] at cd
    rcases cd with ⟨rfl, rfl⟩ | ⟨rfl, rfl⟩ | ⟨rfl, rfl⟩
    · exact exec_eptResetEnd_notYet hs (by rw [notDue, Bool.false_and])
    · exact exec_aryResetEnd_notYet hs (by rw [notDue, Bool.false_and])
    · exact exec_prtResetEnd_notYet hs notDue
  · have notDue := resetDue_of_out out
    simp only [List.mem_cons, List.not_mem_nil, or_false, Prod.mk.injEq] at cd
    rcases cd with ⟨rfl, rfl⟩ | ⟨rfl, rfl⟩ | ⟨rfl, rfl⟩ | ⟨rfl, rfl⟩ | ⟨rfl, rfl⟩
    · exact exec_kprResetEnd_out hs out
    · exact exec_eptResetEnd_notYet hs (by rw [notDue, Bool.false_and])
    · exact exec_aryResetEnd_notYet hs (by rw [notDue, Bool.false_and])
    · exact exec_prtResetEnd_notYet hs notDue
    · exact exec_stkResetEnd_out hs out
  · exact exec_eptResetEnd_notYet hs (by rw [broughtUp_before before, Bool.and_false])
  · exact exec_aryResetEnd_notYet hs (by rw [broughtUp_before before, Bool.and_false])
  · refine ⟨_, exec_resetCountExpiry hs, fun c => tblGet_expireStarts_self s c wf, fun d => ?_, rfl⟩
    exact resetCount_expired rfl (tblGet_expireStarts_self s d.code wf)
  · have counted := countKept_frame rKprPrtRetired v 0 s
    obtain ⟨mem, queues, -⟩ := writeRetired_keeps v (countKept rKprPrtRetired v 0 s)
    refine ⟨_, exec_ports hs go, ?_, fun p hp set retired => ?_, fun p hp kept => ?_, ?_, ?_⟩
    · rw [getReg_writeRetired, getReg_countKept]
    · exact resetCount_writeRetired_cleared hp set (by rw [getBit, getReg_countKept]; exact retired)
    · have other := writeRetired_other (v := v) (s := countKept rKprPrtRetired v 0 s) hp
        (by rw [getBit, getReg_countKept]; exact kept)
      rw [other.1, other.2, counted]
      exact ⟨rfl, rfl⟩
    · rw [mem, counted]
    · rw [queues, counted]

end Sys2Proof.Machine

/-! PROOF. The passing of time where no command waits (R13, R421, R425, R427). -/
namespace Sys2Proof.Machine

/-! ### What counting leaves alone -/

/-- What the counts of a nanosecond leave alone (R314, R425, R427): all but counters and registers; of the registers all
but PRT_TEST_BITS; of the counters all but CAP_SLOTS, ROOM_US and those of profiling. -/
structure Counted (s t : State) : Prop where
  rest : t = { s with counters := t.counters, regs := t.regs }
  regs : ∀ o, (∀ p, o ≠ rPrtTestBits p) → getReg o t = getReg o s
  counters : ∀ a, (∀ p, a ≠ 0x1910010 + 0x100 * p) → a ≠ 0x1930020 →
    (a < rProfSel 0 0 ∨ rProfSel 14 0 + 0x200 ≤ a) → tblGet 0 t.counters a = tblGet 0 s.counters a

theorem Counted.refl (s : State) : Counted s s := ⟨rfl, fun _ _ => rfl, fun _ _ _ _ => rfl⟩

theorem Counted.trans {s t u : State} (h : Counted s t) (k : Counted t u) : Counted s u where
  rest := by rw [k.rest, h.rest]
  regs o other := (k.regs o other).trans (h.regs o other)
  counters a notSlots notRoom notProf :=
    (k.counters a notSlots notRoom notProf).trans (h.counters a notSlots notRoom notProf)

theorem counted_foldl {α : Type} {f : State → α → State} (h : ∀ s x, Counted s (f s x)) (l : List α) (s : State) :
    Counted s (l.foldl f s) :=
  List.foldlRecOn (motive := Counted s) _ _ (.refl s) fun t ht x _ => ht.trans (h t x)

/-- Only the counter that moves, one of those that time moves, reads otherwise. -/
theorem counted_bump {a : Nat}
    (timed : (∃ p, a = 0x1910010 + 0x100 * p) ∨ a = 0x1930020 ∨ (rProfSel 0 0 ≤ a ∧ a < rProfSel 14 0 + 0x200))
    (n : Nat) (s : State) : Counted s (bump a n s) where
  rest := rfl
  regs _ _ := rfl
  counters c notSlots notRoom notProf := by
    have other : a ≠ c := by
      rintro rfl
      rcases timed with ⟨p, slots⟩ | room | ⟨above, below⟩
      · exact notSlots p slots
      · exact notRoom room
      · omega
    exact tblGet_tblSet_ne 0 _ _ other

theorem counted_putReg_testBits (p : Nat) (v : Word) (s : State) : Counted s (putReg (rPrtTestBits p) v s) where
  rest := rfl
  regs _ other := getReg_putReg_ne (other p) v s
  counters _ _ _ _ := rfl

/-! ### The parts of a nanosecond -/

theorem countPort_counted (s : State) (e : Nat × Link) : Counted s (countPort s e) := by
  have slots : Counted s
      (if portUsable e.1 s then bump (0x1910010 + 0x100 * e.1) (slotsInTick e.2 s.clock) s else s) := by
    split
    · exact counted_bump (.inl ⟨e.1, rfl⟩) _ s
    · exact .refl s
  unfold countPort
  dsimp only
  split
  · exact slots
  · exact slots.trans (counted_putReg_testBits ..)

theorem countClocks_counted (s : State) (e : Nat × Word) : Counted s (countClocks s e) := by
  unfold countClocks
  dsimp only
  split
  case isTrue selects =>
    obtain ⟨above, below, -⟩ := selects
    exact counted_bump (.inr (.inr ⟨by omega, by omega⟩)) _ s
  case isFalse => exact .refl s

/-- A nanosecond on the model's clock and, where it runs, on the time base (R13). -/
def timePassed (s : State) : State :=
  if timeRuns s then countTime { s with clock := s.clock + 1 } else { s with clock := s.clock + 1 }

theorem timePassed_frame (s : State) : timePassed s =
    { s with clock := s.clock + 1, timeBase := (timePassed s).timeBase, timeFrac := (timePassed s).timeFrac } := by
  unfold timePassed
  split <;> rfl

/-- Without a rate correction or a part of a nanosecond left over, a nanosecond is one of the time base (R421). -/
theorem timePassed_timeBase {s : State} (runs : timeRuns s = true) (uncorrected : s.time.rate = 0)
    (whole : s.timeFrac = 0) : (timePassed s).timeBase = s.timeBase + 1 := by
  rw [timePassed, if_pos runs]
  simp [countTime, uncorrected, whole]

/-- The counts of ports and profiled clocks that a nanosecond moves (R314, R425, R427). -/
def countEvents (s : State) : State :=
  if s.powered then s.regs.foldl countClocks (s.links.foldl countPort s) else s

/-- ROOM_US, which moves each microsecond (R425). -/
def countRooms (s : State) : State :=
  if s.powered && decide (s.clock % 1000 = 0) then bump 0x1930020 s.array.rooms.length s else s

theorem countEvents_counted (s : State) : Counted s (countEvents s) := by
  unfold countEvents
  split
  · exact (counted_foldl countPort_counted ..).trans (counted_foldl countClocks_counted ..)
  · exact .refl s

theorem countRooms_counted (s : State) : Counted s (countRooms s) := by
  unfold countRooms
  split
  · exact counted_bump (.inr (.inl rfl)) _ s
  · exact .refl s

theorem tick_eq (s : State) : tick s = countRooms (countEvents (timePassed s)) := rfl

theorem tick_counted (s : State) : Counted (timePassed s) (tick s) := by
  rw [tick_eq]
  exact (countEvents_counted _).trans (countRooms_counted _)

theorem tick_of_off {s : State} (off : s.powered = false) : tick s = { s with clock := s.clock + 1 } := by
  simp [tick, timeRuns, off]

theorem step_of_nothingPending {s : State} (h : s.pending = []) : step s = .next (tick s) := by
  rw [step, h]

/-- Settles O2: a nanosecond is one of the clocks, then a run of counts, each of which keeps what `Counted` says. That an
empty queue lets time pass is the model's choice (log entry 4). -/
theorem emptyQueueLetsTimePass : Obligations.EmptyQueueLetsTimePass := by
  intro s nothing
  have counted := tick_counted s
  have clocks := timePassed_frame s
  have kept := counted.rest
  refine ⟨tick s, step_of_nothingPending nothing, ?_, ?_, tick_of_off, fun on low high uncorrected whole => ?_,
    fun o other => ?_, fun a notSlots notRoom notProf => ?_⟩
  · rw [kept, clocks]
  · rw [kept, clocks]
  · have runs : timeRuns s = true := by simp [timeRuns, on, low, high]
    rw [kept]
    exact timePassed_timeBase runs uncorrected whole
  · rw [counted.regs o other, clocks]; rfl
  · rw [counted.counters a notSlots notRoom notProf, clocks]

end Sys2Proof.Machine
